-- ==== Sys2Proof/Word.lean ====
section
/-!
DEFINITION. Word: the word types of the device, numbered as R12 numbers them (bit 0 is the least significant).
-/
namespace Sys2Proof

/-- One byte. -/
abbrev Byte := BitVec 8

/-- A 64-bit register (R35, R341). -/
abbrev Reg64 := BitVec 64

/-- One 64-byte unit: a flit's data, a scratchpad slot, an operand (R76, R150). -/
abbrev Unit512 := BitVec 512

/-- One tab entry (R21). -/
abbrev TabEntry := BitVec 128

/-- A finite map kept as a list of keys and values; its canonical form has strictly rising keys and no value equal
to what an unlisted key reads as. -/
abbrev SMap (α : Type) := List (Nat × α)

end Sys2Proof
end

