-- ==== Sys2Proof/Machine/Map.lean ====
section
/-!
DEFINITION. Machine/Map: reading and writing a finite map in canonical form, and the bit-field helpers every layer uses.
-/
namespace Sys2Proof.Machine

/-- What a map reads at a key: the listed value, else the default. -/
def mget {α : Type} (d : α) : SMap α → Nat → α
  | [], _ => d
  | (j, b) :: rest, k => if k = j then b else if k < j then d else mget d rest k

/-- Writing a map at a key; writing the default removes the entry. -/
def mset {α : Type} [DecidableEq α] (d : α) : SMap α → Nat → α → SMap α
  | [], k, v => if v = d then [] else [(k, v)]
  | (j, b) :: rest, k, v =>
    if k < j then (if v = d then (j, b) :: rest else (k, v) :: (j, b) :: rest)
    else if k = j then (if v = d then rest else (k, v) :: rest)
    else (j, b) :: mset d rest k v

/-- All keys of the list lie above the bound and rise strictly, and no value is the default. -/
def mwfFrom {α : Type} [DecidableEq α] (d : α) : Nat → SMap α → Bool
  | _, [] => true
  | lo, (j, b) :: rest => decide (lo ≤ j) && decide (b ≠ d) && mwfFrom d (j + 1) rest

/-- The canonical form of a map: strictly rising keys, no listed default. -/
def mwf {α : Type} [DecidableEq α] (d : α) (m : SMap α) : Bool := mwfFrom d 0 m

/-- Update at a key. -/
def mmod {α : Type} [DecidableEq α] (d : α) (m : SMap α) (k : Nat) (f : α → α) : SMap α :=
  mset d m k (f (mget d m k))

/-- Write several keys in order. -/
def msetAll {α : Type} [DecidableEq α] (d : α) (m : SMap α) : List (Nat × α) → SMap α
  | [] => m
  | (k, v) :: rest => msetAll d (mset d m k v) rest

/-- Bits [lo + n - 1 : lo] of a number (R12). -/
def fld (w lo n : Nat) : Nat := (w >>> lo) % 2 ^ n

/-- One bit of a number. -/
def bit (w lo : Nat) : Bool := fld w lo 1 = 1

/-- A Boolean as the number a one-bit field holds. -/
def b2n (b : Bool) : Nat := if b then 1 else 0

/-- Two's complement: the value of an n-bit field as an integer. -/
def sext (v n : Nat) : Int := if v < 2 ^ (n - 1) then (v : Int) else (v : Int) - (2 : Int) ^ n

/-- Two's complement: an integer as an n-bit field. -/
def toTwos (v : Int) (n : Nat) : Nat := (v % (2 : Int) ^ n).toNat

/-- The number whose fields, lowest first, are the given (value, width) pairs. -/
def packFields : List (Nat × Nat) → Nat
  | [] => 0
  | (v, n) :: rest => v % 2 ^ n + (packFields rest) <<< n

/-- Element k of width b of a unit (R76). -/
def elem (d b k : Nat) : Nat := fld d (b * k) b

/-- The unit whose elements of width b, element 0 first, are the list (R76). -/
def joinElems (b : Nat) : List Nat → Nat
  | [] => 0
  | v :: rest => v % 2 ^ b + (joinElems b rest) <<< b

/-- The first n elements of width b. -/
def elems (d b n : Nat) : List Nat := (List.range n).map (elem d b)

/-- Replace bits [lo + n - 1 : lo] of a number. -/
def setFld (w lo n v : Nat) : Nat :=
  w % 2 ^ lo + (v % 2 ^ n) <<< lo + (w >>> (lo + n)) <<< (lo + n)

/-- Bytes, lowest address first, of a little-endian number of n bytes (R12). -/
def bytesLE (w n : Nat) : List Byte := (List.range n).map fun i => BitVec.ofNat 8 (fld w (8 * i) 8)

/-- The little-endian number of a list of bytes (R12). -/
def ofBytesLE : List Byte → Nat
  | [] => 0
  | b :: rest => b.toNat + (ofBytesLE rest) <<< 8

/-- Population count of the low n bits. -/
def popcount (w n : Nat) : Nat := ((List.range n).filter fun i => bit w i).length

/-- The lowest set bit among the low n bits, or n. -/
def lowestBit (w n : Nat) : Nat := ((List.range n).find? fun i => bit w i).getD n

/-- Element i of a list, with a default. -/
def nth {α : Type} (l : List α) (i : Nat) (d : α) : α := l.getD i d

/-- Replace element i of a list. -/
def lset {α : Type} (l : List α) (i : Nat) (v : α) : List α := l.set i v

end Sys2Proof.Machine
end

