-- ==== Sys2Proof/Syntax.lean ====
section
/-!
DEFINITION. Syntax: the operands of the commands and the one inductive of commands, a constructor per row of the
table of operations and events.
-/
namespace Sys2Proof

/-- A logical tile T(x, y) (R7). -/
structure TileId where
  x : Nat
  y : Nat
  deriving DecidableEq, Repr

/-- What a code finds when memory is read: clean, a single-bit error, a double-bit error (R154, R302). -/
inductive Ecc where
  | clean | single | double
  deriving DecidableEq, Repr

/-- Upsets of the hardware that meet one command: a parity mismatch of tab memory or of a route entry, the code of the
scratchpad slot read, an uncorrectable flit (R154, R302). -/
structure Upset where
  parity : Bool := false
  spad : Ecc := .clean
  flit : Bool := false
  deriving DecidableEq, Repr

/-- The link ports of a fret, in register order (R221). -/
inductive Dir where
  | n | e | s | w
  deriving DecidableEq, Repr

/-- The networks of Table 7.1. -/
inductive Net where
  | vector | scalar | control
  deriving DecidableEq, Repr

/-- An input of a fret: a vector course of a link port, an output channel of the tile, a scalar link port, the tile's
scalar string (Table 7.4). -/
inductive FlitIn where
  | link (d : Dir) (course : Fin 5)
  | chan (c : Fin 8)
  | slink (d : Dir)
  | schan
  deriving DecidableEq, Repr

/-- What the meters and sensors report for a management tick (R366, R383, R387): mean input power of domains in W, device
input in W, inlet and outlet temperature in 0.01 degrees C, flow in 0.01 L/min, hottest sensor of domains in 0.01 degrees
C, the loaded tiles whose logic does not answer the tick's reductions (R220), and whether the syslog collector answers
(R325). -/
structure Meters where
  dom : List (Nat × Nat)
  pin : Nat
  tin : Nat
  tout : Nat
  flow : Nat
  temps : List (Nat × Nat)
  silent : List TileId
  collector : Bool
  deriving DecidableEq, Repr

/-- Where a packet stands: issued and entering the array at a fret its issuer chose (R209, R231), or at a fret, by link
port in register order, 4 for the fret's own responses, with an uncorrectable upset of the flit that moves or none (R302). -/
inductive PktSrc where
  | ring (t : TileId)
  | fret (t : TileId) (port : Fin 5) (bad : Bool)
  deriving DecidableEq, Repr

/-- A group of 16 wires of a bridge lane (R206): die, edge in register order, lane, direction (outward), group 0-38. -/
structure WireGroup where
  die : Nat
  edge : Nat
  lane : Nat
  outward : Bool
  group : Nat
  deriving DecidableEq, Repr

/-- A CXL.mem write: host address, line, byte mask, poison indicator, and what the code finds in the read step of a
partial write (R243, R332). -/
structure HostWrite where
  hpa : Nat
  data : Unit512
  mask : BitVec 64
  poison : Bool
  e : Ecc
  deriving DecidableEq, Repr

/-- What the code of stack memory finds in the four chunks of a granule: clean, corrected, uncorrectable (R242). -/
structure ChunkEcc where
  c0 : Ecc
  c1 : Ecc
  c2 : Ecc
  c3 : Ecc
  /-- what the code finds in the read step of a partial write that a stream engine then makes (R243) -/
  w : Ecc
  deriving DecidableEq, Repr

/-- The line a host writes back with its answer to a snoop (R331), if any, and what the code finds in the read step of a
partial write that a stream engine then makes (R243). -/
structure WriteBack where
  data : Option Unit512
  w : Ecc
  deriving DecidableEq, Repr

/-- A response that reaches its issuer (R211): the partition's index, and what the code finds in the read step of a partial
write that a stream engine then makes (R243). -/
structure RespTake where
  part : Fin 4
  w : Ecc
  deriving DecidableEq, Repr

/-- A chunk, as A / 64 in its die, that patrol scrub finds in error (R242). -/
structure ScrubFind where
  die : Nat
  chunk : Nat
  e : Ecc
  deriving DecidableEq, Repr

/-- A source of event records (R297). -/
inductive EvSrc where
  | tile (t : TileId)
  | spine (d : Fin 48)
  | sage
  deriving DecidableEq, Repr

/-- A finished self-test: a test of Table 11.11 (0 CU BIST, 1 MU read check, 2 MU march, 3 fret loopback) on a physical
tile, a march of a stack, or a ticket of a partition with the tiles of its region that failed (R313, R348). -/
inductive TestResult where
  | tile (test : Fin 4) (die c p : Nat) (pass : Bool)
  | stack (die : Fin 48) (k : Fin 2) (pass : Bool)
  | ticket (part : Fin 4) (ticket : Nat) (bad : List TileId)
  deriving DecidableEq, Repr

/-- A record of the defect map (Table 11.8). -/
structure DefectRec where
  kind : Nat
  die : Nat
  c : Nat := 0
  p : Nat := 0
  edge : Nat := 0
  lane : Nat := 0
  stack : Nat := 0
  quad : Nat := 0
  deriving DecidableEq, Repr

/-- A mailbox command: the port, LEN and IRQ of SGM_CMD, the bytes of SGM_REQ (R342). -/
structure MailCmd where
  port : Fin 4
  len : Nat
  irq : Bool
  req : List Byte
  deriving DecidableEq, Repr

/-- The engines of R351. -/
inductive Engine where
  | array | stream | check
  deriving DecidableEq, Repr

/-- A host's response to a CXL.cache request of the stream engine: the line read with its poison, a write done, or an error
(R333). -/
inductive CacheResp where
  | data (d : Unit512) (poison : Bool) (e : Ecc)
  | done
  | error
  deriving DecidableEq, Repr

/-- The rate in GT/s and the width a link trains at (R326). -/
structure LinkTrain where
  gts : Nat
  lanes : Nat
  deriving DecidableEq, Repr

/-- A partition of a set: index, first and last die column, port (R336). -/
structure PartDef where
  index : Fin 4
  lo : Nat
  hi : Nat
  port : Fin 4
  deriving DecidableEq, Repr

/-- A request for capo settings (Table 13.3): CAP and FLOOR in 10 W, RAMP in W/s, BALLAST, CPV in J/(L K). -/
structure CapoReq where
  cap : Option Nat := none
  ramp : Option Nat := none
  floor : Option Nat := none
  ballast : Option Bool := none
  cpv : Option Nat := none
  deriving DecidableEq, Repr

/-- Policies a request sets (Table 12.11). -/
structure PolicyReq where
  limit : Option Nat := none
  dlticks : Option Nat := none
  poison : Option Bool := none
  maint : Option (Bool × Nat) := none
  hplim : Option Nat := none
  deriving DecidableEq, Repr

/-- A test request: test of Table 12.13, one tile or every in-use tile. -/
structure TestReq where
  test : Fin 4
  tile : Option TileId
  deriving DecidableEq, Repr

/-- What sensing the fuses and the first start-up steps find (R395, R396): uncorrectable words, corrected words, whether
the DIE field of an uncorrectable DEFECT word is readable. -/
structure FuseSense where
  bad : List Nat := []
  corrected : List Nat := []
  dieReadable : Bool := true
  deriving DecidableEq, Repr

/-- What start-up steps 7 to 14 find: stacks that fail their training attempts, physical tiles that fail the self-test
(R404, R405), the metered power of domains in the tick of release. -/
structure StartupResult where
  badStacks : List (Nat × Nat) := []
  badTiles : List (Nat × Nat × Nat) := []
  power : List (Nat × Nat) := []
  deriving DecidableEq, Repr

/-- The coolant limit that is breached (R388). -/
inductive CoolantCause where
  | flow | inlet | outlet
  deriving DecidableEq, Repr

/-- The supply fault (R389, R419). -/
inductive SupplyCause where
  | input | regulator (dom : Nat) | frontEnd
  deriving DecidableEq, Repr

/-- A lockstep mismatch, a double-bit or a single-bit error of Sage's memory at an address (R411). -/
inductive LockstepCause where
  | mismatch | sramDouble (addr : Nat) | sramSingle (addr : Nat)
  deriving DecidableEq, Repr

/-- The commands of the device: one constructor per row of the table of operations and events; each docstring gives the
row and the rule it cites. -/
inductive Instr where
  /-- NEXT (R25). -/
  | next (t : TileId) (u : Upset)
  /-- SETLC (R24). -/
  | setlc (t : TileId) (u : Upset)
  /-- LOOP (R24). -/
  | loop (t : TileId) (u : Upset)
  /-- JUMP (R21). -/
  | jump (t : TileId) (u : Upset)
  /-- DELAY (R31). -/
  | delay (t : TileId) (u : Upset)
  /-- DELAY_EXPIRY (R31). -/
  | delayExpiry (t : TileId)
  /-- END (R278). -/
  | endTab (t : TileId) (u : Upset)
  /-- TAB_MOVE (R25). -/
  | tabMove (t : TileId) (u : Upset)
  /-- SEM_WAIT_GE (R28). -/
  | semWaitGe (t : TileId) (u : Upset)
  /-- SEM_ADD (R28). -/
  | semAdd (t : TileId) (u : Upset)
  /-- SEM_SUB (R28). -/
  | semSub (t : TileId) (u : Upset)
  /-- SEM_WAIT_GE_SUB (R28). -/
  | semWaitGeSub (t : TileId) (u : Upset)
  /-- SEM2_ADD (R28). -/
  | sem2Add (t : TileId) (u : Upset)
  /-- SEM2_SUB (R28). -/
  | sem2Sub (t : TileId) (u : Upset)
  /-- ARR_LOAD (R53). -/
  | arrLoad (t : TileId) (u : Upset)
  /-- ARR_LOADSC (R57). -/
  | arrLoadsc (t : TileId) (u : Upset)
  /-- ARR_SWAP (R55). -/
  | arrSwap (t : TileId) (u : Upset)
  /-- MAC (R58). -/
  | mac (t : TileId) (u : Upset)
  /-- MAC_HL (R67). -/
  | macHl (t : TileId) (u : Upset)
  /-- MAC_LH (R67). -/
  | macLh (t : TileId) (u : Upset)
  /-- MAC_HH (R67). -/
  | macHh (t : TileId) (u : Upset)
  /-- MAC_P20 (R67). -/
  | macP20 (t : TileId) (u : Upset)
  /-- MAC_P11 (R67). -/
  | macP11 (t : TileId) (u : Upset)
  /-- MAC_P02 (R67). -/
  | macP02 (t : TileId) (u : Upset)
  /-- MAC_P21 (R67). -/
  | macP21 (t : TileId) (u : Upset)
  /-- MAC_P12 (R67). -/
  | macP12 (t : TileId) (u : Upset)
  /-- MAC_P22 (R67). -/
  | macP22 (t : TileId) (u : Upset)
  /-- ARR_DRAIN (R60). -/
  | arrDrain (t : TileId) (u : Upset)
  /-- MODE (R63). -/
  | mode (t : TileId) (u : Upset)
  /-- ARRAY_CONTRIBUTION_LAND (R61). -/
  | arrayContributionLand (t : TileId) (mism : Nat)
  /-- DRAIN_FLIT (R60). -/
  | drainFlit (t : TileId)
  /-- SP_LOAD (R125). -/
  | spLoad (t : TileId) (u : Upset)
  /-- LOADM (R125). -/
  | loadm (t : TileId) (u : Upset)
  /-- SP_LOADSC (R125). -/
  | spLoadsc (t : TileId) (u : Upset)
  /-- SP_SWAP (R125). -/
  | spSwap (t : TileId) (u : Upset)
  /-- MAC24 (R126). -/
  | mac24 (t : TileId) (u : Upset)
  /-- MAC24_LAND (R127). -/
  | mac24Land (t : TileId) (mism : Nat)
  /-- GLOAD (R132). -/
  | gload (t : TileId) (u : Upset)
  /-- BEGIN (R133). -/
  | beginStep (t : TileId) (u : Upset)
  /-- SEG (R134). -/
  | seg (t : TileId) (u : Upset)
  /-- SEG_LAND (R135). -/
  | segLand (t : TileId) (mism : Nat)
  /-- FALLBACK_FETCH (R136). -/
  | fallbackFetch (t : TileId) (e : Ecc)
  /-- FALLBACK_CHUNK_ISSUE (R136). -/
  | fallbackChunkIssue (t : TileId)
  /-- SPARSE_STEP_COMPLETE (R137). -/
  | sparseStepComplete (t : TileId)
  /-- SP_DRAIN (R141). -/
  | spDrain (t : TileId) (u : Upset)
  /-- VMOV (R100). -/
  | vmov (t : TileId) (u : Upset)
  /-- VADD (R102). -/
  | vadd (t : TileId) (u : Upset)
  /-- VSUB (R102). -/
  | vsub (t : TileId) (u : Upset)
  /-- VMUL (R102). -/
  | vmul (t : TileId) (u : Upset)
  /-- VMIN (R102). -/
  | vmin (t : TileId) (u : Upset)
  /-- VMAX (R102). -/
  | vmax (t : TileId) (u : Upset)
  /-- VABS (R102). -/
  | vabs (t : TileId) (u : Upset)
  /-- VNEG (R102). -/
  | vneg (t : TileId) (u : Upset)
  /-- VCMPGT (R102). -/
  | vcmpgt (t : TileId) (u : Upset)
  /-- VCMPEQ (R102). -/
  | vcmpeq (t : TileId) (u : Upset)
  /-- VAND (R100). -/
  | vand (t : TileId) (u : Upset)
  /-- VOR (R100). -/
  | vor (t : TileId) (u : Upset)
  /-- VXOR (R100). -/
  | vxor (t : TileId) (u : Upset)
  /-- VSHL (R102). -/
  | vshl (t : TileId) (u : Upset)
  /-- VSHR (R102). -/
  | vshr (t : TileId) (u : Upset)
  /-- VRCP (R102). -/
  | vrcp (t : TileId) (u : Upset)
  /-- VRSQRT (R102). -/
  | vrsqrt (t : TileId) (u : Upset)
  /-- VEXP2 (R102). -/
  | vexp2 (t : TileId) (u : Upset)
  /-- VLOG2 (R102). -/
  | vlog2 (t : TileId) (u : Upset)
  /-- VRSUM (R103). -/
  | vrsum (t : TileId) (u : Upset)
  /-- VRMAX (R103). -/
  | vrmax (t : TileId) (u : Upset)
  /-- CVT_W (R105). -/
  | cvtW (t : TileId) (u : Upset)
  /-- CVT_N (R106). -/
  | cvtN (t : TileId) (u : Upset)
  /-- CVT_NB (R107). -/
  | cvtNb (t : TileId) (u : Upset)
  /-- PACK_SCL (R107). -/
  | packScl (t : TileId) (u : Upset)
  /-- PACK_MSK (R110). -/
  | packMsk (t : TileId) (u : Upset)
  /-- CVT_WB (R105). -/
  | cvtWb (t : TileId) (u : Upset)
  /-- CMP_24P (R130). -/
  | cmp24p (t : TileId) (u : Upset)
  /-- CMP_24F (R130). -/
  | cmp24f (t : TileId) (u : Upset)
  /-- CMP_SEG (R111). -/
  | cmpSeg (t : TileId) (u : Upset)
  /-- CMP_FLUSH (R111). -/
  | cmpFlush (t : TileId) (u : Upset)
  /-- CMP_COUNT (R111). -/
  | cmpCount (t : TileId) (u : Upset)
  /-- CMP_RESET (R111). -/
  | cmpReset (t : TileId) (u : Upset)
  /-- VECTOR_V6 (R98). -/
  | vectorV6 (t : TileId) (mism : Nat)
  /-- EXT_MARK (R158). -/
  | extMark (t : TileId)
  /-- NON_TAB_WRITE_GRANT (R159). -/
  | nonTabWriteGrant (t : TileId)
  /-- FILLBLOCK_LAND (R166). -/
  | fillblockLand (t : TileId)
  /-- PACKET_READ_CLAIM (R160). -/
  | packetReadClaim (t : TileId)
  /-- PACKET_READ_GRANT (R160). -/
  | packetReadGrant (t : TileId) (e : Ecc)
  /-- BULK_SLOT_WRITE (R163). -/
  | bulkSlotWrite (t : TileId) (e : Ecc)
  /-- ACCUMULATE_WRITE_ARRIVAL (R143). -/
  | accumulateWriteArrival (t : TileId)
  /-- CB_IDLE_DRAIN (R144). -/
  | cbIdleDrain (t : TileId)
  /-- CB_DRAIN (R143). -/
  | cbDrain (t : TileId)
  /-- WWRITE (R211). -/
  | wwrite (t : TileId)
  /-- MREAD (R211). -/
  | mread (t : TileId)
  /-- MCMD (R162). -/
  | mcmd (t : TileId)
  /-- RESP (R211). -/
  | resp (p : RespTake)
  /-- CFGW (R255). -/
  | cfgw (t : TileId)
  /-- QUEUE_FLIT_ARRIVAL (R174). -/
  | queueFlitArrival (t : TileId) (i : FlitIn)
  /-- MERGE_QUEUE_GRANT (R175). -/
  | mergeQueueGrant (t : TileId) (q : Fin 8)
  /-- PEER_RESET (R178). -/
  | peerReset (t : TileId)
  /-- SCALAR_SIGNAL (R172). -/
  | scalarSignal (t : TileId)
  /-- SCALAR_REGISTER_WRITE (R194). -/
  | scalarRegisterWrite (t : TileId)
  /-- STALL_TIMEOUT (R180). -/
  | stallTimeout (t : TileId)
  /-- MANAGEMENT_TICK (R181). -/
  | managementTick (m : Meters)
  /-- SECTION_DEADLOCK (R181). -/
  | sectionDeadlock (p : Fin 4)
  /-- ENDED_REDUCTION (R220). -/
  | endedReduction (p : Fin 4)
  /-- HALT_WAVE (R32). -/
  | haltWave (t : TileId)
  /-- FLIT_HOP (R197). -/
  | flitHop (t : TileId) (i : FlitIn) (u : Upset)
  /-- COURSE5_AGED (R199). -/
  | course5Aged (t : TileId) (d : Dir)
  /-- HOP_CREDIT_RETURN (R200). -/
  | hopCreditReturn (t : TileId) (d : Dir) (lane : Fin 7)
  /-- WINDOW_TOKEN_RETURN (R201). -/
  | windowTokenReturn (t : TileId) (ch : Fin 9)
  /-- RETRY_REQUEST (R204). -/
  | retryRequest (t : TileId) (d : Dir) (net : Net)
  /-- LINK_FAIL (R205). -/
  | linkFail (t : TileId) (d : Dir)
  /-- PACKET_HOP (R212). -/
  | packetHop (src : PktSrc)
  /-- WIRE_STEER (R207). -/
  | wireSteer (w : WireGroup)
  /-- CXL_MEM_READ (R332). -/
  | cxlMemRead (port : Fin 4) (hpa : Nat) (cached : Bool)
  /-- CXL_MEM_WRITE (R332). -/
  | cxlMemWrite (port : Fin 4) (w : HostWrite)
  /-- DRAM_READ_RETURN (R237). -/
  | dramReadReturn (d : Fin 48) (sl : Fin 64) (e : ChunkEcc)
  /-- MERGE_ENTRY_EXPIRY (R238). -/
  | mergeEntryExpiry (d : Fin 48) (sl : Fin 64)
  /-- REFRESH_PHASE (R239). -/
  | refreshPhase (e : List ScrubFind)
  /-- STACK_STREAM_START (R233). -/
  | stackStreamStart (d : Fin 48) (k : Fin 64)
  /-- STACK_STREAM_PACKET (R233). -/
  | stackStreamPacket (d : Fin 48) (k : Fin 64)
  /-- EVENT_RECORD (R297). -/
  | eventRecord (src : EvSrc)
  /-- LOAD (R259). -/
  | load (p : Fin 4)
  /-- RESTORE (R273). -/
  | restore (p : Fin 4)
  /-- FINISH (R354). -/
  | finish (p : Fin 4)
  /-- DRAIN_START (R260). -/
  | drainStart (p : Fin 4)
  /-- DRAIN_SAMPLE (R260). -/
  | drainSample (p : Fin 4)
  /-- SPILLS_COMPLETE (R267). -/
  | spillsComplete (p : Fin 4)
  /-- CHECKPOINT_CAPTURE_COMPLETE (R270). -/
  | checkpointCaptureComplete (p : Fin 4)
  /-- FORCED_PATH_INFLIGHT_CLEAR (R264). -/
  | forcedPathInflightClear (p : Fin 4)
  /-- IMAGE_LOAD_COMPLETE (R256). -/
  | imageLoadComplete (p : Fin 4)
  /-- RELEASE (R263). -/
  | release (p : Fin 4)
  /-- REPLAY_NEXT_LOAD (R274). -/
  | replayNextLoad (p : Fin 4)
  /-- TILE_FAULT (R306). -/
  | tileFault (t : TileId) (trig : Fin 5)
  /-- REPAIR_HISTORY_WRITTEN (R307). -/
  | repairHistoryWritten (p : Fin 4)
  /-- REMAP_COMMITTED (R307). -/
  | remapCommitted (p : Fin 4)
  /-- SELFTEST_COMPLETE (R313). -/
  | selftestComplete (r : TestResult)
  /-- SELFTEST_OVERDUE (R315). -/
  | selftestOverdue (p : Fin 4)
  /-- SPARE_TILE_TEST (R315). -/
  | spareTileTest (d : Fin 48) (failed : List (Nat × Nat))
  /-- MARKED_UNIT_RETEST (R317). -/
  | markedUnitRetest (r : DefectRec) (pass : Bool)
  /-- SENSOR_CALIBRATION (R316). -/
  | sensorCalibration
  /-- HISTORY_COUNTER_WRITE (R320). -/
  | historyCounterWrite
  /-- SYSLOG_SUMMARY (R325). -/
  | syslogSummary
  /-- REPORT_LOST (R325). -/
  | reportLost
  /-- PARTITION_QUERY (R345). -/
  | partitionQuery (m : MailCmd)
  /-- POLICY_SET (R346). -/
  | policySet (m : MailCmd)
  /-- SUBMIT_LIST (R352). -/
  | submitList (m : MailCmd) (host : Option (List (BitVec 512)))
  /-- EVENT_READ (R347). -/
  | eventRead (m : MailCmd)
  /-- TILE_READ (R347). -/
  | tileRead (m : MailCmd)
  /-- SPINE_READ (R347). -/
  | spineRead (m : MailCmd)
  /-- STALL_MAP (R347). -/
  | stallMap (m : MailCmd)
  /-- SECTION_READ (R347). -/
  | sectionRead (m : MailCmd)
  /-- DIAG_READ (R347). -/
  | diagRead (m : MailCmd)
  /-- SELFTEST (R348). -/
  | selftest (m : MailCmd)
  /-- ATTEST (R413). -/
  | attest (m : MailCmd)
  /-- IDE_KEY (R350). -/
  | ideKey (m : MailCmd)
  /-- DETACH (R362). -/
  | detach (m : MailCmd)
  /-- DETACH_TIMEOUT (R362). -/
  | detachTimeout (port : Fin 4)
  /-- ATTACH (R363). -/
  | attach (m : MailCmd)
  /-- REC_BEGIN (R412). -/
  | recBegin (m : MailCmd)
  /-- REC_DATA (R412). -/
  | recData (m : MailCmd)
  /-- REC_COMMIT (R412). -/
  | recCommit (m : MailCmd)
  /-- LIST_START (R352). -/
  | listStart (p : Fin 4) (eng : Engine)
  /-- ENTRY_COMPLETE (R358). -/
  | entryComplete (p : Fin 4) (eng : Engine)
  /-- H2S (R355). -/
  | h2s (p : Fin 4)
  /-- S2H (R355). -/
  | s2h (p : Fin 4)
  /-- S2S (R355). -/
  | s2s (p : Fin 4)
  /-- IMG (R355). -/
  | img (p : Fin 4)
  /-- H2T (R356). -/
  | h2t (p : Fin 4)
  /-- S2T (R356). -/
  | s2t (p : Fin 4)
  /-- T2H (R356). -/
  | t2h (p : Fin 4)
  /-- T2S (R356). -/
  | t2s (p : Fin 4)
  /-- TCMD (R356). -/
  | tcmd (p : Fin 4)
  /-- CONFIRM_POLL (R356). -/
  | confirmPoll (p : Fin 4)
  /-- ENTRY_TIMEOUT (R356). -/
  | entryTimeout (p : Fin 4)
  /-- ARM (R357). -/
  | arm (p : Fin 4)
  /-- DISARM (R357). -/
  | disarm (p : Fin 4)
  /-- CXL_CACHE_RESPONSE (R333). -/
  | cxlCacheResponse (p : Fin 4) (r : CacheResp)
  /-- CXL_CACHE_TIMEOUT (R333). -/
  | cxlCacheTimeout (p : Fin 4)
  /-- BIRSP (R331). -/
  | birsp (port : Fin 4) (line : Nat) (wb : WriteBack)
  /-- HOST_SNOOP (R333). -/
  | hostSnoop (port : Fin 4) (addr : Nat)
  /-- HDM_DECODER_COMMIT (R330). -/
  | hdmDecoderCommit (port : Fin 4) (base : Nat) (size : Nat) (ways : Nat)
  /-- IDE_ENABLE (R334). -/
  | ideEnable (port : Fin 4) (keyset : Fin 2)
  /-- IDE_INTEGRITY_FAIL (R334). -/
  | ideIntegrityFail (port : Fin 4)
  /-- CDAT_READ (R329). -/
  | cdatRead (port : Fin 4)
  /-- REGISTER_WRITE (R13). -/
  | registerWrite (port : Fin 4) (off : Nat) (v : BitVec 64)
  /-- FUNCTION_LEVEL_RESET (R335). -/
  | functionLevelReset (port : Fin 4)
  /-- LINK_UP (R363). -/
  | linkUp (port : Fin 4) (r : LinkTrain)
  /-- HOST_LINK_DOWN (R364). -/
  | hostLinkDown (port : Fin 4)
  /-- LINK_DOWN_TIMEOUT (R364). -/
  | linkDownTimeout (port : Fin 4)
  /-- KEY_PAIR_EXPIRY (R349). -/
  | keyPairExpiry (port : Fin 4)
  /-- PARTITION_SET (R339). -/
  | partitionSet (ps : List PartDef) (force : Bool)
  /-- CAPO_SETTINGS (R373). -/
  | capoSettings (c : CapoReq)
  /-- REDFISH_POLICY_SET (R346). -/
  | redfishPolicySet (p : Fin 4) (r : PolicyReq) (lock : Option Bool)
  /-- REDFISH_SELFTEST (R314). -/
  | redfishSelftest (p : Fin 4) (r : TestReq)
  /-- FIRMWARE_UPDATE (R409). -/
  | firmwareUpdate (img : List Byte)
  /-- COMPUTER_SYSTEM_RESET (R409). -/
  | computerSystemReset (force : Bool)
  /-- COMMIT_VERSION (R410). -/
  | commitVersion
  /-- ENTER_RECOVERY (R412). -/
  | enterRecovery
  /-- PREPARE_REMOVAL (R435). -/
  | prepareRemoval (force : Bool)
  /-- DEVID_CERT_WRITE (R402). -/
  | devidCertWrite (cert : List Byte)
  /-- RECOVERY_IMAGE_PUT (R412). -/
  | recoveryImagePut (img : List Byte)
  /-- RECOVERY_STATUS_GET (R406). -/
  | recoveryStatusGet
  /-- CH_PRSNT_LOW (R417). -/
  | chPrsntLow
  /-- CH_PRSNT_HIGH (R417). -/
  | chPrsntHigh
  /-- AUX_POWER_STABLE (R403). -/
  | auxPowerStable (f : FuseSense)
  /-- MAIN_POWER_ENABLE (R422). -/
  | mainPowerEnable (r : StartupResult)
  /-- EPO_ASSERT (R422). -/
  | epoAssert
  /-- FLOW_INTERLOCK_CLOSE (R425). -/
  | flowInterlockClose
  /-- FLOW_INTERLOCK_OPEN (R425). -/
  | flowInterlockOpen
  /-- COOLANT_LOW (R388). -/
  | coolantLow (c : CoolantCause)
  /-- SUPPLY_FAULT (R389). -/
  | supplyFault (c : SupplyCause)
  /-- THERMAL_TRIP (R384). -/
  | thermalTrip (dom : Nat) (temp : Nat)
  /-- QUADRANT_TRIP (R385). -/
  | quadrantTrip (d : Fin 48) (q : Fin 4)
  /-- QUADRANT_OFF (R385). -/
  | quadrantOff (d : Fin 48) (q : Fin 4)
  /-- DROOP_TRIP (R371). -/
  | droopTrip (d : Fin 48) (q : Fin 4)
  /-- DIVIDER_RAMP_STEP (R370). -/
  | dividerRampStep (dom : Nat)
  /-- SAGE_LOCKSTEP (R411). -/
  | sageLockstep (c : LockstepCause)
  /-- TAB_MOVE_LAND (R25). -/
  | tabMoveLand (t : TileId)
  /-- FALLBACK_CHUNK_LAND (R137). -/
  | fallbackChunkLand (t : TileId) (mism : Nat)
  /-- POWER_SWITCH_RAMP (R370). -/
  | powerSwitchRamp (dom : Nat)
  /-- BRIDGE_WIRE_TUNING (R207). -/
  | bridgeWireTuning (w : WireGroup) (bad : Bool)
  /-- STACK_FAILURE (R312). -/
  | stackFailure (d : Fin 48) (k : Fin 2)
  /-- RING_FAILURE (R312). -/
  | ringFailure
  /-- UNKNOWN_OPCODE (R344). -/
  | unknownOpcode (m : MailCmd) (opcode : BitVec 16)
  deriving DecidableEq, Repr

end Sys2Proof
end

