-- ==== Sys2Proof/Machine/State.lean ====
section
/-!
DEFINITION. Machine/State: everything the spec gives the device, as plain data; the outcomes; the state after reset.
-/
namespace Sys2Proof.Machine

/-! ## Numbers -/

/-- A value of a number format: a NaN, an infinity with its sign, or exactly (-1)^neg * m * 2^e; a zero keeps its
sign (R77, R78). For a decoded element m is its significand with the hidden bit and e the weight exponent of R64. -/
inductive Val where
  | nan
  | inf (neg : Bool)
  | fin (neg : Bool) (m : Nat) (e : Int)
  deriving DecidableEq, Repr

/-! ## Events -/

/-- The classes of Table 11.1 (R292). -/
inductive EvClass where
  | corrected | deferred | uncorrected | fatal
  deriving DecidableEq, Repr

/-- The origins of Table 11.2 (R293). -/
inductive Origin where
  | hardware | program | host | device
  deriving DecidableEq, Repr

/-- The event codes of Table 11.5 (R298). -/
inductive EvCode where
  | tabMalformed | tabParity | counterSaturated | stallTimeout | sectionDeadlock | tileFault | tileSuspect
  | arrayFormat | arrayResidue | vecPack | vectorResidue | sparseState | groupOverflow | indexBounds | sparseResidue
  | spadCorrected | spadUncorrected | muCmd | windowViolation | arrivalOverflow | semOverflow | semUnderflow
  | msgLength | lateWrite | peerReset
  | linkDegraded | linkFail | packetMalformed | packetFenced | packetMisroute | routeMissing | staleEpoch | wireSteered
  | stackCorrected | stackUncorrected | stackRange | stackRepeat | stackFail
  | imageRefused | imagePoison | residualToken | checkpointMismatch | reportStale | reportMismatch
  | repairDone | columnRetired | diecolOut | restoreLimit | selftestFail | selftestOverdue | unitReturned
  | placementChanged
  | thermalTrip | quadrantOff | coolantLow | supplyFault
  | hostLinkDown | completionTimeout
  | fwRejected | sageLockstep | sageSramCorrected | fuseError | ringFail | reportLost
  deriving DecidableEq, Repr

/-- An event as its source raises it: the fields of Table 11.3 that the source knows (R296). -/
structure Ev where
  code : EvCode
  cls : EvClass
  org : Origin
  sub : Nat := 0
  detail : Nat := 0
  cycle : Nat := 0
  /-- occurrences coalesced into this record -/
  supp : Nat := 0
  /-- what a record raised by Sage, an engine or a spine names: partition, die, tile -/
  part : Option Nat := none
  die : Option Nat := none
  tile : Option (Nat × Nat) := none
  /-- SPAD_UNCORRECTED of a slot whose poison bit was clear: written since any earlier upset (R301) -/
  fresh : Bool := false
  deriving DecidableEq, Repr

/-- What a source of events holds: its records in flight, the tick in which each code was last raised (plus one),
and the occurrences coalesced since (R297). -/
structure EvPort where
  q : List Ev := []
  last : SMap Nat := []
  supp : SMap Nat := []
  deriving DecidableEq, Repr

/-! ## Tile: tab unit -/

/-- The states of R20. -/
inductive TState where
  | loaded | running | ended | halted
  deriving DecidableEq, Repr

/-- The tile counters of Tables 1.8, 2.10, 3.11, 4.5, 5.8, 6.14 and 7.14 in the format of Table 1.10. -/
inductive TileCtr where
  | fire | idle | slipTotal | slip (cause : Nat) | arrayOn | sparseOn
  | arrIssue | arrResidue | arrIntsat | cvtSat | cvtNan
  | vecOps | vecResidue | vecElem | vecZero | vecZ24 | zgate | cmpPrune
  | spIssue | spPairs | spPad | spFallback | spFbcyc | spZgate | spResidue | spBounds | spGrovf | spFixsat | spIntsat
  | cbWrites | cbMerges | cbDrains
  | qIn (k : Nat) | qLate | winViol | muExtw
  | vOut (port : Nat) | vStall (port : Nat) | sOut (port : Nat) | sStall (port : Nat) | retry (port : Nat)
  | stale | discard | late
  deriving DecidableEq, Repr

/-- A string as its source names it: the tile that emits it and its output channel (8: the scalar string). -/
structure Str where
  x : Nat
  y : Nat
  ch : Nat
  deriving DecidableEq, Repr

/-- A flit of a string, or a scalar word (R187, R191), with what the fabric keeps beside it: the string, its number
on it, the hop latency it has passed, the earliest cycle it may leave the fret, and the outputs it has left on. -/
structure Flit where
  data : Unit512
  poison : Bool
  epoch : BitVec 4
  last : Bool
  str : Str
  num : Nat
  lat : Nat := 0
  ready : Nat := 0
  left : List Nat := []
  /-- it has arrived at the input whose buffer lists it; else it is still on the link -/
  arr : Bool := false
  deriving DecidableEq, Repr

/-- One result that leaves a unit for its destinations (R60, R98): a write of the scratchpad, a vector flit, a scalar
word. -/
structure Emit where
  slot : Option Nat := none
  chan : Option Nat := none
  scalar : Bool := false
  data : Unit512 := 0
  poison : Bool := false
  last : Bool := false
  deriving DecidableEq, Repr

/-- The pack, scale, mask and segment buffers of the compressor (R106, R107, R110, R111). -/
structure VBuf where
  pack : Unit512 := 0
  pkg : Nat := 0
  pkfmt : Nat := 0
  packPoison : Bool := false
  scale : Unit512 := 0
  skp : Nat := 0
  scalePoison : Bool := false
  mask : Unit512 := 0
  mkp : Nat := 0
  maskPoison : Bool := false
  /-- pending pairs, oldest first: 32-bit lanes of R131 -/
  pend : List (BitVec 32) := []
  segcnt : BitVec 16 := 0
  pos : BitVec 32 := 0
  segPoison : Bool := false
  deriving DecidableEq, Repr

/-- What a vector entry changes in V6 beside its emission: the counters of R116, whether it wrote or emitted the pack
buffer, and an event it raises there. -/
structure VecFx where
  elems : Nat := 0
  zeros : Nat := 0
  z24 : Nat := 0
  prune : Nat := 0
  sat : Nat := 0
  nans : Nat := 0
  packWrite : Bool := false
  packEmit : Bool := false
  segWrite : Bool := false
  overflowGroup : Option Nat := none
  deriving DecidableEq, Repr

/-- The addition of one issue to one accumulator row: column values in groups added one after the other (R64, R126). -/
structure RowAdd where
  row : Nat
  /-- overwrite the row with the first group (Z) -/
  z : Bool := false
  /-- INT32 accumulation (R66) -/
  int : Bool := false
  groups : List (List Val) := []
  poison : Bool := false
  deriving DecidableEq, Repr

/-- The units whose issues land in an accumulator. -/
inductive IssueKind where
  | arr | mac24 | seg | chunk
  deriving DecidableEq, Repr

/-- Work in flight inside a tile; `vis` is the first tile cycle in which its effect is visible. -/
inductive FlyWork where
  | move (e : Emit)
  | drain (sparse : Bool) (e : Emit)
  | issue (k : IssueKind) (rows : List RowAdd)
  | vec (e : Option Emit) (fx : VecFx) (buf : VBuf)
  deriving DecidableEq, Repr

/-- One item in flight. -/
structure Flight where
  vis : Nat
  work : FlyWork
  deriving DecidableEq, Repr

/-- The tab unit: Tables 1.8 and 1.9, tab memory, loop counters, scalar receive register, watchdog, TAB_PLAN and the
prediction block (R18-R37, R180, R252, R278). -/
structure TabUnit where
  st : TState := .halted
  pc : BitVec 10 := 0
  lastCause : BitVec 3 := 0
  epoch : BitVec 4 := 0
  delaying : Bool := false
  /-- idle cycles still to run after a DELAY (R31) -/
  delayLeft : Nat := 0
  mem : SMap TabEntry := []
  lc : SMap (BitVec 17) := []
  cycle : Reg64 := 0
  endCycle : Reg64 := 0
  skipq : BitVec 8 := 0
  srx : BitVec 32 := 0
  srxValid : Bool := false
  srxPoison : Bool := false
  /-- the word the register holds, for its window token (Table 7.7) -/
  srxWord : Option Flit := none
  /-- device cycle from which the register is free after its last pop (R23, R26) -/
  srxFreeAt : Nat := 0
  /-- index of the next tile cycle since load -/
  tc : Nat := 0
  /-- earliest device cycle of the next tile cycle -/
  nextCore : Nat := 0
  /-- device cycle in which the last tile cycle evaluated began -/
  lastCore : Nat := 0
  /-- stall watchdog, Table 6.11 -/
  wdCount : Nat := 0
  wdLimit : BitVec 5 := 22
  wdTripped : Bool := false
  wdProgress : Bool := false
  /-- PROGRESS as it stood at the end of the last tick (R181, R182) -/
  wdLast : Bool := false
  wdHold : Bool := false
  /-- TAB_PLAN, Table 9.13: DONE, FIREOK, IDLEOK, ENDOK, SLIPOK, SATSKIP -/
  plan : BitVec 64 := 0
  /-- prediction block of the image (R252): PFIRE, PEND, PIDLE, PSLIP -/
  pred : Nat × Nat × Nat × Nat := (0, 0, 0, 0)
  /-- section index of the image, job seed, count of stochastic converts (R89, R96) -/
  section_ : BitVec 16 := 0
  seed : Reg64 := 0
  srn : Reg64 := 0
  deriving DecidableEq, Repr

/-! ## Tile: dense array and sparse engine -/

/-- A row of an accumulator memory with its poison (R46, R71); whether its lanes hold INT32 values (R66, R141). -/
structure AccRow where
  bits : BitVec 2048 := 0
  poison : Bool := false
  int : Bool := false
  deriving DecidableEq, Repr

/-- A stationary bank of the dense array (R53, R57). -/
structure Bank where
  rows : SMap (BitVec 2048) := []
  fmt : BitVec 4 := 0
  valid : Bool := false
  poison : Bool := false
  /-- column scales, E8M0; unlisted is unity -/
  scales : SMap (BitVec 8) := []
  deriving DecidableEq, Repr

/-- The dense matrix array (R45-R63, Table 2.11). -/
structure ArrayUnit where
  mode : BitVec 2 := 0
  orient : Bool := false
  ap : Nat := 0
  dp : Nat := 0
  lrow : Nat := 0
  lpart : Nat := 0
  active : Bank := {}
  shadow : Bank := {}
  ascl : SMap (BitVec 8) := []
  scPoison : Bool := false
  acc : SMap AccRow := []
  /-- accumulator part pointer of R104 -/
  vaccp : Nat := 0
  /-- first tile cycle in which no pass is in flight -/
  busyTo : Nat := 0
  deriving DecidableEq, Repr

/-- A stationary bank of the sparse engine (R124, R125). -/
structure SpBank where
  cols : SMap (BitVec 256) := []
  masks : SMap (BitVec 64) := []
  fmt : BitVec 4 := 0
  valid : Bool := false
  poison : Bool := false
  scales : SMap (BitVec 8) := []
  deriving DecidableEq, Repr

/-- The open step of the sparse engine (R133, R136). -/
structure SpStep where
  fallback : Bool
  budget : Nat
  rows : Nat
  kt : Nat
  dbase : Nat
  fmt : Nat
  semid : Nat
  count : Nat
  segn : Nat := 0
  /-- tile cycle of BEGIN; tile cycle in which the BUDGET-th SEG fired -/
  begun : Nat := 0
  lastSeg : Option Nat := none
  /-- slots fetched, fetch buffer contents with their poison and tile cycle of fetch, chunks issued, tile cycle of the last
  chunk -/
  fetched : Nat := 0
  buf : List (Unit512 × Bool × Nat) := []
  issued : Nat := 0
  lastChunk : Nat := 0
  deriving DecidableEq, Repr

/-- The sparse engine (R118-R141, Table 5.9). -/
structure SparseUnit where
  active : SpBank := {}
  shadow : SpBank := {}
  ascl : SMap (BitVec 8) := []
  scPoison : Bool := false
  lcol : Nat := 0
  ap : Nat := 0
  dp : Nat := 0
  acc : SMap AccRow := []
  /-- gather store: row bytes, format, rows written, poison -/
  gather : SMap (BitVec 256) := []
  gfmt : BitVec 4 := 0
  grow : Nat := 0
  gk : Nat := 0
  gPoison : Bool := false
  /-- FRAME of the most recent BEGIN -/
  frame : Int := 0
  step : Option SpStep := none
  maxcnt : BitVec 32 := 0
  busyTo : Nat := 0
  /-- tile cycle (plus one) of the last MAC24 and of the last chunk issue -/
  mac24At : Nat := 0
  deriving DecidableEq, Repr

/-! ## Tile: memory unit -/

/-- A scratchpad slot with its tag and poison bits (R150). -/
structure Slot where
  data : Unit512 := 0
  full : Bool := false
  poison : Bool := false
  deriving DecidableEq, Repr

/-- An address generator (Table 6.1). -/
structure AddrGen where
  cur : BitVec 11 := 0
  base : BitVec 11 := 0
  lo : BitVec 11 := 0
  hi : BitVec 11 := 0
  stride : BitVec 12 := 0
  deriving DecidableEq, Repr

/-- The classes of non-tab writes, in priority order (R159). -/
inductive WClass where
  | sage | arrayEngine | ste | cbDrain | coll
  deriving DecidableEq, Repr

/-- A write waiting in the MU ingress buffer: a window write, or a packet's write of the scratchpad (R159, R165, R255). -/
structure MuWrite where
  id : Nat
  cls : WClass
  win : Nat
  slot : Nat
  boff : Nat
  bcnt : Nat
  data : Unit512
  poison : Bool
  arr : Nat
  /-- tile cycle from which it counts as waiting: its arrival, or the end of its last hold by FILLBLOCK (R158, R166) -/
  since : Nat
  flit : Option Flit := none
  /-- bytes that a CFGW writes in the scratchpad alias, outside every window (R255) -/
  raw : Bool := false
  deriving DecidableEq, Repr

/-- A packet read waiting for the read port (R160, R211). -/
structure PRead where
  id : Nat
  issuer : Nat
  header : Unit512
  arr : Nat
  epoch : BitVec 4
  /-- the claim of R160 stands -/
  claimed : Bool := false
  /-- slots read so far: data, tag, poison -/
  got : List (Unit512 × Bool × Bool) := []
  deriving DecidableEq, Repr

/-- What a write of the cycle that began in a device cycle changes at the cycle's end, visible to the guard from tile cycle
`vis` on: a slot's tag, an arrival counter with its advance (R26, R166, R169). -/
structure CycleEnd where
  vis : Nat
  core : Nat
  tag : Option (Nat × Bool) := none
  count : Option (Nat × Nat) := none
  deriving DecidableEq, Repr

/-- An EXT mark of the write-port calendar: its tile cycle and the write that owns it (R158). -/
structure ExtMark where
  cycle : Nat
  owner : Nat
  deriving DecidableEq, Repr

/-- A bulk operation: command word of Table 6.4, pattern, tile cycle of acceptance, slots written (R161, R163). -/
structure Bulk where
  cmd : Reg64
  pattern : Unit512 := 0
  patPoison : Bool := false
  accepted : Nat
  done : Nat := 0
  /-- ISSUER of the packet that brought it -/
  issuer : Nat := 6
  deriving DecidableEq, Repr

/-- An entry of the combining buffer (R143). -/
structure CbEntry where
  slot : Nat
  win : Nat
  lanes : Unit512
  poison : Bool
  count : Nat
  last : Nat
  id : Nat
  /-- the drain has been requested (eviction or 32 idle cycles), since this tile cycle -/
  wants : Option Nat := none
  deriving DecidableEq, Repr

/-- An arrival counter (Table 6.6). -/
structure ArrCtr where
  count : BitVec 24 := 0
  quantum : BitVec 24 := 0
  semid : BitVec 6 := 0
  deriving DecidableEq, Repr

/-- A semaphore with its capacity; the remote additions of the device cycle `at_` (R28, R171). -/
structure Sem where
  val : BitVec 16 := 0
  cap : BitVec 16 := 0
  at_ : Nat := 0
  added : Nat := 0
  refused : Nat := 0
  deriving DecidableEq, Repr

/-- The queue states of Table 6.9. -/
inductive QState where
  | open_ | closed | reset
  deriving DecidableEq, Repr

/-- A receive queue (R174-R179, Table 6.10). -/
structure Queue where
  st : QState := .reset
  /-- visible flits, head first -/
  flits : List Flit := []
  /-- held flits of the message in progress -/
  held : List Flit := []
  reserved : Nat := 0
  openBy : Option Str := none
  msglen : BitVec 4 := 0
  writers : BitVec 4 := 0
  hwm : BitVec 6 := 0
  epoch : BitVec 4 := 0
  /-- LATE_WRITE raised in this section (R177) -/
  lateRaised : Bool := false
  /-- device cycle from which the storage of the last flit popped is free (R174) -/
  popAt : Nat := 0
  deriving DecidableEq, Repr

/-- The memory unit, its windows, arrival counters, semaphores and queues (R150-R186). -/
structure MemUnit where
  slots : SMap Slot := []
  ag0 : AddrGen := {}
  ag1 : AddrGen := {}
  win : SMap Reg64 := []
  acnt : SMap ArrCtr := []
  sems : SMap Sem := []
  queues : SMap Queue := []
  ingress : List MuWrite := []
  marks : List ExtMark := []
  reads : List PRead := []
  bulk : Option Bulk := none
  bulkWait : List Bulk := []
  cb : List CbEntry := []
  /-- accumulate-writes that have arrived or are held, oldest first (R143) -/
  accq : List MuWrite := []
  /-- next identity of a write or a read -/
  nextId : Nat := 0
  /-- tile cycle (plus one) in which the write port, the read port was last given to a non-tab access or read -/
  wUsed : Nat := 0
  rUsed : Nat := 0
  /-- what writes of a cycle still in progress change at its end -/
  ends : List CycleEnd := []
  deriving DecidableEq, Repr

/-! ## Tile: fret -/

/-- A flit at a local terminal, with the input it came by, waiting for its delivery (R197, R205). -/
structure Term where
  inp : Nat
  flit : Flit
  due : Nat
  deriving DecidableEq, Repr

/-- A flit emitted on a string and not yet consumed at every terminal: tokens still to come and the cycle from which
the last of them counts; tokens released so far (R201). -/
structure Outst where
  ch : Nat
  num : Nat
  pending : Nat
  due : Nat
  got : Nat := 0
  deriving DecidableEq, Repr

/-- A packet: header flit, payload flits with poison, the epoch of its sideband (R209, R210); where it stands. -/
structure Packet where
  header : Unit512
  payload : List (Unit512 × Bool) := []
  epoch : BitVec 4 := 0
  ready : Nat := 0
  /-- payload flits delivered at the terminal so far -/
  done : Nat := 0
  /-- of a response: ISSUER of its MREAD, for whom it is (Table 7.10) -/
  by_ : Nat := 0
  deriving DecidableEq, Repr

/-- A flit of a packet on course 5 of a link or of the local port: the header as its packet was issued, its place (0 is the
header), data, poison, LAST, epoch, the issuer its packet's response is for, and the cycle it reaches the port it is listed
at (R209, R210). -/
structure PFlit where
  header : Unit512
  idx : Nat
  data : Unit512
  poison : Bool := false
  last : Bool
  epoch : BitVec 4
  by_ : Nat := 0
  ready : Nat
  deriving DecidableEq, Repr

/-- Where the flits of a packet go whose header has been handled at a port (R212, R213): a link output, this tile, off the
array or onto the tap after some cycles, nowhere. -/
inductive PktWay where
  | lost
  | link (d : Nat)
  | here
  | out (d : Nat) (extra : Nat)
  deriving DecidableEq, Repr

/-- An item in a retry buffer (R204). -/
inductive LinkItem where
  | str (f : Flit)
  | pkt (g : PFlit)
  deriving DecidableEq, Repr

/-- The fret of a tile (R187-R222). Inputs are numbered 8d + lane for link port d (lanes 0-4 vector courses, 5
packets, 6 scalar), 32 + c for output channel c of the tile, 40 for its scalar string. -/
structure Fret where
  /-- route entries by input number: Tables 7.5 and 7.6 -/
  route : SMap Reg64 := []
  /-- running offset of a window terminal, by input number (R193) -/
  offset : SMap Nat := []
  /-- buffers by input number, head first -/
  bufs : SMap (List Flit) := []
  /-- flits of packets by link port, course 5; 4: issued or answered at this fret -/
  pkts : SMap (List PFlit) := []
  /-- by port: where the packet whose header has passed goes, what of it the terminal or the edge has, the device cycle
  (plus one) in which its last flit left -/
  way : SMap PktWay := []
  asm : SMap Packet := []
  pktAt : SMap Nat := []
  /-- hop credits in use and hop credits on their way back, by 8d + lane -/
  used : SMap Nat := []
  credit : SMap (List Nat) := []
  /-- device cycle (plus one) in which the output last carried a flit: d vector, 4 + d scalar -/
  outAt : SMap Nat := []
  /-- device cycle before which the stall cycles of an output are counted: o vector, 5 + o scalar (R221) -/
  stallTo : SMap Nat := []
  /-- course last granted on link output d (plus one) -/
  rr : SMap Nat := []
  /-- the port (plus one) whose packet owns course 5 of link output d; device cycle from which a course-5 flit could have been
  eligible there (R199) -/
  c5Own : SMap Nat := []
  c5Since : SMap Nat := []
  /-- a course-5 flit has aged on link output d (R199) -/
  c5Aged : SMap Bool := []
  term : List Term := []
  /-- window remaining by channel, 8 scalar -/
  win : SMap Nat := []
  outst : List Outst := []
  /-- next flit number by channel -/
  num : SMap Nat := []
  epoch : BitVec 4 := 0
  failed : BitVec 4 := 0
  /-- retry buffers of what was sent, with numbers modulo 16, newest first; the cycle from which the last item is
  acknowledged; the cycle a retry request reaches the sender, with the delay it brings: by 2d, 2d + 1 on the scalar network
  (R204) -/
  sent : SMap (List (Nat × LinkItem)) := []
  ackAt : SMap Nat := []
  retryTo : SMap (Nat × Nat) := []
  /-- failed attempts of one item and the cycle its replay arrives, by 3 * port + network; retry requests of this tick, by
  port (R204, R205) -/
  attempts : SMap (Nat × Nat) := []
  tickRetries : SMap Nat := []
  hwm : BitVec 31 := 0
  /-- packets delivered at this terminal and waiting to act (R211) -/
  inbox : List Packet := []
  /-- STALE_EPOCH raised since the epoch last changed; device cycle of the last reset by a forced path (R265) -/
  staleRaised : Bool := false
  forcedAt : Option Nat := none
  /-- device cycle (plus one) in which a link port failed (R205) -/
  failAt : SMap Nat := []
  /-- refusals on their way back to this writer: reader x, y, queue, channel, due (R178, R202) -/
  refusals : List (Nat × Nat × Nat × Nat × Nat) := []
  deriving DecidableEq, Repr

/-- A tile with its fret (R17). -/
structure Tile where
  tab : TabUnit := {}
  ctr : SMap Nat := []
  arr : ArrayUnit := {}
  sp : SparseUnit := {}
  vshow : VBuf := {}
  vfire : VBuf := {}
  fly : List Flight := []
  mu : MemUnit := {}
  fret : Fret := {}
  ev : EvPort := {}
  /-- a physical tile of a loaded section (R17, R219) -/
  loaded : Bool := false
  /-- physical column and row the section was placed on, at its load (R189, R304) -/
  phys : Option (Nat × Nat) := none
  /-- tick reductions missed in a row, device cycle of the last answer (R306) -/
  missed : Nat := 0
  lastAnswer : Option Nat := none
  deriving DecidableEq, Repr

/-! ## Geometry and defect map -/

/-- The grades of Table 0.1. -/
inductive Grade where
  | a | b
  deriving DecidableEq, Repr

/-! ## Stacks and spines -/

/-- Who reads stack memory through a slice (Table 8.2): a host through a port, for a line at a host address and through a
window; a stack stream of the die, for a granule of its run; the stream engine of a partition, with the number of its read, for bytes of
a granule. -/
inductive Reader where
  | host (port : Nat) (hpa : Nat) (cached : Bool) (ofs : Nat)
  | stream (k : Nat) (idx : Nat)
  | engine (p : Nat) (no : Nat) (ofs : Nat) (len : Nat)
  deriving DecidableEq, Repr

/-- A DRAM read of a granule that a slice has issued, with its merge entry if it holds one (R238): the granule number
A / 256, the cycle it opened, whether a later read may still join, the reads joined, the granule's data as it stood when
served, the chunk poison, the earliest cycle of its return, whether it has returned. -/
structure DramRead where
  granule : Nat
  opened : Nat
  entry : Bool
  joinable : Bool
  joins : List Reader
  data : BitVec 2048
  poison : BitVec 4
  due : Nat
  returned : Bool := false
  deriving DecidableEq, Repr

/-- A stack stream of the running section (R233): its run in granules, destination window, start cycle, progress, and the
granules read and not yet sent. -/
structure StackStream where
  first : Nat
  count : Nat
  x : Nat
  y : Nat
  win : Nat
  ofs : Nat
  start : Nat
  started : Bool := false
  read : Nat := 0
  sent : Nat := 0
  /-- slots of the granule in hand that have been sent -/
  part : Nat := 0
  /-- granules that have come, with their number in the run -/
  ready : List (Nat × BitVec 2048 × BitVec 4) := []
  stopped : Bool := false
  deriving DecidableEq, Repr

/-- The spine of a die (R229-R246). -/
structure Spine where
  up0 : Bool := false
  up1 : Bool := false
  reads : SMap (List DramRead) := []
  /-- by slice: the cycle from which it can serve again, the cycle from which it can accept again (R229, R237) -/
  free : SMap Nat := []
  accept : SMap Nat := []
  streams : SMap StackStream := []
  /-- packets that this spine has issued for the Array engine's work on the die in hand (R232) -/
  asks : Nat := 0
  /-- counters of Table 8.6 by register offset -/
  ctr : SMap Nat := []
  /-- patrol scrub position of each slice, in granules -/
  scrub : SMap Nat := []
  ev : EvPort := {}
  deriving DecidableEq, Repr

/-- Stack memory of the device: bytes by device address, and the chunks (DA / 64) whose poison marker is stored. -/
structure Stacks where
  mem : List Host.Cell := []
  poison : SMap Bool := []
  /-- chunks corrected and written back once, for the repeat report of R242 -/
  corrected : SMap Bool := []
  deriving DecidableEq, Repr

/-! ## Power, clocks, heat -/

/-- States of a gate-tree node (R367). -/
inductive DomState where
  | off | stopped | run
  deriving DecidableEq, Repr

/-- A ramp of a node (R370): the power switch until a cycle, or the divider ramp of its clock root, upward or downward,
at a step 0-4 (/16, /8, /4, /2, /1) until a cycle; or waiting for one of the eight ramps. -/
inductive Ramp where
  | none
  | queued (up : Bool)
  | switch (due : Nat)
  | divider (up : Bool) (step : Nat) (due : Nat)
  deriving DecidableEq, Repr

/-- A power domain (Table 13.1): its node of the gate tree; power metered in the last tick, W. -/
structure Domain where
  st : DomState := .off
  ramp : Ramp := .none
  watts : Nat := 0
  deriving DecidableEq, Repr

/-- Quadrants by 4n + q: droop spans, thermal and droop levels (R371, R376). -/
structure Quads where
  spans : SMap (List (Nat × Nat)) := []
  kt : SMap Nat := []
  kd : SMap Nat := []
  /-- tripped by a junction sensor, device cycle of the trip (R385) -/
  tripped : SMap Nat := []
  /-- the last change of a thermal level between two ticks: its device cycle, and the level before it (R375) -/
  since : SMap (Nat × Nat) := []
  deriving DecidableEq, Repr

/-- Capo settings (Table 13.3): CAP and FLOOR in 10 W, RAMP in W/s, CPV in J/(L K); the effective CAP and FLOOR in
1/16000 W (R374). -/
structure Capo where
  cap : Nat := 3400
  ramp : Nat := 1000
  floor : Nat := 0
  ballast : Bool := true
  cpv : Nat := 0
  capE : Nat := 544000000
  floorE : Nat := 0
  deriving DecidableEq, Repr

/-- Device telemetry of the last tick, and the counters of Table 13.6 that cover the device, by register offset. -/
structure Tele where
  pin : Nat := 0
  shared : Nat := 0
  tin : Nat := 0
  tout : Nat := 0
  flow : Nat := 0
  pcool : Nat := 0
  tj : Nat := 0
  tjDom : Nat := 0
  /-- heat of the ticks of the last second and input of the same ticks, W, newest first -/
  heat : List (Nat × Nat) := []
  /-- energies in 1/2000 J: heat, input -/
  heatE : Nat := 0
  inE : Nat := 0
  /-- hottest sensor by domain, 0.01 degrees C -/
  temps : SMap Nat := []
  deriving DecidableEq, Repr

/-- Power delivery of the device. -/
structure Power where
  dom : SMap Domain := []
  quads : Quads := {}
  capo : Capo := {}
  tele : Tele := {}
  deriving DecidableEq, Repr

/-! ## Bridges -/

/-- A wire group of a bridge (R206, R207): the wire its spare now carries, wires marked bad and not yet steered, oldest first,
the wire whose copy is measured next. -/
structure WireState where
  steered : Option Nat := none
  bad : List Nat := []
  tune : Nat := 0
  deriving DecidableEq, Repr

/-! ## Command lists -/

/-- The options of a load (Table 16 of the command lists, R354). -/
structure LoadOpts where
  imgofs : Nat
  seed : Reg64
  ckpt : Bool
  force : Bool
  stats : Bool
  deriving DecidableEq, Repr

/-- The entry of a list that is current: whether it has started, its outcome once it has ended (status, DETAIL0, DETAIL1),
the flags of Table 12.19, its progress. -/
structure Entry where
  started : Bool := false
  ended : Option (Nat × Nat × Nat) := none
  stale : Bool := false
  poison : Bool := false
  section_ : Nat := 0
  /-- bytes or slots moved, poisoned chunks or slots among them, bytes gathered for the next slot and their poison -/
  moved : Nat := 0
  poisoned : Nat := 0
  buf : List Byte := []
  bufPoison : Bool := false
  /-- slots gathered for the next packet -/
  ready : List (Unit512 × Bool) := []
  /-- pieces read from stack memory for the bytes in hand, oldest first, each with its poison; the number of the read under way -/
  rbuf : List (List Byte × Bool) := []
  reading : Option Nat := none
  /-- what the code finds in the read step of partial writes that a command lets happen (R243) -/
  wecc : Ecc := .clean
  /-- byte of the entry that the slots in hand begin at, by OFFSET of their response (R215) -/
  place : Nat := 0
  /-- a CXL.cache request is outstanding, since this device cycle -/
  asked : Option Nat := none
  /-- its host address and its bytes -/
  reqAddr : Nat := 0
  reqLen : Nat := 0
  /-- slots given to packets, packets sent, device cycle of the last -/
  sent : Nat := 0
  packets : Nat := 0
  lastSent : Option Nat := none
  /-- COUNT of the CONFIRM counter before the first packet, device cycle of the last poll -/
  base : Option Nat := none
  polled : Nat := 0
  deriving DecidableEq, Repr

/-- A command list (R351-R353). -/
structure CmdList where
  tag : Nat
  cpl : Nat
  entries : List Unit512
  dep : Option (Nat × Nat)
  /-- the list it depends on completed with an entry status other than OK -/
  depFailed : Bool := false
  /-- restores of the partition when it was submitted (Table 12.19) -/
  seq : Nat := 0
  started : Bool := false
  index : Nat := 0
  failed : Bool := false
  stopped : Bool := false
  deriving DecidableEq, Repr

/-- A completion record with its interrupt vector (R358). -/
structure Completion where
  addr : Nat
  record : BitVec 256
  vec : Option Nat
  deriving DecidableEq, Repr

/-- The list queue of an engine for a partition (R351, R352, R361). -/
structure EngineQ where
  lists : List CmdList := []
  cur : Entry := {}
  /-- tags of completed lists and whether each completed OK, newest first -/
  kept : List (Nat × Bool) := []
  lastTag : BitVec 16 := 0
  lastErr : Bool := false
  /-- records held while the link is down (R364) -/
  held : List Completion := []
  deriving DecidableEq, Repr

/-- A channel of the check engine (R357): running value, bytes folded, bytes of a partial word. -/
structure Chan where
  armed : Bool := false
  alg : BitVec 2 := 0
  src : BitVec 3 := 0
  lo : Nat := 0
  hi : Nat := 0
  acc : Reg64 := 0
  bytes : Nat := 0
  part : List Byte := []
  deriving DecidableEq, Repr

/-! ## Partitions -/

/-- PSTATE (Table 9.14). -/
inductive PState where
  | idle | loading | running | draining | checkpointing | restoring | halted | faulted
  deriving DecidableEq, Repr

/-- Policies of a partition (Table 12.11). -/
structure Policies where
  limit : Nat := 22
  dlticks : Nat := 8
  poison : Bool := false
  maint : Bool := false
  maintms : Nat := 100
  hplim : Nat := 0
  deriving DecidableEq, Repr

/-- What a section switch is for: a LOAD entry, a FINISH entry, a RESTORE entry, a restore by Sage, a load of the replay
log (R259, R273, R274, R301, R354). -/
inductive SwitchKind where
  | load (o : LoadOpts)
  | finish (stats : Bool)
  | restore (auto : Bool)
  | replay (o : LoadOpts)
  deriving DecidableEq, Repr

/-- Where a section switch stands (R259-R274). -/
inductive SwitchPhase where
  /-- waits for the ENDED reduction -/
  | ended
  /-- the band has been seen ENDED; the drain may start -/
  | drain
  | settle (since : Nat)
  | spill
  | capture
  | image
  /-- self-tests run in a maintenance window, since a cycle (R314) -/
  | test (since : Nat)
  | release (at_ : Nat)
  /-- forced path: waits until no unit is in flight -/
  | inflight
  deriving DecidableEq, Repr

/-- A section switch in progress. -/
structure Switch where
  kind : SwitchKind
  phase : SwitchPhase
  deriving DecidableEq, Repr

/-- A section record (R280): section, epoch, release and END cycles, fires, idle cycles, slips by cause, tiles of R279 and
with SLIPOK clear, STALE and RESTORED, tokens of R264. -/
structure SectionRec where
  section_ : Nat
  epoch : Nat
  release : Nat
  endCycle : Nat
  fires : Nat
  idles : Nat
  slips : List Nat
  planBad : Nat
  slipBad : Nat
  stale : Bool
  restored : Bool
  tokens : Nat
  /-- deltas of the spine counters of the band's dies, by 256 * die + register offset (Table 8.6) -/
  spines : SMap Nat := []
  deriving DecidableEq, Repr

/-- The last step of Table 11.9 that a repair has taken (R307). -/
inductive RepairStep where
  | detected | halted | history | committed
  deriving DecidableEq, Repr

/-- A link within a die that has failed, whose two tiles are tested (R306, R312): the tile whose input failed, the tile at the
other end, and which of the two have passed. -/
structure LinkTest where
  x : Nat
  y : Nat
  x2 : Nat
  y2 : Nat
  ok : Bool := false
  ok2 : Bool := false
  deriving DecidableEq, Repr

/-- A faulty tile of a repair: die, physical column and row. -/
structure Repair where
  tiles : List (Nat × Nat × Nat)
  since : Nat
  step : RepairStep := .detected
  /-- a column has no spare left (R310) -/
  retire : Bool := false
  deriving DecidableEq, Repr

/-- A self-test ticket (R348): number, test, tile, state of Table 12.13, the requester is the operator (R314). -/
structure Ticket where
  num : Nat
  test : Nat
  tile : Option TileId
  state : Nat
  operator : Bool := false
  deriving DecidableEq, Repr

/-- A finished job (R391): duration in ticks, energy and ballast energy in J, throttle durations. -/
structure JobSum where
  ticks : Nat
  energy : Nat
  ballast : Nat
  thr : List Nat
  deriving DecidableEq, Repr

/-- A partition (R336) with its section state (Table 9.14), its switch, replay log, records, policies, capo state, tickets,
engines and check channels. -/
structure Partition where
  set_ : Bool := false
  lo : Nat := 0
  hi : Nat := 0
  port : Nat := 0
  st : PState := .idle
  epoch : BitVec 4 := 0
  section_ : BitVec 16 := 0
  stale : Bool := false
  tileio : Bool := false
  ckvalid : Bool := false
  ckseq : Reg64 := 0
  discards : BitVec 16 := 0
  replay : List LoadOpts := []
  replayLost : Bool := false
  /-- loads of the replay log still to issue after a restore -/
  replaying : List LoadOpts := []
  sw : Option Switch := none
  /-- load that waits behind an automatic restore -/
  behind : Option SwitchKind := none
  /-- the running section: options of its load, program, release cycle, cycle the band was first seen ENDED -/
  opts : Option LoadOpts := none
  program : BitVec 32 := 0
  released : Nat := 0
  endSeen : Option Nat := none
  restoredRun : Bool := false
  /-- device cycle in which the last halt wave entered the band -/
  wave : Option Nat := none
  /-- tile-bound issue is suspended (R260, R264) -/
  suspended : Bool := false
  /-- spine counters as they stood at the release, by 256 * die + register offset -/
  spineBase : SMap Nat := []
  /-- run of stalled ticks; the stream engine or Sage wrote tiles in this tick (R181) -/
  run : Nat := 0
  wrote : Bool := false
  dlNow : Nat := 8
  /-- stall records by 8192 * b + r; the halt wave of a SECTION_DEADLOCK is on its way and takes them (R182) -/
  stallMap : SMap (BitVec 256) := []
  mapping : Bool := false
  records : List SectionRec := []
  /-- section records and event records put into the diagnostic area so far, modulo 256 and 65,536 (R280, R322) -/
  recNo : Nat := 0
  ringNo : Nat := 0
  /-- PROGRAM and R_i at the last load while IDLE (R311) -/
  lastPlace : Option (BitVec 32 × List Nat) := none
  /-- automatic restores in this checkpoint interval, one pending (R300, R301) -/
  restores : Nat := 0
  autoPending : Bool := false
  /-- suspect tiles that a targeted test must pass before the restore, by number of the physical tile -/
  suspects : List Nat := []
  /-- failed links within a die whose tiles are under test (R306) -/
  links : List LinkTest := []
  /-- device cycle of the latest capture -/
  ckptAt : Nat := 0
  /-- restores completed -/
  restoreSeq : Nat := 0
  /-- halted by a stack or spine sensor, and not every sensor below 85 degrees C since (R384) -/
  hot : Bool := false
  repair : Option Repair := none
  policy : Policies := {}
  plock : Bool := false
  /-- lifetime totals of section counters, inexact counters (R319), by register offset -/
  totals : SMap Nat := []
  inexact : SMap Bool := []
  /-- newest records first, SEQ of the newest record that left the ring (R322) -/
  ring : List (BitVec 256) := []
  ringLost : Nat := 0
  overdue : Bool := false
  tickets : List Ticket := []
  nextTicket : Nat := 1
  /-- capo (R374-R380), powers in 1/16000 W -/
  kp : Nat := 16
  lv : Nat := 0
  u : Nat := 0
  f : Nat := 0
  reason : Nat := 0
  hostE : Option Nat := none
  gap : Bool := false
  bunits : Nat := 0
  kmin : Nat := 16
  pband : Nat := 0
  job : Bool := false
  /-- telemetry counters of Table 13.6 by register offset; energies in 1/2000 J -/
  tel : SMap Nat := []
  jobs : List JobSum := []
  /-- list queues: 0 Array engine, 1 stream engine, 2 check engine -/
  eng : SMap EngineQ := []
  chan : SMap Chan := []
  /-- reads of stack memory by the stream engine, numbered -/
  steNo : Nat := 0
  deriving DecidableEq, Repr

/-! ## Ports -/

/-- PORTSTATE (Table 12.5). -/
inductive PortState where
  | attached | detaching | detached
  deriving DecidableEq, Repr

/-- The structures of the CDAT (Table 12.2): the range of DSMAS from DPA 0, its size in bytes; DSEMTS marks it specific-purpose;
DSLBIS latencies in ns and bandwidths in MB/s. -/
structure Cdat where
  size : Nat
  specificPurpose : Bool
  readLatency : Nat
  writeLatency : Nat
  readBandwidth : Nat
  writeBandwidth : Nat
  deriving DecidableEq, Repr

/-- What a port sends to its host beside answers to reads: writes of host memory, MSI-X vectors, back-invalidate snoops,
answers to CXL.mem reads and to snoops. -/
inductive HostOut where
  /-- WOWrInvF of a whole line, or WOWrInv of part of one (R333) -/
  | write (addr : Nat) (bytes : List Byte) (whole : Bool)
  | vector (v : Nat)
  | biSnoop (line : Nat)
  | memData (hpa : Nat) (data : Unit512) (poison : Bool)
  | memDone (hpa : Nat)
  | snoopMiss (addr : Nat)
  | readReq (addr : Nat) (n : Nat)
  | cdat (c : Cdat)
  deriving DecidableEq, Repr

/-- A mailbox command that waits for release (R407): its order of issue, opcode, request, and the host memory that
SUBMIT_LIST reads. -/
structure HeldMail where
  order : Nat
  opcode : Nat
  cmd : MailCmd
  host : Option (List Unit512)
  deriving DecidableEq, Repr

/-- A DETACH in progress (R362): ABORT, the cycle its TIMEOUT expires, the mailbox command that waits for it, the port's
return to ATTACHED afterwards (R335). -/
structure Detach where
  abort : Bool
  deadline : Nat
  irq : Option Bool := none
  reattach : Bool := false
  /-- the band has been reset -/
  swept : Bool := false
  deriving DecidableEq, Repr

/-- A port (R326-R364). -/
structure Port where
  st : PortState := .detached
  up : Bool := false
  rate : Nat := 3
  x8 : Bool := false
  ide : Bool := false
  ideSet : Nat := 0
  /-- IDE key sets, as the four keys unwrapped (R350) -/
  keys : SMap (List Byte) := []
  /-- ML-KEM key pair of the last ATTEST: its number and the cycle it expires in (R349) -/
  ek : Option (Nat × Nat) := none
  hdmBase : Nat := 0
  hdmSize : Nat := 0
  committed : Bool := false
  notCommitted : Bool := false
  memActive : Bool := false
  /-- lines held by the host, by PA / 64, oldest first; lines with a back-invalidate snoop outstanding (R331) -/
  filter : List Nat := []
  snoops : List Nat := []
  /-- reads that wait for a place in the filter, oldest first, by host address (R331) -/
  heldReads : List Nat := []
  /-- SGM_CMD, SGM_STS, SGM_EVT (Tables 12.5-12.7) -/
  opcode : BitVec 16 := 0
  len : BitVec 13 := 0
  irq : Bool := false
  go : Bool := false
  status : BitVec 16 := 0
  rlen : BitVec 13 := 0
  dones : BitVec 32 := 0
  lastseq : BitVec 32 := 0
  /-- a record since the last MSI-X vector 1 -/
  evNew : Bool := false
  req : List Byte := []
  rsp : List Byte := []
  /-- a SUBMIT_LIST that a write of GO has started waits for its list to be read from host memory (R342, R352) -/
  reading : Bool := false
  /-- a command that waits for release, with its order of issue (R407) -/
  waiting : Option HeldMail := none
  detach : Option Detach := none
  downAt : Option Nat := none
  /-- registers without behaviour of their own, by offset (R13) -/
  regs : SMap Reg64 := []
  /-- mask bit of each MSI-X vector, 1 after reset as PCI Express has it, and the pending-bit array (R360) -/
  msixMask : BitVec 32 := 0xFFFFFFFF
  msixPend : BitVec 32 := 0
  /-- bytes the stream engine has read and written (Table 12.22) -/
  rd : Nat := 0
  wr : Nat := 0
  out : List HostOut := []
  deriving DecidableEq, Repr

/-! ## Sage, history, start-up -/

/-- An item of nonvolatile history (R320). -/
inductive HistItem where
  | record (r : BitVec 256)
  | corrected (word : Nat)
  | counters (life : SMap Nat)
  | summary (counts : SMap Nat)
  | partitions (ps : List PartDef)
  | policies (p : Nat) (q : Policies)
  | repair (die c p : Nat)
  | retirement (die c : Nat)
  | returned (r : DefectRec)
  deriving DecidableEq, Repr

/-- A copy of the field defect map in flash, with DMREV and CRC-32C (R320). -/
structure MapCopy where
  dmrev : BitVec 32 := 0
  recs : List DefectRec := []
  crc : BitVec 32 := 0
  deriving DecidableEq, Repr

/-- A syslog message (R325): MSGID, severity, the record whose fields it carries; of a summary the source and the occurrences
it stands for, with a record of zeros. -/
structure SyslogMsg where
  msgid : String
  severity : Nat
  record : BitVec 256
  source : Nat := 0
  count : Nat := 0
  deriving DecidableEq, Repr

/-- Sage's records and history (R296-R325). -/
structure Sage where
  ev : EvPort := {}
  nextSeq : BitVec 32 := 1
  log : List (BitVec 256) := []
  history : List HistItem := []
  /-- the two copies of the field defect map in flash (R320) -/
  mapA : MapCopy := {}
  mapB : MapCopy := {}
  life : SMap Nat := []
  dmrev : BitVec 32 := 0
  /-- records marked RETURNED, passes of marked units with the cycle of the last, units that failed after their return
  (R317) -/
  returned : List DefectRec := []
  passes : List (DefectRec × Nat × Nat) := []
  barred : List DefectRec := []
  hadReturned : List DefectRec := []
  /-- last CU BIST of a physical tile, by (die * 128 + c) * 66 + p; last hourly test of the spares, by die (R315) -/
  bist : SMap Nat := []
  /-- device cycle of the start-up self-test, which counts as a CU BIST of every tile (R405) -/
  bistAll : Nat := 0
  spareAt : SMap Nat := []
  /-- responders of the last tick reduction, by 128 * die + logical column (R220, R306) -/
  responders : SMap Nat := []
  /-- suspicion: residue events, parity events, upset slots, TILE_SUSPECT cycles, by the same tile number (R301) -/
  residueAt : SMap (List Nat) := []
  parityAt : SMap (List Nat) := []
  suspectAt : SMap (List Nat) := []
  upsetAt : SMap (List Nat) := []
  calibrated : Nat := 0
  /-- corrected stack errors of this hour, by 2 * die + stack; cycle of the last event that interrupted a job (R321) -/
  stackErr : SMap Nat := []
  lastStop : Option Nat := none
  written : Nat := 0
  /-- CORRECTED and DEFERRED records since the last hourly summary, by 64 * code + die -/
  counts : SMap Nat := []
  /-- CORRECTED records since the last minute's syslog summary, by code and number of the source -/
  minute : List (EvCode × Nat × Nat) := []
  /-- the syslog collector can be reached; messages held while it cannot, oldest first; messages discarded (R325) -/
  collector : Bool := true
  heldMsgs : List SyslogMsg := []
  discarded : Nat := 0
  /-- numbers of ML-KEM key pairs and of held mailbox commands given out -/
  keyPairs : Nat := 0
  mails : Nat := 0
  deriving DecidableEq, Repr

/-- LIFECYCLE and the other fields of the fuse array (Table 14.1); TRIM by domain. -/
structure Fuses where
  serial : Reg64 := 0
  lifecycle : BitVec 2 := 2
  ndefect : BitVec 11 := 0
  idseed : BitVec 256 := 0
  seedLocked : Bool := false
  pkhash : BitVec 256 := 0
  svnfuse : Reg64 := 0
  trim : SMap (BitVec 32) := []
  defect : List DefectRec := []
  deriving DecidableEq, Repr

/-- A copy of the boot record (Table 14.4). -/
structure BootRec where
  valid : Bool := false
  seq : BitVec 32 := 0
  active : Bool := false
  pending : Bool := false
  tries : Nat := 0
  deriving DecidableEq, Repr

/-- Boot state of the running image (Table 14.7). -/
inductive BootState where
  | normal | recovery | fallback
  deriving DecidableEq, Repr

/-- What the boot ROM latches at hand-over (R401). -/
structure Latch where
  fwhash : BitVec 256 := 0
  svn : Nat := 0
  version : Reg64 := 0
  slot : Bool := false
  trial : Bool := false
  boot : BootState := .normal
  fusehash : BitVec 256 := 0
  deriving DecidableEq, Repr

/-- Where the device stands in start-up (R403, R406, R407, R412, R435). -/
inductive BootPhase where
  | off | aux | romHold | recovery | waitMain | released | prepared
  deriving DecidableEq, Repr

/-- Start-up, firmware and identity (R394-R413). -/
structure Boot where
  phase : BootPhase := .off
  fuses : Fuses := {}
  rec0 : BootRec := {}
  rec1 : BootRec := {}
  slotA : List Byte := []
  slotB : List Byte := []
  cert : List Byte := []
  latch : Latch := {}
  /-- reason codes of the two slots at the last start-up -/
  reasonA : Nat := 0
  reasonB : Nat := 0
  /-- the fuse-backed event latch (R295), the record it holds not yet in history -/
  event : Option (BitVec 256) := none
  /-- recovery transfer: SIZE and the bytes received (R412) -/
  rcv : Option (Nat × List Byte) := none
  /-- uncorrectable fuse words that this start-up found (R396) -/
  fuseBad : List Nat := []
  lockAt : List Nat := []
  /-- die columns out of service (R310, R312, R396) -/
  dead : List Nat := []
  /-- die columns that failed fuse words take out of service (R396) -/
  fuseDead : List Nat := []
  /-- domains that fuses leave OFF -/
  offDoms : List Nat := []
  deriving DecidableEq, Repr

/-- What the management port sends (R314, R323-R325, R339, R406, R407, R409, R412): a Redfish request carried out, refused with
409 Conflict, refused with 503 before release, or refused for its content; the status of recovery, with the latched event and
the reason codes of the two slots, or of ROM hold, with the event alone; a record to EventService subscriptions, under its
MessageId; a syslog message; the result of an operator's test, by ticket. -/
inductive MgmtOut where
  | done
  | conflict
  | unavailable
  | rejected
  | status (event : Option (BitVec 256)) (reasons : Option (Nat × Nat))
  | event (messageId : String) (record : BitVec 256)
  | syslog (m : SyslogMsg)
  | result (part ticket : Nat) (pass : Bool)
  deriving DecidableEq, Repr

/-- A forced request of the operator (R339, R409, R412, R435). -/
inductive OperatorReq where
  | partitions (ps : List PartDef)
  | reset
  | removal
  deriving DecidableEq, Repr

/-- Module pins and front end (R416-R435). -/
structure Module where
  present : Bool := false
  auxOn : Bool := false
  mainOn : Bool := false
  epoHigh : Bool := true
  /-- EPO# opened the main path; a device reset is needed -/
  epoLatched : Bool := false
  flowOk : Bool := false
  flowLatched : Bool := false
  safe : Bool := false
  alert : Bool := false
  /-- main power requested by Sage at step 7 -/
  wantMain : Bool := false
  deriving DecidableEq, Repr

/-- A read that an issuer has outstanding (R214, R215): ISSUER, partition, the die whose spine issued it, TAG and SEQ, tile,
first slot, slots. -/
structure ReadOut where
  issuer : Nat
  part : Nat
  tap : Option Nat
  tag : Nat
  seq : Nat
  x : Nat
  y : Nat
  offset : Nat
  npay : Nat
  /-- device address that the slots of a spill or a checkpoint go to (R267, R270) -/
  dest : Nat := 0
  deriving DecidableEq, Repr

/-- Tiles of the array, by 1024 y + x of the logical coordinate (R7). -/
abbrev Tiles := SMap Tile

/-- The device. -/
structure State where
  grade : Grade := .a
  /-- the defect map: factory and field records (R303) -/
  defects : List DefectRec := []
  tiles : Tiles := []
  spines : SMap Spine := []
  stk : Stacks := {}
  power : Power := {}
  parts : SMap Partition := []
  ports : SMap Port := []
  wires : SMap WireState := []
  sage : Sage := {}
  boot : Boot := {}
  module_ : Module := {}
  /-- packets issued and not yet in the array, with the die of a column tap they enter at, or none for an edge fret
  (R209, R231) -/
  issued : List (Packet × Option Nat) := []
  /-- responses that have left the array, for their issuer (R212) -/
  resps : List Packet := []
  /-- reads whose response has not reached its issuer, oldest first -/
  asked : List ReadOut := []
  /-- an operator request that waits until every DETACH it forced has completed (R339, R409, R435) -/
  afterDetach : Option OperatorReq := none
  /-- answers of the management port, oldest first -/
  mgmt : List MgmtOut := []
  /-- next SEQ of packets, by the issuing party and TAG (R214) -/
  pktSeq : SMap Nat := []
  cycle : Nat := 0
  pending : List Instr := []
  deriving DecidableEq, Repr

/-- Why the machine stops with a fault. -/
inductive Fault where
  /-- A command names a tile outside the logical grid in force (R7, R305): raised by every command that takes a tile. Safe. -/
  | noSuchTile
  deriving DecidableEq, Repr

/-- Why a command is refused. -/
inductive Refusal where
  /-- No meaning has been given to the command yet; raised by an arm of the dispatch. Safe. -/
  | notModelled (mnemonic : String)
  deriving DecidableEq, Repr

/-- The partition of a new device (R336): index 0 over band 0-7 on port 0. -/
def newPartition : Partition := { set_ := true, lo := 0, hi := 7, port := 0 }

/-- The device right after reset: a new device without input power. -/
def State.reset : State := { parts := [(0, newPartition)] }

end Sys2Proof.Machine
end

