-- ==== Sys2Proof/Machine/Flags.lean ====
section
/-!
DEFINITION. Machine/Flags: event codes, raising an event at its source, the saturating counters of a tile.
-/
namespace Sys2Proof.Machine

/-- Code, class and origin of Table 11.5 (R298); where the table gives two, the first. -/
def evInfo : EvCode → Nat × EvClass × Origin
  | .tabMalformed => (0x001, .uncorrected, .program)
  | .tabParity => (0x002, .uncorrected, .hardware)
  | .counterSaturated => (0x003, .corrected, .program)
  | .stallTimeout => (0x004, .deferred, .program)
  | .sectionDeadlock => (0x005, .uncorrected, .program)
  | .tileFault => (0x006, .uncorrected, .hardware)
  | .tileSuspect => (0x007, .corrected, .hardware)
  | .arrayFormat => (0x010, .uncorrected, .program)
  | .arrayResidue => (0x011, .deferred, .hardware)
  | .vecPack => (0x012, .uncorrected, .program)
  | .vectorResidue => (0x013, .deferred, .hardware)
  | .sparseState => (0x014, .uncorrected, .program)
  | .groupOverflow => (0x015, .deferred, .program)
  | .indexBounds => (0x016, .deferred, .program)
  | .sparseResidue => (0x017, .deferred, .hardware)
  | .spadCorrected => (0x020, .corrected, .hardware)
  | .spadUncorrected => (0x021, .deferred, .hardware)
  | .muCmd => (0x022, .deferred, .host)
  | .windowViolation => (0x023, .uncorrected, .program)
  | .arrivalOverflow => (0x024, .uncorrected, .program)
  | .semOverflow => (0x025, .uncorrected, .program)
  | .semUnderflow => (0x026, .uncorrected, .program)
  | .msgLength => (0x027, .deferred, .program)
  | .lateWrite => (0x028, .deferred, .program)
  | .peerReset => (0x029, .uncorrected, .host)
  | .linkDegraded => (0x030, .corrected, .hardware)
  | .linkFail => (0x031, .uncorrected, .hardware)
  | .packetMalformed => (0x032, .deferred, .host)
  | .packetFenced => (0x033, .deferred, .host)
  | .packetMisroute => (0x034, .deferred, .host)
  | .routeMissing => (0x035, .deferred, .hardware)
  | .staleEpoch => (0x036, .corrected, .device)
  | .wireSteered => (0x037, .corrected, .hardware)
  | .stackCorrected => (0x040, .corrected, .hardware)
  | .stackUncorrected => (0x041, .deferred, .hardware)
  | .stackRange => (0x042, .deferred, .host)
  | .stackRepeat => (0x043, .corrected, .hardware)
  | .stackFail => (0x044, .uncorrected, .hardware)
  | .imageRefused => (0x050, .uncorrected, .program)
  | .imagePoison => (0x051, .uncorrected, .hardware)
  | .residualToken => (0x052, .uncorrected, .program)
  | .checkpointMismatch => (0x053, .deferred, .device)
  | .reportStale => (0x054, .corrected, .device)
  | .reportMismatch => (0x055, .uncorrected, .hardware)
  | .repairDone => (0x060, .corrected, .device)
  | .columnRetired => (0x061, .uncorrected, .device)
  | .diecolOut => (0x062, .uncorrected, .device)
  | .restoreLimit => (0x063, .uncorrected, .device)
  | .selftestFail => (0x064, .corrected, .hardware)
  | .selftestOverdue => (0x065, .corrected, .device)
  | .unitReturned => (0x066, .corrected, .device)
  | .placementChanged => (0x067, .corrected, .device)
  | .thermalTrip => (0x070, .uncorrected, .device)
  | .quadrantOff => (0x071, .uncorrected, .device)
  | .coolantLow => (0x072, .fatal, .device)
  | .supplyFault => (0x073, .fatal, .device)
  | .hostLinkDown => (0x080, .deferred, .host)
  | .completionTimeout => (0x081, .deferred, .device)
  | .fwRejected => (0x090, .fatal, .device)
  | .sageLockstep => (0x091, .fatal, .hardware)
  | .sageSramCorrected => (0x092, .corrected, .hardware)
  | .fuseError => (0x093, .fatal, .hardware)
  | .ringFail => (0x094, .fatal, .hardware)
  | .reportLost => (0x095, .corrected, .device)

/-- The code number of Table 11.5. -/
def evNum (c : EvCode) : Nat := (evInfo c).1

/-- Every code of Table 11.5. -/
def evCodes : List EvCode :=
  [.tabMalformed, .tabParity, .counterSaturated, .stallTimeout, .sectionDeadlock, .tileFault, .tileSuspect,
   .arrayFormat, .arrayResidue, .vecPack, .vectorResidue, .sparseState, .groupOverflow, .indexBounds, .sparseResidue,
   .spadCorrected, .spadUncorrected, .muCmd, .windowViolation, .arrivalOverflow, .semOverflow, .semUnderflow,
   .msgLength, .lateWrite, .peerReset, .linkDegraded, .linkFail, .packetMalformed, .packetFenced, .packetMisroute,
   .routeMissing, .staleEpoch, .wireSteered, .stackCorrected, .stackUncorrected, .stackRange, .stackRepeat,
   .stackFail, .imageRefused, .imagePoison, .residualToken, .checkpointMismatch, .reportStale, .reportMismatch,
   .repairDone, .columnRetired, .diecolOut, .restoreLimit, .selftestFail, .selftestOverdue, .unitReturned,
   .placementChanged, .thermalTrip, .quadrantOff, .coolantLow, .supplyFault, .hostLinkDown, .completionTimeout,
   .fwRejected, .sageLockstep, .sageSramCorrected, .fuseError, .ringFail, .reportLost]

/-- The name of a code (Table 11.5). -/
def evName (c : EvCode) : String :=
  match c with
  | .tabMalformed => "TAB_MALFORMED"
  | .tabParity => "TAB_PARITY"
  | .counterSaturated => "COUNTER_SATURATED"
  | .stallTimeout => "STALL_TIMEOUT"
  | .sectionDeadlock => "SECTION_DEADLOCK"
  | .tileFault => "TILE_FAULT"
  | .tileSuspect => "TILE_SUSPECT"
  | .arrayFormat => "ARRAY_FORMAT"
  | .arrayResidue => "ARRAY_RESIDUE"
  | .vecPack => "VEC_PACK"
  | .vectorResidue => "VECTOR_RESIDUE"
  | .sparseState => "SPARSE_STATE"
  | .groupOverflow => "GROUP_OVERFLOW"
  | .indexBounds => "INDEX_BOUNDS"
  | .sparseResidue => "SPARSE_RESIDUE"
  | .spadCorrected => "SPAD_CORRECTED"
  | .spadUncorrected => "SPAD_UNCORRECTED"
  | .muCmd => "MU_CMD"
  | .windowViolation => "WINDOW_VIOLATION"
  | .arrivalOverflow => "ARRIVAL_OVERFLOW"
  | .semOverflow => "SEM_OVERFLOW"
  | .semUnderflow => "SEM_UNDERFLOW"
  | .msgLength => "MSG_LENGTH"
  | .lateWrite => "LATE_WRITE"
  | .peerReset => "PEER_RESET"
  | .linkDegraded => "LINK_DEGRADED"
  | .linkFail => "LINK_FAIL"
  | .packetMalformed => "PACKET_MALFORMED"
  | .packetFenced => "PACKET_FENCED"
  | .packetMisroute => "PACKET_MISROUTE"
  | .routeMissing => "ROUTE_MISSING"
  | .staleEpoch => "STALE_EPOCH"
  | .wireSteered => "WIRE_STEERED"
  | .stackCorrected => "STACK_CORRECTED"
  | .stackUncorrected => "STACK_UNCORRECTED"
  | .stackRange => "STACK_RANGE"
  | .stackRepeat => "STACK_REPEAT"
  | .stackFail => "STACK_FAIL"
  | .imageRefused => "IMAGE_REFUSED"
  | .imagePoison => "IMAGE_POISON"
  | .residualToken => "RESIDUAL_TOKEN"
  | .checkpointMismatch => "CHECKPOINT_MISMATCH"
  | .reportStale => "REPORT_STALE"
  | .reportMismatch => "REPORT_MISMATCH"
  | .repairDone => "REPAIR_DONE"
  | .columnRetired => "COLUMN_RETIRED"
  | .diecolOut => "DIECOL_OUT"
  | .restoreLimit => "RESTORE_LIMIT"
  | .selftestFail => "SELFTEST_FAIL"
  | .selftestOverdue => "SELFTEST_OVERDUE"
  | .unitReturned => "UNIT_RETURNED"
  | .placementChanged => "PLACEMENT_CHANGED"
  | .thermalTrip => "THERMAL_TRIP"
  | .quadrantOff => "QUADRANT_OFF"
  | .coolantLow => "COOLANT_LOW"
  | .supplyFault => "SUPPLY_FAULT"
  | .hostLinkDown => "HOST_LINK_DOWN"
  | .completionTimeout => "COMPLETION_TIMEOUT"
  | .fwRejected => "FW_REJECTED"
  | .sageLockstep => "SAGE_LOCKSTEP"
  | .sageSramCorrected => "SAGE_SRAM_CORRECTED"
  | .fuseError => "FUSE_ERROR"
  | .ringFail => "RING_FAIL"
  | .reportLost => "REPORT_LOST"

/-- CLASS of Table 11.1. -/
def classNum : EvClass → Nat
  | .corrected => 0 | .deferred => 1 | .uncorrected => 2 | .fatal => 3

/-- ORIGIN of Table 11.2. -/
def originNum : Origin → Nat
  | .hardware => 0 | .program => 1 | .host => 2 | .device => 3

/-- An event with the class and origin of Table 11.5, raised in a device cycle. -/
def mkEv (c : EvCode) (sub detail cycle : Nat) : Ev :=
  { code := c, cls := (evInfo c).2.1, org := (evInfo c).2.2, sub := sub, detail := detail, cycle := cycle }

/-- Device cycles of a management tick (R3). -/
abbrev tickCycles : Nat := 900000

/-- Sources that share the slots of a tile, or Sage's (R297): the fret of a tile raises the counters from 0x370 on and the upset of
its own buffers (SUB from 0x20 on); the stream engine of a partition raises COMPLETION_TIMEOUT. -/
def evSource (e : Ev) : Nat :=
  match e.code with
  | .counterSaturated => b2n (decide (0x370 ≤ e.detail ∧ e.detail < 0x460))
  | .spadUncorrected => b2n (decide (0x20 ≤ e.sub))
  | .completionTimeout => e.part.getD 0
  | _ => 0

/-- A source raises an event (R297): UNCORRECTED and FATAL records are never lost; a CORRECTED or DEFERRED one is
coalesced when its code was raised in this tick or the four slots are full. -/
def raisePort (p : EvPort) (e : Ev) : EvPort :=
  let n := evNum e.code + 1024 * evSource e
  match e.cls with
  | .uncorrected | .fatal =>
    { p with q := p.q ++ [{ e with supp := mget 0 p.supp n }], supp := mset 0 p.supp n 0 }
  | .corrected | .deferred =>
    if mget 0 p.last n = e.cycle / tickCycles + 1 ∨
        (p.q.filter fun x => decide (x.cls = .corrected ∨ x.cls = .deferred)).length ≥ 4 then
      { p with supp := mset 0 p.supp n (min (mget 0 p.supp n + 1) 0xFFFF) }
    else
      { q := p.q ++ [{ e with supp := mget 0 p.supp n }], last := mset 0 p.last n (e.cycle / tickCycles + 1)
        supp := mset 0 p.supp n 0 }

/-- A tile raises an event. -/
def tileRaise (t : Tile) (e : Ev) : Tile := { t with ev := raisePort t.ev e }

/-- Offset of a tile counter in the register set (Tables 1.8, 2.10, 3.11, 4.5, 5.8, 6.14, 7.14). -/
def ctrOffset : TileCtr → Nat
  | .fire => 0x18 | .idle => 0x20 | .slipTotal => 0x28 | .slip c => 0x28 + 8 * c | .arrayOn => 0x68 | .sparseOn => 0x70
  | .arrIssue => 0xB0 | .arrResidue => 0xB8 | .arrIntsat => 0xC0 | .cvtSat => 0xC8 | .cvtNan => 0xD0
  | .vecOps => 0xF0 | .vecResidue => 0xF8 | .vecElem => 0x100 | .vecZero => 0x108 | .vecZ24 => 0x110
  | .zgate => 0x118 | .cmpPrune => 0x120
  | .spIssue => 0x138 | .spPairs => 0x140 | .spPad => 0x148 | .spFallback => 0x150 | .spFbcyc => 0x158
  | .spZgate => 0x168 | .spResidue => 0x170 | .spBounds => 0x178 | .spGrovf => 0x180 | .spFixsat => 0x188
  | .spIntsat => 0x190
  | .cbWrites => 0x198 | .cbMerges => 0x1A0 | .cbDrains => 0x1A8
  | .qIn k => 0x308 + 8 * k | .qLate => 0x348 | .winViol => 0x350 | .muExtw => 0x358
  | .vOut p => 0x378 + 8 * p | .vStall p => 0x3A0 + 8 * p | .sOut p => 0x3C8 + 8 * p | .sStall p => 0x3F0 + 8 * p
  | .retry p => 0x418 + 8 * p | .stale => 0x448 | .discard => 0x450 | .late => 0x458

/-- All-ones of a 48-bit counter, at which it holds with SAT set (R36). -/
abbrev ctrMax : Nat := 0xFFFFFFFFFFFF

/-- The count of a tile counter. -/
def ctrVal (t : Tile) (c : TileCtr) : Nat := mget 0 t.ctr (ctrOffset c)

/-- A counter of a tile advances by n in a device cycle: it holds at all-ones, and reaching it raises one
COUNTER_SATURATED whose DETAIL is the register offset (R36, R318). -/
def bump (core : Nat) (c : TileCtr) (n : Nat) (t : Tile) : Tile :=
  let old := ctrVal t c
  let new := min (old + n) ctrMax
  let t := { t with ctr := mset 0 t.ctr (ctrOffset c) new }
  if old < ctrMax ∧ new = ctrMax then tileRaise t (mkEv .counterSaturated 0 (ctrOffset c) core) else t

/-- A counter register in the format of Table 1.10: COUNT in [47:0], SAT in [63]. -/
def ctrReg (v : Nat) : Nat := v + (b2n (decide (v = ctrMax))) <<< 63

end Sys2Proof.Machine
end

