-- ==== Sys2Proof/Machine/Num.lean ====
section
/-!
DEFINITION. Machine/Num: the number formats of Tables 3.1 to 3.3, exact values, rounding, converts and the column arithmetic.
-/
namespace Sys2Proof.Machine

/-! ## Formats (R75-R81) -/

/-- The format codes of Table 3.1. -/
abbrev fBinary32 : Nat := 1
abbrev fBinary16 : Nat := 2
abbrev fBfloat16 : Nat := 3
abbrev fE4M3 : Nat := 4
abbrev fE5M2 : Nat := 5
abbrev fE3M2 : Nat := 6
abbrev fE2M3 : Nat := 7
abbrev fE2M1 : Nat := 8
abbrev fInt4 : Nat := 9
abbrev fInt8 : Nat := 10
abbrev fInt16 : Nat := 11
abbrev fInt32 : Nat := 12
abbrev fE8M0 : Nat := 13

/-- Element bits of a format, Table 3.1. -/
def fmtBits (f : Nat) : Nat :=
  nth [0, 32, 16, 16, 8, 8, 6, 6, 4, 4, 8, 16, 32, 8] f 0

/-- A floating-point format of Table 3.2. -/
def isFloat (f : Nat) : Bool := decide (1 ≤ f) && decide (f ≤ 8)

/-- A two's-complement format (R80). -/
def isInt (f : Nat) : Bool := decide (9 ≤ f) && decide (f ≤ 12)

/-- The formats that share E8M0 block scales (R81). -/
def isBlockScaled (f : Nat) : Bool := decide (4 ≤ f) && decide (f ≤ 8)

/-- Fraction bits M of Table 3.2. -/
def manBits (f : Nat) : Nat := nth [0, 23, 10, 7, 3, 2, 2, 3, 1] f 0

/-- Exponent bits of Table 3.2. -/
def expBits (f : Nat) : Nat := nth [0, 8, 5, 8, 4, 5, 3, 2, 2] f 0

/-- Bias of Table 3.2. -/
def fmtBias (f : Nat) : Nat := nth [0, 127, 15, 127, 7, 15, 3, 1, 1] f 0

/-- Exponent emax of the largest finite value, Table 3.2. -/
def fmtEmax (f : Nat) : Int := nth [0, 127, 15, 127, 8, 15, 4, 2, 2] f 0

/-- Least normal exponent emin, Table 3.2. -/
def fmtEmin (f : Nat) : Int := 1 - (fmtBias f : Int)

/-- Code of the largest finite magnitude, Table 3.2. -/
def maxFiniteCode (f : Nat) : Nat := nth [0, 0x7F7FFFFF, 0x7BFF, 0x7F7F, 0x7E, 0x7B, 0x1F, 0x1F, 0x7] f 0

/-- Canonical NaN of Table 3.3; the formats without one give 0. -/
def canonNan (f : Nat) : Nat := nth [0, 0x7FC00000, 0x7E00, 0x7FC0, 0x7F, 0x7E] f 0

/-- The format has infinities (Table 3.3). -/
def hasInf (f : Nat) : Bool := decide (f = 1 ∨ f = 2 ∨ f = 3 ∨ f = 5)

/-- Code of an infinity, without sign (Table 3.3). -/
def infCode (f : Nat) : Nat := (2 ^ expBits f - 1) <<< manBits f

/-- The value of a floating-point code (R77, R78); the significand keeps the hidden bit and e is its weight exponent. -/
def decodeFloat (f c : Nat) : Val :=
  let mb := manBits f
  let s := bit c (fmtBits f - 1)
  let ex := fld c mb (expBits f)
  let fr := fld c 0 mb
  let top := 2 ^ expBits f - 1
  if hasInf f ∧ ex = top then (if fr = 0 then .inf s else .nan)
  else if f = fE4M3 ∧ ex = top ∧ fr = 7 then .nan
  else if ex = 0 then .fin s fr (fmtEmin f - (mb : Int))
  else .fin s (2 ^ mb + fr) ((ex : Int) - (fmtBias f : Int) - (mb : Int))

/-- The magnitude of the operand integer of a code (R64): the integer itself, or the significand with its hidden bit,
which an infinity and a NaN have too (DEDUCED, log 40). -/
def elemMag (f c : Nat) : Nat :=
  if isInt f then (sext (fld c 0 (fmtBits f)) (fmtBits f)).natAbs
  else if fld c (manBits f) (expBits f) = 0 then fld c 0 (manBits f)
  else 2 ^ manBits f + fld c 0 (manBits f)

/-- The value of a code of any element format (R77-R80). -/
def decodeElem (f c : Nat) : Val :=
  if isInt f then
    let v := sext (fld c 0 (fmtBits f)) (fmtBits f)
    .fin (decide (v < 0)) v.natAbs 0
  else decodeFloat f c

/-- Floor of log2 of a positive number. -/
def log2 (m : Nat) : Nat := Nat.log2 m

/-- Rounding modes of Table 3.4: RNE, RTZ, or stochastic with its 24-bit random integer. -/
inductive Rnd where
  | rne | rtz | sr (r : Nat)
  deriving DecidableEq, Repr

/-- t = m * 2^s rounded to an integer (R87, R88). -/
def roundShift (rnd : Rnd) (m : Nat) (s : Int) : Nat :=
  if 0 ≤ s then m <<< s.toNat
  else
    let k := (-s).toNat
    let i := m >>> k
    let r := m % 2 ^ k
    match rnd with
    | .rtz => i
    | .rne => if 2 * r > 2 ^ k ∨ (2 * r = 2 ^ k ∧ i % 2 = 1) then i + 1 else i
    | .sr rr => if (r <<< 24) / 2 ^ k + rr ≥ 2 ^ 24 then i + 1 else i

/-- The quantum exponent of a floating-point format at a non-zero m * 2^e (R87). -/
def quantumExp (f : Nat) (m : Nat) (e : Int) : Int :=
  max ((log2 m : Int) + e) (fmtEmin f) - (manBits f : Int)

/-- Code, without sign, of the value i * 2^u whose quantum is 2^u, when it is finite in the format (R77). -/
def encodeMag (f i : Nat) (u : Int) : Nat :=
  let mb := manBits f
  if i < 2 ^ mb then i
  else
    let (i, u) := if i = 2 ^ (mb + 1) then (2 ^ mb, u + 1) else (i, u)
    ((u + (mb : Int) + (fmtBias f : Int)).toNat <<< mb) + (i - 2 ^ mb)

/-- The magnitude i * 2^u exceeds the largest finite value of the format. -/
def overflows (f i : Nat) (u : Int) : Bool :=
  match decodeFloat f (maxFiniteCode f) with
  | .fin _ mm me => if u ≥ me then decide (i <<< (u - me).toNat > mm) else decide (i > mm <<< (me - u).toNat)
  | _ => false

/-- A sign and a magnitude code together. -/
def withSign (f : Nat) (neg : Bool) (c : Nat) : Nat := c + (b2n neg) <<< (fmtBits f - 1)

/-- What rounding a value to a format gives: the code, and whether it was saturated or lost a NaN (R85, R86). -/
structure Conv where
  code : Nat
  sat : Bool := false
  nan : Bool := false
  deriving DecidableEq, Repr

/-- Converts a value to a floating-point format (R84, R85, Table 3.5); ovf is the OVF bit. -/
def convFloat (f : Nat) (ovf : Bool) (rnd : Rnd) : Val → Conv
  | .nan => if canonNan f = 0 then { code := 0, nan := true } else { code := canonNan f }
  | .inf s =>
    if hasInf f then { code := withSign f s (infCode f) }
    else if f = fE4M3 ∧ ovf then { code := canonNan f }
    else { code := withSign f s (maxFiniteCode f), sat := true }
  | .fin s m e =>
    if m = 0 then { code := withSign f s 0 }
    else
      let u := quantumExp f m e
      let i := roundShift rnd m (e - u)
      if overflows f i u then
        if ovf ∧ rnd ≠ .rtz ∧ hasInf f then { code := withSign f s (infCode f) }
        else if ovf ∧ rnd ≠ .rtz ∧ f = fE4M3 then { code := canonNan f }
        else { code := withSign f s (maxFiniteCode f), sat := true }
      else { code := withSign f s (encodeMag f i u) }

/-- Converts a value to a two's-complement format (R85, R87). -/
def convInt (f : Nat) (rnd : Rnd) : Val → Conv
  | .nan => { code := 0, nan := true }
  | .inf s => { code := if s then 2 ^ (fmtBits f - 1) else 2 ^ (fmtBits f - 1) - 1, sat := true }
  | .fin s m e =>
    let i := if m = 0 then 0 else roundShift rnd m e
    let b := fmtBits f
    if s then (if i > 2 ^ (b - 1) then { code := 2 ^ (b - 1), sat := true } else { code := toTwos (-(i : Int)) b })
    else if i > 2 ^ (b - 1) - 1 then { code := 2 ^ (b - 1) - 1, sat := true } else { code := i }

/-- Converts a value to any element format. -/
def convElem (f : Nat) (ovf : Bool) (rnd : Rnd) (v : Val) : Conv :=
  if isInt f then convInt f rnd v else convFloat f ovf rnd v

/-- An arithmetic result rounded once to a floating-point format, round to nearest even, overflow to infinity (R102). -/
def roundTo (f : Nat) (v : Val) : Nat := (convFloat f true .rne v).code

/-- rne32 of R64. -/
def rne32 (v : Val) : Nat := roundTo fBinary32 v

/-! ## Exact arithmetic -/

/-- A signed integer times a power of two as a value; an exact zero is +0. -/
def ofInt (s : Int) (e : Int) : Val := .fin (decide (s < 0)) s.natAbs e

/-- Exact sum (IEEE 754: opposite infinities give NaN, a zero sum of unlike signs is +0). -/
def vAdd : Val → Val → Val
  | .nan, _ => .nan
  | _, .nan => .nan
  | .inf a, .inf b => if a = b then .inf a else .nan
  | .inf a, .fin _ _ _ => .inf a
  | .fin _ _ _, .inf b => .inf b
  | .fin sa ma ea, .fin sb mb eb =>
    if ma = 0 ∧ mb = 0 then .fin (sa && sb) 0 0
    else
      let e := min ea eb
      let x : Int := (ma : Int) * 2 ^ (ea - e).toNat
      let y : Int := (mb : Int) * 2 ^ (eb - e).toNat
      ofInt ((if sa then -x else x) + (if sb then -y else y)) e

/-- Negation; a NaN stays a NaN. -/
def vNeg : Val → Val
  | .nan => .nan
  | .inf a => .inf (!a)
  | .fin s m e => .fin (!s) m e

/-- Absolute value. -/
def vAbs : Val → Val
  | .nan => .nan
  | .inf _ => .inf false
  | .fin _ m e => .fin false m e

/-- Exact product. -/
def vMul : Val → Val → Val
  | .nan, _ => .nan
  | _, .nan => .nan
  | .inf a, .inf b => .inf (a != b)
  | .inf a, .fin s m _ => if m = 0 then .nan else .inf (a != s)
  | .fin s m _, .inf b => if m = 0 then .nan else .inf (s != b)
  | .fin sa ma ea, .fin sb mb eb => .fin (sa != sb) (ma * mb) (ea + eb)

/-- A value scaled by a power of two. -/
def vScale (v : Val) (k : Int) : Val :=
  match v with
  | .fin s m e => .fin s m (e + k)
  | w => w

/-- The value is a zero (R78). -/
def vIsZero : Val → Bool
  | .fin _ m _ => decide (m = 0)
  | _ => false

/-- The value is a NaN. -/
def vIsNan : Val → Bool
  | .nan => true
  | _ => false

/-- a < b, false when either is a NaN; both zeros are equal. -/
def vLt : Val → Val → Bool
  | .nan, _ => false
  | _, .nan => false
  | .inf a, .inf b => a && !b
  | .inf a, .fin _ _ _ => a
  | .fin _ _ _, .inf b => !b
  | .fin sa ma ea, .fin sb mb eb =>
    let e := min ea eb
    let x : Int := (ma : Int) * 2 ^ (ea - e).toNat
    let y : Int := (mb : Int) * 2 ^ (eb - e).toNat
    decide ((if sa then -x else x) < (if sb then -y else y))

/-- a = b as numbers, false when either is a NaN. -/
def vEq (a b : Val) : Bool := !vIsNan a && !vIsNan b && !vLt a b && !vLt b a

/-- The sign of a value. -/
def vSign : Val → Bool
  | .nan => false
  | .inf s => s
  | .fin s _ _ => s

/-- Minimum of R102: NaN when either is a NaN, and -0 below +0. -/
def vMin (a b : Val) : Val :=
  if vIsNan a ∨ vIsNan b then .nan else if vLt b a then b else if vLt a b then a else if vSign b then b else a

/-- Maximum of R102. -/
def vMax (a b : Val) : Val :=
  if vIsNan a ∨ vIsNan b then .nan else if vLt a b then b else if vLt b a then a else if vSign b then a else b

/-! ## Functions of R102, correctly rounded -/

/-- Integer square root by bits, from bit k downward. -/
def isqrtFrom (n : Nat) : Nat → Nat → Nat
  | 0, r => r
  | k + 1, r => let r' := r + 2 ^ k; isqrtFrom n k (if r' * r' ≤ n then r' else r)

/-- Integer square root. -/
def isqrt (n : Nat) : Nat := isqrtFrom n (log2 n / 2 + 1) 0

/-- 1 / v with 128 quotient bits and a sticky bit below them, which rounds as the exact quotient does. -/
def vRcp : Val → Val
  | .nan => .nan
  | .inf s => .fin s 0 0
  | .fin s m e =>
    if m = 0 then .inf s
    else
      let k := log2 m + 64
      let q := 2 ^ k / m
      .fin s (2 * q + b2n (decide (2 ^ k % m ≠ 0))) (-e - (k : Int) - 1)

/-- 1 / sqrt v, with a sticky bit below at least 60 result bits. -/
def vRsqrt : Val → Val
  | .nan => .nan
  | .inf s => if s then .nan else .fin false 0 0
  | .fin s m e =>
    if m = 0 then .inf s
    else if s then .nan
    else
      let (m, e) := if e % 2 = 0 then (m, e) else (2 * m, e - 1)
      -- 1 / sqrt (m * 2^e) = sqrt (2^(2k) / m) * 2^(-k - e/2)
      let k := log2 m + 64
      let q := 2 ^ (2 * k) / m
      let r := isqrt q
      let exact := decide (r * r * m = 2 ^ (2 * k))
      .fin false (2 * r + b2n (!exact)) (-(k : Int) - e / 2 - 1)

/-- Product over the bits of a fraction, highest first, of 2^(2^-i) in fixed point with p bits. -/
def exp2Frac (p : Nat) (fr : Nat) : Nat → Nat → Nat → Nat
  | 0, _, acc => acc
  | k + 1, root, acc =>
    -- root is 2^(2^-i) in p bits; bit k of fr stands for 2^-i
    exp2Frac p fr k (isqrt (root <<< p)) (if bit fr k then (acc * root) >>> p else acc)

/-- 2^v; for a non-integer v the value is computed to 256 bits with a sticky bit set, since 2^v is then irrational. -/
def vExp2 : Val → Val
  | .nan => .nan
  | .inf s => if s then .fin false 0 0 else .inf false
  | .fin s m e =>
    if m = 0 then .fin false 1 0
    else if (log2 m : Int) + e ≥ 10 then (if s then .fin false 1 (-400) else .fin false 1 400)
    else if (log2 m : Int) + e < -40 then
      -- |v| below 2^-40: 1 plus or minus an amount far below half a unit in the last place
      if s then .fin false (2 ^ 60 - 1) (-60) else .fin false (2 ^ 60 + 1) (-60)
    else
      -- v as a multiple of 2^-70, which every binary32 value of this range is
      let x : Int := if e ≥ -70 then (m : Int) * 2 ^ (e + 70).toNat else (m : Int) / 2 ^ (-e - 70).toNat
      let x := if s then -x else x
      let n := x / 2 ^ 70
      let fr := (x % 2 ^ 70).toNat
      if fr = 0 then .fin false 1 n
      else
        let p := 256
        let r := exp2Frac p fr 70 (isqrt (2 <<< (2 * p))) (2 ^ p)
        .fin false (2 * r + 1) (n - (p : Int) - 1)

/-- Fraction bits of log2 of x in [1, 2) by repeated squaring, p bits of fixed point, k bits of result. -/
def log2Frac (p : Nat) : Nat → Nat → Nat → Nat
  | 0, _, acc => acc
  | k + 1, x, acc =>
    let y := (x * x) >>> p
    if y ≥ 2 ^ (p + 1) then log2Frac p k (y >>> 1) (2 * acc + 1) else log2Frac p k y (2 * acc)

/-- log2 v; for a v that is no power of two the value is computed to 128 fraction bits with a sticky bit set. -/
def vLog2 : Val → Val
  | .nan => .nan
  | .inf s => if s then .nan else .inf false
  | .fin s m e =>
    if m = 0 then .inf true
    else if s then .nan
    else
      let l := log2 m
      let n : Int := (l : Int) + e
      if m = 2 ^ l then ofInt n 0
      else
        let p := 512
        let fr := log2Frac p 128 (m <<< (p - l)) 0
        ofInt (2 * (n * 2 ^ 128 + (fr : Int)) + 1) (-129)

/-! ## Element-wise operations of the vector pipeline (R102) -/

/-- Saturates an integer to b bits. -/
def satInt (v : Int) (b : Nat) : Int := max (-(2 : Int) ^ (b - 1)) (min v ((2 : Int) ^ (b - 1) - 1))

/-- An integer operation of R102 on two codes, saturated to the format. -/
def intOp (f : Nat) (op : Int → Int → Int) (a b : Nat) : Nat :=
  toTwos (satInt (op (sext a (fmtBits f)) (sext b (fmtBits f))) (fmtBits f)) (fmtBits f)

/-- A floating-point operation of R102 on two codes, rounded once. -/
def floatOp (f : Nat) (op : Val → Val → Val) (a b : Nat) : Nat := roundTo f (op (decodeFloat f a) (decodeFloat f b))

/-- All ones of the element width. -/
def onesOf (f : Nat) : Nat := 2 ^ fmtBits f - 1

/-! ## Column arithmetic (R64-R67) -/

/-- The piece of a split operand that a pass multiplies (Table 2.7); whole for single-pass formats. -/
inductive Piece where
  | whole | h16 | l16 | p2 | p1 | p0
  deriving DecidableEq, Repr

/-- Cuts an operand into a piece: its magnitude and weight exponent (Table 2.7). -/
def cutPiece (p : Piece) (m : Nat) (w : Int) : Nat × Int :=
  match p with
  | .whole => (m, w)
  | .h16 => (m >>> 3, w + 3)
  | .l16 => (m % 8, w)
  | .p2 => (m >>> 16, w + 16)
  | .p1 => (fld m 8 8, w + 8)
  | .p0 => (m % 256, w)

/-- One product slot of a column: special values of the whole operands (R65), else sign, magnitude, weight exponent. -/
inductive Prod where
  | nan
  | inf (neg : Bool)
  | fin (neg : Bool) (mag : Nat) (x : Int)
  deriving DecidableEq, Repr

/-- The product of two operands through the given pieces (R64, R65, R67). DESIGN CHOICE: infinity times infinity is an infinity
with the product's sign; R65 states an infinity with a zero, with a finite value and with a NaN
(notes/assumptions/134). -/
def mkProd (pa pb : Piece) (a b : Val) : Prod :=
  match a, b with
  | .nan, _ => .nan
  | _, .nan => .nan
  | .inf s, .inf t => .inf (s != t)
  | .inf s, .fin t m _ => if m = 0 then .nan else .inf (s != t)
  | .fin s m _, .inf t => if m = 0 then .nan else .inf (s != t)
  | .fin s m w, .fin t n v =>
    let (ma, wa) := cutPiece pa m w
    let (mb, wb) := cutPiece pb n v
    .fin (s != t) (ma * mb) (wa + wb)

/-- The product of two codes through the given pieces has mag = 0 under R64, so its multiplier is gated (R113). -/
def gatedPair (pa pb : Piece) (f a b : Nat) : Bool :=
  decide ((cutPiece pa (elemMag f a) 0).1 * (cutPiece pb (elemMag f b) 0).1 = 0)

/-- Largest weight exponent of the non-zero products. -/
def bigExp : List Prod → Option Int
  | [] => none
  | .fin _ m x :: rest =>
    if m = 0 then bigExp rest
    else match bigExp rest with
      | none => some x
      | some y => some (max x y)
  | _ :: rest => bigExp rest

/-- The exact integer sum of the aligned products (R64): magnitudes truncated below 2^f. -/
def alignedSum (f : Int) : List Prod → Int
  | [] => 0
  | .fin s m x :: rest =>
    let q : Nat := if x ≥ f then m <<< (x - f).toNat else m >>> (f - x).toNat
    (if s then -(q : Int) else (q : Int)) + alignedSum f rest
  | _ :: rest => alignedSum f rest

/-- A column value (R64, R65); the scale is the sum of both scale exponents, or none for a NaN scale. -/
def columnValue (scale : Option Int) (ps : List Prod) : Val :=
  if ps.any (fun p => decide (p = .nan)) ∨ scale = none then .nan
  else if ps.any (fun p => decide (p = .inf false)) ∧ ps.any (fun p => decide (p = .inf true)) then .nan
  else if ps.any (fun p => decide (p = .inf false)) then .inf false
  else if ps.any (fun p => decide (p = .inf true)) then .inf true
  else match bigExp ps with
    | none => .fin false 0 0
    | some big =>
      let f := big - 3
      ofInt (alignedSum f ps) (f + scale.getD 0)

/-- E8M0 scales of both operands as one exponent (R64, R81); a code 0xFF gives none. -/
def scaleExp (sa sb : BitVec 8) : Option Int :=
  if sa = 0xFF ∨ sb = 0xFF then none else some ((sa.toNat : Int) - 127 + ((sb.toNat : Int) - 127))

/-- A column value added into an accumulator lane (R64, R66): the new 32 bits and whether an INT32 sum saturated. -/
def accAdd (int z : Bool) (old : Nat) (v : Val) : Nat × Bool :=
  if int then
    let s : Int := match v with
      | .fin n m e => let i : Int := (m : Int) * 2 ^ e.toNat / 2 ^ (-e).toNat; if n then -i else i
      | _ => 0
    let t := if z then s else sext old 32 + s
    (toTwos (satInt t 32) 32, decide (satInt t 32 ≠ t))
  else (rne32 (if z then v else vAdd (decodeFloat fBinary32 old) v), false)

/-! ## Stochastic rounding (R89, R108) -/

/-- mix of R89. -/
def mix (z : Nat) : Nat :=
  let z := ((Nat.xor z (z >>> 30)) * 0xbf58476d1ce4e5b9) % 2 ^ 64
  let z := ((Nat.xor z (z >>> 27)) * 0x94d049bb133111eb) % 2 ^ 64
  Nat.xor z (z >>> 31)

/-- The 64-bit value of which r[j] is the top 24 bits and r'[j] bits [39:16] (R89, R108). -/
def srWord (seed : Nat) (x y sec n j : Nat) : Nat :=
  let b := (x <<< 48) ||| (y <<< 32) ||| sec
  let h := mix (Nat.xor (mix (Nat.xor (mix seed) (b % 2 ^ 64))) n)
  mix ((h + (j + 1) * 0x9e3779b97f4a7c15) % 2 ^ 64)

end Sys2Proof.Machine
end

