-- ==== Sys2Proof/Machine/Operands.lean ====
section
/-!
DEFINITION. Machine/Operands: the fields of a tab entry, the address generators, and the malformed checks of R22, R50,
R83, R101 and R122.
-/
namespace Sys2Proof.Machine

/-! ## Fields of a tab entry (Table 1.2) -/

def eCtl (e : TabEntry) : Nat := fld e.toNat 124 4
def eLcsel (e : TabEntry) : Nat := fld e.toNat 122 2
def eCimm (e : TabEntry) : Nat := fld e.toNat 106 16
def eTarget (e : TabEntry) : Nat := fld e.toNat 106 10
def eUnit (e : TabEntry) : Nat := fld e.toNat 104 2
def eCuop (e : TabEntry) : Nat := fld e.toNat 98 6
def eCufmt (e : TabEntry) : Nat := fld e.toNat 94 4
def eCuflag (e : TabEntry) : Nat := fld e.toNat 90 4
def eSrca (e : TabEntry) : Nat := fld e.toNat 86 4
def eSrcb (e : TabEntry) : Nat := fld e.toNat 82 4
def ePopa (e : TabEntry) : Bool := bit e.toNat 81
def ePopb (e : TabEntry) : Bool := bit e.toNat 80
def eDst (e : TabEntry) : Nat := fld e.toNat 76 4
def eOutch (e : TabEntry) : Nat := fld e.toNat 73 3
def eLastm (e : TabEntry) : Bool := bit e.toNat 72
def eRdop (e : TabEntry) : Nat := fld e.toNat 70 2
def eRdtag (e : TabEntry) : Nat := fld e.toNat 68 2
def eWrop (e : TabEntry) : Nat := fld e.toNat 66 2
def eWrtag (e : TabEntry) : Nat := fld e.toNat 64 2
def eSemop (e : TabEntry) : Nat := fld e.toNat 61 3
def eSemid (e : TabEntry) : Nat := fld e.toNat 55 6
def eSemval (e : TabEntry) : Nat := fld e.toNat 39 16
def eSem2op (e : TabEntry) : Nat := fld e.toNat 37 2
def eSem2id (e : TabEntry) : Nat := fld e.toNat 31 6
def eSem2val (e : TabEntry) : Nat := fld e.toNat 23 8
def eRsvd (e : TabEntry) : Nat := fld e.toNat 0 23

/-- CUOP[5:2], the operation kind of the array and of the sparse engine (R48, R120). -/
def eKind (e : TabEntry) : Nat := eCuop e / 4

/-- CUOP[1:0], the selector G (R48, R120). -/
def eG (e : TabEntry) : Nat := eCuop e % 4

/-- CUFLAG[3], CUFLAG[2], CUFLAG[1:0] (Table 2.3). -/
def eFlag3 (e : TabEntry) : Bool := bit (eCuflag e) 3
def eFlag2 (e : TabEntry) : Bool := bit (eCuflag e) 2
def eFlagLow (e : TabEntry) : Nat := eCuflag e % 4

/-- DST writes the scratchpad: 1 or 3 (Table 1.5). -/
def dstMu (e : TabEntry) : Bool := decide (eDst e = 1 ∨ eDst e = 3)

/-- DST enters the vector network: 2 or 3 (Table 1.5). -/
def dstNet (e : TabEntry) : Bool := decide (eDst e = 2 ∨ eDst e = 3)

/-! ## Malformed entries -/

/-- A source code of Table 1.4 that is not RSVD. -/
def srcOk (s : Nat) : Bool := decide (s ≤ 2 ∨ 8 ≤ s)

/-- The control operation can advance PC (R22 item 8): every one but JUMP and END. -/
def ctlAdvances (e : TabEntry) : Bool := decide (eCtl e = 0 ∨ eCtl e = 1 ∨ eCtl e = 2 ∨ eCtl e = 4)

/-- CIMM is used as Table 1.2 states: a count, or a target with its upper bits RSVD; otherwise any value is carried. -/
def cimmOk (e : TabEntry) : Bool :=
  if eCtl e = 2 ∨ eCtl e = 3 then decide (eCimm e / 1024 = 0) else true

/-- Items 1 to 6 and 8 of R22, for the entry at an index. -/
def malformedBase (e : TabEntry) (pc : Nat) : Bool :=
  decide (eRsvd e ≠ 0) || decide (eCtl e ≥ 6) || !cimmOk e || !srcOk (eSrca e) || !srcOk (eSrcb e)
  || decide (eDst e ≥ 5) || (!dstNet e && (decide (eOutch e ≠ 0) || eLastm e))
  || decide (eRdtag e = 3) || decide (eWrtag e = 3) || decide (eSemop e ≥ 5) || decide (eSem2op e = 3)
  || decide (eSemid e ≥ 48) || decide (eSem2id e ≥ 48)
  || decide (eSemop e ≠ 0 ∧ eSem2op e ≠ 0 ∧ eSemid e = eSem2id e)
  || decide (eRdop e ≠ 0 ∧ eSrca e ≠ 1 ∧ eSrcb e ≠ 1) || decide ((eSrca e = 1 ∨ eSrcb e = 1) ∧ eRdop e = 0)
  || (decide (eWrop e ≠ 0) && !dstMu e) || (dstMu e && decide (eWrop e = 0))
  || decide (eUnit e = 0 ∧ (eCuop e ≠ 0 ∨ eCufmt e ≠ 0 ∨ eCuflag e ≠ 0))
  || (decide (pc = 1023) && ctlAdvances e)

/-- Formats of Table 2.4: the array's operand formats. -/
def isArrayFmt (f : Nat) : Bool := decide (1 ≤ f) && decide (f ≤ 10)

/-- The format each MAC kind of Table 2.2 demands: none for the single-pass MAC. -/
def kindFmt (k : Nat) : Option Nat :=
  if 5 ≤ k ∧ k ≤ 7 then some fBinary16 else if 8 ≤ k ∧ k ≤ 13 then some fBinary32 else none

/-- An array entry is a MAC kind (R48). -/
def isMacKind (k : Nat) : Bool := decide (4 ≤ k) && decide (k ≤ 13)

/-- R50 with Table 2.3. -/
def malformedArray (e : TabEntry) : Bool :=
  let k := eKind e
  let noDst := decide (eDst e = 0)
  if k = 0 then true
  else if k = 1 then
    !(decide (eSrca e = 0) && decide (eSrcb e ≠ 0) && noDst && isArrayFmt (eCufmt e) && decide (eCuflag e = 0))
  else if k = 2 then
    !(decide (eSrca e = 0) && decide (eSrcb e ≠ 0) && noDst && decide (eCufmt e = fE8M0) && decide (eCuflag e ≤ 1)
      && (if eCuflag e = 1 then decide (eG e ≤ 2) else decide (eG e = 0)))
  else if k = 3 then
    !(decide (eSrca e = 0) && decide (eSrcb e = 0) && noDst && decide (eCufmt e = 0) && decide (eCuflag e ≤ 1)
      && decide (eG e = 0))
  else if isMacKind k then
    !(decide (eSrca e ≠ 0) && noDst && isArrayFmt (eCufmt e) && (decide (eSrcb e ≠ 0) || decide (eG e = 0))
      && (match kindFmt k with
          | some f => decide (eCufmt e = f)
          | none => decide (eCufmt e ≠ fBinary16 ∧ eCufmt e ≠ fBinary32)))
  else if k = 14 then
    !(decide (eSrca e = 0) && decide (eSrcb e = 0) && (dstMu e || dstNet e) && decide (eCufmt e = 0)
      && decide (eFlagLow e = 0) && decide (eG e = 0))
  else
    !(decide (eSrca e = 0) && decide (eSrcb e = 0) && noDst && decide (eCufmt e = 0) && decide (eCuflag e ≤ 2)
      && decide (eG e = 0))

/-- The 2:4 formats of R121. -/
def is24Fmt (f : Nat) : Bool := decide (3 ≤ f) && decide (f ≤ 10)

/-- The segment formats of R121. -/
def isSegFmt (f : Nat) : Bool := decide (f = 3 ∨ f = 4 ∨ f = 5 ∨ f = 10)

/-- R122 with Table 5.2. -/
def malformedSparse (e : TabEntry) : Bool :=
  let k := eKind e
  let a0 := decide (eSrca e = 0)
  let b0 := decide (eSrcb e = 0)
  let noDst := decide (eDst e = 0)
  let g0 := decide (eG e = 0)
  let f0 := decide (eCufmt e = 0)
  let fl0 := decide (eCuflag e = 0)
  if k = 1 then !(a0 && !b0 && noDst && is24Fmt (eCufmt e) && fl0)
  else if k = 2 then !(a0 && !b0 && noDst && f0 && fl0)
  else if k = 3 then !(a0 && !b0 && noDst && decide (eCufmt e = fE8M0) && decide (eCuflag e ≤ 1) && g0)
  else if k = 4 then !(a0 && b0 && noDst && f0 && fl0 && g0)
  else if k = 5 then !(!a0 && noDst && is24Fmt (eCufmt e) && (!b0 || g0))
  else if k = 6 then !(a0 && !b0 && noDst && isSegFmt (eCufmt e) && decide (eCuflag e % 8 = 0) && g0)
  else if k = 7 then !(!a0 && !b0 && noDst && f0 && fl0 && g0)
  else if k = 8 then !(!a0 && b0 && noDst && f0 && fl0 && g0)
  else if k = 9 then
    !(a0 && b0 && (dstMu e || dstNet e) && f0 && decide (eFlagLow e ≤ 1) && g0)
  else true

/-- The convert-class operations of R100. -/
def isConvertClass (op : Nat) : Bool :=
  decide (0x18 ≤ op ∧ op ≤ 0x21) || decide (0x28 ≤ op ∧ op ≤ 0x31) || decide (op = 0x38)

/-- Operations marked Yes under A in Table 4.2. -/
def vecUsesA (op : Nat) : Bool :=
  decide (1 ≤ op ∧ op ≤ 0x21) || decide (0x28 ≤ op ∧ op ≤ 0x31) || decide (op = 0x38)

/-- Operations marked Yes under B in Table 4.2. -/
def vecUsesB (op : Nat) : Bool :=
  decide (2 ≤ op ∧ op ≤ 6) || decide (9 ≤ op ∧ op ≤ 0xF) || decide (op = 0x21)
  || decide (0x28 ≤ op ∧ op ≤ 0x31)

/-- The operations that take two accumulator parts when both sources are 0 (R101 item 4, R104). -/
def vecPair (op : Nat) : Bool := decide (op = 0x21 ∨ op = 0x30 ∨ op = 0x31)

/-- CUOP is RSVD in Table 4.2. -/
def vecRsvd (op : Nat) : Bool :=
  decide (op = 0 ∨ op = 0x16 ∨ op = 0x17 ∨ (0x24 ≤ op ∧ op ≤ 0x27) ∨ (0x32 ≤ op ∧ op ≤ 0x37) ∨ 0x3C ≤ op)

/-- Element groups per 64-byte unit, Table 4.3: unscaled. -/
def groupsOf (f : Nat) : Nat :=
  match fmtBits f with
  | 32 => 1 | 16 => 2 | 8 => 4 | 6 => 6 | 4 => 8 | _ => 0

/-- Element groups per 64-byte unit, Table 4.3: block-scaled. -/
def groupsScaled (f : Nat) : Nat := if fmtBits f = 6 then 4 else groupsOf f

/-- CUFMT allowed by Table 4.2. -/
def vecFmtOk (op f : Nat) : Bool :=
  if op = 1 ∨ (0xB ≤ op ∧ op ≤ 0xD) ∨ op = 0x22 ∨ op = 0x23 ∨ 0x39 ≤ op then decide (f = 0)
  else if op ≤ 0xA then decide (f = 1 ∨ f = 2 ∨ f = 3 ∨ f = 11 ∨ f = 12)
  else if op ≤ 0xF then decide (f = 11 ∨ f = 12)
  else if op ≤ 0x13 then decide (f = 1)
  else if op ≤ 0x15 then decide (f = 1 ∨ f = 12)
  else if op ≤ 0x20 then decide (1 ≤ f ∧ f ≤ 12)
  else if op = 0x21 ∨ (0x28 ≤ op ∧ op ≤ 0x2F) then decide (4 ≤ f ∧ f ≤ 8)
  else if op = 0x30 ∨ op = 0x31 then decide (2 ≤ f ∧ f ≤ 10)
  else isSegFmt f

/-- R83: the convert fields. -/
def malformedConvert (e : TabEntry) : Bool :=
  let f := eCufmt e
  decide (f = 0 ∨ f ≥ 13) || decide (eFlagLow e = 3) || (decide (f = 1) && !eFlag3 e) || (decide (f = 12) && eFlag3 e)

/-- R83 and R101. -/
def malformedVector (e : TabEntry) : Bool :=
  let op := eCuop e
  let f := eCufmt e
  vecRsvd op || !vecFmtOk op f
  || (if isConvertClass op then malformedConvert e else decide (eCuflag e ≠ 0))
  || (!vecUsesA op && decide (eSrca e ≠ 0))
  || (vecUsesB op && decide (eSrcb e = 0) && !(vecPair op && decide (eSrca e = 0)))
  || (!vecUsesB op && decide (eSrcb e ≠ 0) && decide (op ≠ 0x3B))
  || (decide (0x18 ≤ op ∧ op ≤ 0x1F) && decide (op - 0x18 ≥ groupsOf f))
  || (decide (0x28 ≤ op ∧ op ≤ 0x2F) && decide (op - 0x28 ≥ groupsScaled f))
  || (decide (op = 0x38 ∨ op = 0x39) && decide (eDst e ≠ 1 ∨ eWrop e ≠ 2 ∨ eWrtag e = 2))
  || (decide (op = 0x22 ∨ op = 0x23 ∨ op = 0x3A) && decide (eDst e = 0))

/-- An entry is malformed (R22 with the unit's own rule for item 7). -/
def malformed (e : TabEntry) (pc : Nat) : Bool :=
  malformedBase e pc
  || (if eUnit e = 1 then malformedArray e else if eUnit e = 2 then malformedSparse e
      else if eUnit e = 3 then malformedVector e else false)

/-! ## Address generators (R155, R156) -/

/-- wrap(a) of R156, within LO..HI. -/
def agWrap (g : AddrGen) (a : Int) : Nat :=
  let n : Int := (g.hi.toNat : Int) - g.lo.toNat + 1
  (g.lo.toNat + ((a - g.lo.toNat) % n).toNat) % 2048

/-- STRIDE as an integer. -/
def agStride (g : AddrGen) : Int := sext g.stride.toNat 12

/-- The slot a port operation accesses: BASE for operation 3, else CUR (Table 1.6). -/
def agAddr (g : AddrGen) (op : Nat) : Nat := if op = 3 then g.base.toNat else g.cur.toNat

/-- The generator after a port operation (R156). -/
def agStep (g : AddrGen) (op : Nat) : AddrGen :=
  if op = 1 then { g with cur := BitVec.ofNat 11 (agWrap g (g.cur.toNat + agStride g)) }
  else if op = 3 then { g with cur := BitVec.ofNat 11 (agWrap g (g.base.toNat + agStride g)) }
  else g

/-- Slots of n successive accesses under port operation 1, and the generator after them (R60). -/
def agRun (g : AddrGen) : Nat → List Nat × AddrGen
  | 0 => ([], g)
  | n + 1 => let (l, g') := agRun (agStep g 1) n; (g.cur.toNat :: l, g')

/-! ## Route entries (Tables 7.5, 7.6) -/

def rValid (r : Nat) : Bool := bit r 0
def rOut (r d : Nat) : Bool := bit r (1 + d)
def rCourse (r : Nat) : Nat := fld r 6 3
def rTerm (sc : Bool) (r : Nat) : Nat := if sc then fld r 6 1 else fld r 9 2
def rQsel (r : Nat) : Nat := fld r 11 3
def rWsel (r : Nat) : Nat := fld r 14 2
def rOfs (r : Nat) : Nat := fld r 16 11
def rSemid (r : Nat) : Nat := fld r 7 6
def rPad (sc : Bool) (r : Nat) : Nat := if sc then fld r 13 4 else fld r 27 6
def rAllow (sc : Bool) (r : Nat) : Nat := if sc then fld r 17 3 else fld r 33 3
def rSkew (sc : Bool) (r : Nat) : Nat := if sc then fld r 24 3 else fld r 40 3
def rExcess (sc : Bool) (r : Nat) : Bool := if sc then bit r 27 else bit r 43
def rWindow (sc : Bool) (r : Nat) : Nat := if sc then fld r 28 8 else fld r 44 8

/-- The route entry of an input. -/
def routeOf (t : Tile) (inp : Nat) : Nat := (mget 0 t.fret.route inp).toNat

/-- The input is on the scalar network. -/
def scalarInput (inp : Nat) : Bool := decide (inp = 40) || (decide (inp < 32) && decide (inp % 8 = 6))

/-! ## Storage of an input (R187, R198, R199) -/

/-- Flits of an input that wait at their terminal, beyond a number of them. One that has yet to leave on another output is
counted with the buffer. -/
def termBeyond (t : Tile) (inp k : Nat) : Nat :=
  let n := (t.fret.term.filter fun m => decide (m.inp = inp)).length - k
  match mget [] t.fret.bufs inp with
  | f :: _ => if f.left.contains 4 then n - 1 else n
  | [] => n

/-- Flits of an input at their terminal: they stand in the input's storage until they are delivered, those that its SKEW holds
among them (R203). -/
def termHeld (t : Tile) (inp : Nat) : Nat := termBeyond t inp 0

/-- Flits at a terminal beyond those its SKEW holds: with one of them the input's next flit cannot follow. -/
def termBlocks (t : Tile) (inp : Nat) : Nat := termBeyond t inp (rSkew (scalarInput inp) (routeOf t inp))

/-- Flits an input holds, in its buffer and in the pad pool; those still on the link are not counted. -/
def heldLen (t : Tile) (inp : Nat) : Nat :=
  ((mget [] t.fret.bufs inp).filter (·.arr)).length + termHeld t inp

/-- Flits of an input that stand in the pad pool: as many as its pad holds (R198). -/
def padHeld (t : Tile) (inp : Nat) : Nat := min (heldLen t inp) (rPad (scalarInput inp) (routeOf t inp))

/-- Flits that take slots of an input's buffer. -/
def bufHeld (t : Tile) (inp : Nat) : Nat := heldLen t inp - padHeld t inp

end Sys2Proof.Machine
end

