-- ==== Sys2Proof/Machine/ArrayUnit.lean ====
section
/-!
DEFINITION. Machine/ArrayUnit: the dense matrix array: banks, issues, drain, and what an array entry does when it fires.
-/
namespace Sys2Proof.Machine

/-- An operand as a unit reads it: 64 bytes and their poison (R154). -/
structure Opd where
  data : Unit512 := 0
  poison : Bool := false
  deriving DecidableEq, Repr

/-! ## Geometry of the modes (Table 2.1) -/

def arrRows (mode : Nat) : Nat := nth [16, 8, 4] mode 16
def arrCols (mode : Nat) : Nat := nth [16, 32, 64] mode 16
def arrLatency (mode : Nat) : Nat := arrRows mode + arrCols mode
def arrDepth (mode : Nat) : Nat := nth [64, 32, 16] mode 64

/-- Double-rate formats of Table 2.4. -/
def isDouble (f : Nat) : Bool := decide (6 ≤ f) && decide (f ≤ 9)

/-- Elements per cell: 2 in the double-rate formats (R47). -/
def perCell (f : Nat) : Nat := if isDouble f then 2 else 1

/-- Row bytes of R53. -/
def rowBytes (mode f : Nat) : Nat := arrCols mode * perCell f * fmtBits f / 8

/-- V of R59: bytes of a streaming operand. -/
def streamBytes (mode f : Nat) : Nat := arrRows mode * perCell f * fmtBits f / 8

/-- G lies in the range R53 gives a load. -/
def loadGOk (mode f g : Nat) : Bool :=
  let rb := rowBytes mode f
  if rb ≤ 32 then decide (g < 64 / rb) else decide (g = 0)

/-- A load of one row, or one part of a row, into a bank (R53, R71): the bank, LROW and LPART after it. DESIGN CHOICE: a row of
at most 64 B replaces all stored bits of its bank row, and those beyond the row bytes become zero; the spec does not say
what they hold (notes/assumptions/127). -/
def bankLoad (mode f g lrow lpart : Nat) (b : Bank) (op : Opd) : Bank × Nat × Nat :=
  let rb := rowBytes mode f
  let b := if lrow = 0 ∧ lpart = 0 then
      { b with fmt := BitVec.ofNat 4 f, valid := true, poison := false, scales := [] } else b
  let b := { b with poison := b.poison || op.poison }
  let old := (mget 0 b.rows lrow).toNat
  let (new, last) :=
    if rb ≤ 32 then (fld op.data.toNat (8 * rb * g) (8 * rb), true)
    else if rb ≤ 64 then (fld op.data.toNat 0 (8 * rb), true)
    else
      let n := min 64 (rb - 64 * lpart)
      (setFld old (512 * lpart) (8 * n) op.data.toNat, decide (64 * (lpart + 1) ≥ rb))
  let b := { b with rows := mset 0 b.rows lrow (BitVec.ofNat 2048 new) }
  if last then (b, (lrow + 1) % arrRows mode, 0) else (b, lrow, lpart + 1)

/-- S[k][c] of R45 and R53 for the bank's orientation: the code of a stationary element. -/
def bankElem (b : Bank) (transposed : Bool) (f k c : Nat) : Nat :=
  let w := fmtBits f
  if transposed then elem (mget 0 b.rows c).toNat w k
  else if isDouble f then elem (mget 0 b.rows (k / 2)).toNat w (2 * c + k % 2)
  else elem (mget 0 b.rows k).toNat w c

/-- Pieces a kind multiplies: stationary, streaming (Table 2.2). -/
def kindPieces (k : Nat) : Piece × Piece :=
  match k with
  | 5 => (.h16, .l16) | 6 => (.l16, .h16) | 7 => (.h16, .h16)
  | 8 => (.p2, .p0) | 9 => (.p1, .p1) | 10 => (.p0, .p2) | 11 => (.p2, .p1) | 12 => (.p1, .p2) | 13 => (.p2, .p2)
  | _ => (.whole, .whole)

/-- The products of one column of an issue (R45). -/
def columnProds (b : Bank) (transposed : Bool) (mode k f sub c : Nat) (a : Opd) : List Prod :=
  let (pa, pb) := kindPieces k
  let base := 8 * streamBytes mode f * sub
  let w := fmtBits f
  (List.range (arrRows mode * perCell f)).map fun i =>
    mkProd pa pb (decodeElem f (bankElem b transposed f i c)) (decodeElem f (fld a.data.toNat (base + w * i) w))

/-- Products of one column of an issue that hold their multiplier still (R113). -/
def columnGated (b : Bank) (transposed : Bool) (mode k f sub c : Nat) (a : Opd) : Nat :=
  let (pa, pb) := kindPieces k
  let base := 8 * streamBytes mode f * sub
  let w := fmtBits f
  ((List.range (arrRows mode * perCell f)).filter fun i =>
    gatedPair pa pb f (bankElem b transposed f i c) (fld a.data.toNat (base + w * i) w)).length

/-! ## Faults at fire (R52) -/

/-- The banks and load pointers of an array entry after its swap, if it swaps. -/
def swapBanks (u : ArrayUnit) (orient : Bool) : ArrayUnit :=
  { u with active := u.shadow, shadow := u.active, orient := orient, lrow := 0, lpart := 0 }

/-- Item 4 of R52 for a swap that leaves the given orientation. -/
def swapFault (u : ArrayUnit) (orient : Bool) : Bool :=
  let f := u.shadow.fmt.toNat
  orient && (decide (u.mode ≠ 0) || (u.shadow.valid && decide (f ≠ 3 ∧ f ≠ 2 ∧ f ≠ 1 ∧ f ≠ 10)))

/-- Items 2 and 3 of R52 for a load of format f with selector g. -/
def loadFault (u : ArrayUnit) (f g : Nat) : Bool :=
  !loadGOk u.mode.toNat f g
  || (!(decide (u.lrow = 0) && decide (u.lpart = 0)) && decide (u.shadow.fmt.toNat ≠ f))

/-- ARRAY_FORMAT holds for the entry (R52). -/
def arrayFault (u : ArrayUnit) (e : TabEntry) : Bool :=
  let k := eKind e
  let f := eCufmt e
  if k = 1 then loadFault u f (eG e)
  else if k = 3 then swapFault u (bit (eCuflag e) 0)
  else if isMacKind k then
    let s := eFlag2 e
    let u' := if s then swapBanks u u.orient else u
    (s && swapFault u u.orient)
    || !u'.active.valid || decide (u'.active.fmt.toNat ≠ f)
    || decide (streamBytes u.mode.toNat f * (eFlagLow e + 1) > 64)
    || (decide (eSrcb e ≠ 0) && loadFault u' f (eG e))
  else if k = 14 then
    dstMu e && decide (arrCols u.mode.toNat > 16) && (decide (eWrop e ≠ 1) || decide (eWrtag e = 2))
  else false

/-! ## Fire -/

/-- LOADSC (R57, R71). -/
def arrayLoadsc (u : ArrayUnit) (e : TabEntry) (b : Opd) : ArrayUnit :=
  let byte := fun i => BitVec.ofNat 8 (elem b.data.toNat 8 i)
  if bit (eCuflag e) 0 then
    { u with ascl := msetAll 127 [] ((List.range 4).map fun f => (f, byte (f / 2 ^ eG e))), scPoison := b.poison }
  else
    { u with shadow := { u.shadow with
        scales := msetAll 127 [] ((List.range (arrCols u.mode.toNat)).map fun c => (c, byte c))
        poison := u.shadow.poison || b.poison } }

/-- The row addition of one MAC issue through the active bank, and the products gated (R45, R58, R64, R71, R113). -/
def arrayIssue (u : ArrayUnit) (e : TabEntry) (a : Opd) : RowAdd × Nat :=
  let f := eCufmt e
  let sub := eFlagLow e
  let mode := u.mode.toNat
  let prods := (List.range (arrCols mode)).map fun c => columnProds u.active u.orient mode (eKind e) f sub c a
  let scale := fun c => if isBlockScaled f then scaleExp (mget 127 u.ascl sub) (mget 127 u.active.scales c) else some 0
  ({ row := u.ap, z := eFlag3 e, int := isInt f
     groups := [(List.range (arrCols mode)).map fun c => columnValue (scale c) (nth prods c [])]
     poison := a.poison || u.active.poison || (isBlockScaled f && u.scPoison) },
   ((List.range (arrCols mode)).map fun c => columnGated u.active u.orient mode (eKind e) f sub c a).sum)

/-- Flits of a DRAIN: row DP cut into units of 16 columns (R60). -/
def drainUnits (mode : Nat) (r : AccRow) : List Unit512 :=
  (List.range (arrCols mode / 16)).map fun m => BitVec.ofNat 512 (fld r.bits.toNat (512 * m) 512)

/-- What an array entry does to the array when it fires in tile cycle n: the array, the work it puts in flight, the
issues and the gated products it counts. The DRAIN row is returned for the caller to send (R48-R63). -/
structure ArrayFx where
  u : ArrayUnit
  issue : Option RowAdd := none
  drain : Option AccRow := none
  discard : Bool := false
  gated : Nat := 0
  deriving DecidableEq, Repr

def arrayFire (u : ArrayUnit) (e : TabEntry) (a b : Opd) (n : Nat) : ArrayFx :=
  let k := eKind e
  let f := eCufmt e
  let mode := u.mode.toNat
  if k = 1 then
    let (bk, r, p) := bankLoad mode f (eG e) u.lrow u.lpart u.shadow b
    { u := { u with shadow := bk, lrow := r, lpart := p } }
  else if k = 2 then { u := arrayLoadsc u e b }
  else if k = 3 then { u := swapBanks u (bit (eCuflag e) 0) }
  else if isMacKind k then
    let u := if eFlag2 e then { swapBanks u u.orient with ap := 0 } else u
    let (ra, g) := arrayIssue u e a
    let u := { u with ap := (u.ap + 1) % arrDepth mode, busyTo := max u.busyTo (n + arrLatency mode) }
    let u := if eSrcb e = 0 then u else
      let (bk, r, p) := bankLoad mode f (eG e) u.lrow u.lpart u.shadow b
      { u with shadow := bk, lrow := r, lpart := p }
    { u := u, issue := some ra, gated := g }
  else if k = 14 then
    let dp := if eFlag2 e then 0 else u.dp
    let r := mget {} u.acc dp
    let acc := if eFlag3 e then mset {} u.acc dp {} else u.acc
    { u := { u with dp := (dp + 1) % arrDepth mode, acc := acc, vaccp := 0
                    busyTo := max u.busyTo (n + 1 + arrCols mode / 16) }
      drain := some r }
  else
    { u := { mode := BitVec.ofNat 2 (eFlagLow e), busyTo := n + 1 }, discard := true }

/-- The accumulator part operand A reads for SRCA = 0 (R104): the operand and the array with its pointers advanced. -/
def accPart (u : ArrayUnit) : Opd × ArrayUnit :=
  let r := mget {} u.acc u.dp
  let o : Opd := { data := BitVec.ofNat 512 (fld r.bits.toNat (512 * u.vaccp) 512), poison := r.poison }
  let mode := u.mode.toNat
  if u.vaccp + 1 ≥ arrCols mode / 16 then (o, { u with vaccp := 0, dp := (u.dp + 1) % arrDepth mode })
  else (o, { u with vaccp := u.vaccp + 1 })

/-- A list of column values added into an accumulator row, lane by lane: the new bits and the INT32 saturations. -/
def addLanes (int z : Bool) (old : Nat) : Nat → List Val → Nat × Nat
  | _, [] => (0, 0)
  | c, v :: rest =>
    let (x, sat) := accAdd int z (elem old 32 c) v
    let (r, n) := addLanes int z old (c + 1) rest
    (x <<< (32 * c) + r, n + b2n sat)

/-- All groups of a row addition, in order; Z applies to the first only (R126). -/
def addGroups (int : Bool) : Bool → Nat → List (List Val) → Nat × Nat
  | _, old, [] => (old, 0)
  | z, old, g :: rest =>
    let (x, n) := addLanes int z old 0 g
    let (y, m) := addGroups int false x rest
    (y, n + m)

/-- A row addition lands (R61, R64-R66, R71): the accumulator and the INT32 saturations. An addition without values leaves the
kind of the row's lanes. -/
def landRow (acc : SMap AccRow) (ra : RowAdd) (mismatch : Bool) : SMap AccRow × Nat :=
  let old := mget {} acc ra.row
  let (x, n) := addGroups ra.int ra.z old.bits.toNat ra.groups
  let poison := (old.poison && !ra.z) || ra.poison || mismatch
  (mset {} acc ra.row ⟨BitVec.ofNat 2048 x, poison, if ra.groups = [] then old.int else ra.int⟩, n)

end Sys2Proof.Machine
end

