-- ==== Sys2Proof/Machine/SparseUnit.lean ====
section
/-!
DEFINITION. Machine/SparseUnit: the sparse engine: banks and masks, 2:4 issues, gather store, steps, segment and chunk
issues, drain.
-/
namespace Sys2Proof.Machine

/-- Column bytes cb of R125. -/
def colBytes (f : Nat) : Nat := (if isDouble f then 32 else 16) * fmtBits f / 8

/-- V of R126: bytes of a streaming operand of a 2:4 issue. -/
def stream24 (f : Nat) : Nat := (if isDouble f then 64 else 32) * fmtBits f / 8

/-- Format of a bank whose masks and scales are those of double-rate data. -/
def bankDouble (b : SpBank) : Bool := isDouble b.fmt.toNat

/-! ## Loads (R125, R147) -/

/-- A column load into a bank: the bank and LCOL after it. -/
def colLoad (f g lcol : Nat) (b : SpBank) (o : Opd) : SpBank × Nat :=
  let b := if lcol = 0 then
      { b with fmt := BitVec.ofNat 4 f, valid := true, poison := false, masks := [], scales := [] } else b
  let cb := colBytes f
  ({ b with cols := mset 0 b.cols lcol (BitVec.ofNat 256 (fld o.data.toNat (8 * cb * g) (8 * cb)))
            poison := b.poison || o.poison }, (lcol + 1) % 16)

/-- The masks a LOADM writes: column and mask word (R125). -/
def loadmMasks (dbl : Bool) (g : Nat) (o : Opd) : List (Nat × BitVec 64) :=
  if dbl then (List.range 8).map fun c => (8 * g + c, BitVec.ofNat 64 (elem o.data.toNat 64 c))
  else (List.range 16).map fun c => (c, BitVec.ofNat 64 (elem o.data.toNat 32 c))

/-- Set bits of the 4-bit mask of group g, ascending. -/
def maskBits (m : BitVec 64) (g : Nat) : List Nat := (List.range 4).filter fun i => bit m.toNat (4 * g + i)

/-- Groups of a mask word with more than two bits set (R128). -/
def overGroups (dbl : Bool) (m : BitVec 64) : List Nat :=
  (List.range (if dbl then 16 else 8)).filter fun g => decide ((maskBits m g).length > 2)

/-- LOADSC of the sparse engine (R125, R147). -/
def sparseLoadsc (u : SparseUnit) (e : TabEntry) (b : Opd) : SparseUnit :=
  let byte := fun i => BitVec.ofNat 8 (elem b.data.toNat 8 i)
  if bit (eCuflag e) 0 then
    { u with ascl := msetAll 127 [] ((List.range 4).map fun f => (f, byte f)), scPoison := b.poison }
  else
    { u with shadow := { u.shadow with
        scales := msetAll 127 [] ((List.range (if bankDouble u.shadow then 32 else 16)).map fun c => (c, byte c))
        poison := u.shadow.poison || b.poison } }

/-! ## 2:4 issues (R124, R126, R128) -/

/-- Used values of column c in groups g0 to g0 + n - 1: the value code and its position; at most two bits of a mask. -/
def usedValues (f : Nat) (col : BitVec 256) (m : BitVec 64) (g0 n : Nat) : List (Nat × Nat) :=
  ((List.range n).map fun i =>
    let g := g0 + i
    ((maskBits m g).take 2).zipIdx.map fun (b, j) => (elem col.toNat (fmtBits f) (2 * g + j), 4 * g + b)).flatten

/-- Products of the used values of a column with the streaming elements at their positions. -/
def prods24 (f sub : Nat) (a : Opd) (vs : List (Nat × Nat)) : List Prod :=
  vs.map fun (v, p) =>
    mkProd .whole .whole (decodeElem f v)
      (decodeElem f (fld a.data.toNat (8 * stream24 f * sub + fmtBits f * p) (fmtBits f)))

/-- Products of the used values of a column that are gated (R145). -/
def gated24 (f sub : Nat) (a : Opd) (vs : List (Nat × Nat)) : Nat :=
  (vs.filter fun (v, p) =>
    gatedPair .whole .whole f v (fld a.data.toNat (8 * stream24 f * sub + fmtBits f * p) (fmtBits f))).length

/-- The row addition of one MAC24 and its gated products (R126, R128, R145, R147). -/
def issue24 (u : SparseUnit) (e : TabEntry) (a : Opd) : RowAdd × Nat :=
  let f := eCufmt e
  let sub := eFlagLow e
  let bk := u.active
  let dbl := isDouble f
  let used := fun (h c : Nat) => usedValues f (mget 0 bk.cols c) (mget 0 bk.masks c) (8 * h) 8
  let scale := fun (h c : Nat) =>
    if isBlockScaled f then
      (if dbl then scaleExp (mget 127 u.ascl (2 * sub + h)) (mget 127 bk.scales (2 * c + h))
       else scaleExp (mget 127 u.ascl sub) (mget 127 bk.scales c))
    else some 0
  let hs := if dbl then [0, 1] else [0]
  let groups := hs.map fun h => (List.range 16).map fun c => columnValue (scale h c) (prods24 f sub a (used h c))
  let slots := (List.range 16).map fun c => hs.map fun h => used h c
  let formed := (slots.map fun l => (l.map List.length).sum).sum
  let gated := (slots.map fun l => (l.map (gated24 f sub a)).sum).sum
  let bad := (List.range 16).any fun c => decide (overGroups dbl (mget 0 bk.masks c) ≠ [])
  ({ row := u.ap, z := eFlag3 e, int := isInt f, groups := groups
     poison := a.poison || bk.poison || bad || (isBlockScaled f && u.scPoison) },
   gated + ((if dbl then 512 else 256) - formed))

/-! ## Gather store and steps (R132-R137) -/

/-- Rows one GLOAD writes: 4 for 8-bit formats, 2 for bfloat16 (R132). -/
def gatherRows (f : Nat) : Nat := if fmtBits f = 8 then 4 else 2

/-- GLOAD (R132, R147). -/
def gload (u : SparseUnit) (e : TabEntry) (b : Opd) : SparseUnit :=
  let f := eCufmt e
  let u := if eFlag3 e then { u with grow := 0, gk := 0, gfmt := BitVec.ofNat 4 f, gPoison := false } else u
  let n := gatherRows f
  let rb := 16 * fmtBits f
  let g := msetAll 0 u.gather ((List.range n).map fun i =>
    (u.grow + i, BitVec.ofNat 256 (fld b.data.toNat (rb * i) rb)))
  { u with gather := g, grow := u.grow + n, gk := u.grow + n, gPoison := u.gPoison || b.poison }

/-- Element c of gather row k. -/
def gatherElem (u : SparseUnit) (f k c : Nat) : Val := decodeElem f (elem (mget 0 u.gather k).toNat (fmtBits f) c)

/-- Chunks per slot, cps of R133. -/
def chunksPerSlot (f : Nat) : Nat := if fmtBits f = 8 then 4 else 2

/-- Dense chunks F of a step (R133). -/
def stepChunks (p : SpStep) : Nat := p.rows * p.kt / 16

/-- Slots of the dense slice, F ÷ cps of R133, a partly filled last slot included. -/
def stepSlots (p : SpStep) : Nat := (stepChunks p + chunksPerSlot p.fmt - 1) / chunksPerSlot p.fmt

/-- The step descriptor of Table 5.4 read from operand B, with the count: the step it opens, and FRAME. -/
def readDescriptor (d : Unit512) (count n : Nat) : SpStep × Int :=
  let w := d.toNat
  let budget := fld w 0 16
  ({ fallback := decide (count > budget), budget := budget, rows := fld w 16 8, kt := fld w 24 9, dbase := fld w 40 11
     fmt := fld w 56 4, semid := fld w 64 6, count := count, begun := n }, sext (fld w 72 8) 8)

/-- Table 5.5: the descriptor meets every condition for the gather store's format. -/
def descriptorOk (d : Unit512) (gfmt : Nat) : Bool :=
  let w := d.toNat
  let (p, _) := readDescriptor d 0 0
  decide (fld w 33 7 = 0) && decide (fld w 51 5 = 0) && decide (fld w 60 4 = 0) && decide (fld w 70 2 = 0)
  && decide (fld w 80 432 = 0) && decide (p.budget ≥ 1) && decide (1 ≤ p.rows ∧ p.rows ≤ 64)
  && decide (16 ≤ p.kt ∧ p.kt ≤ 256 ∧ p.kt % 16 = 0) && isSegFmt p.fmt && decide (p.fmt = gfmt)
  && decide (p.semid ≤ 47) && decide (p.dbase + stepSlots p ≤ 2048)

/-- Poison rows 0 to n - 1 of an accumulator (R134, R147). -/
def poisonRows (n : Nat) : List RowAdd := (List.range n).map fun r => { row := r, poison := true }

/-- BEGIN (R133). -/
def beginFire (u : SparseUnit) (a b : Opd) (n : Nat) : SparseUnit :=
  let count := fld a.data.toNat 0 32
  let (p, fr) := readDescriptor b.data count n
  let bad := a.poison || b.poison
  let acc := msetAll {} u.acc ((List.range p.rows).map fun r => (r, { bits := 0, poison := bad }))
  { u with step := some { p with fallback := p.fallback || bad }, frame := fr, acc := acc
           maxcnt := if count > u.maxcnt.toNat then BitVec.ofNat 32 count else u.maxcnt }

/-- What one segment or chunk issue gives: row additions, pairs that formed products, pairs skipped with the first of
them (lane and index), gated products. -/
structure SegFx where
  rows : List RowAdd := []
  pairs : Nat := 0
  skipped : List (Nat × Nat) := []
  gated : Nat := 0
  deriving DecidableEq, Repr

/-- The products of (value, gather row) pairs with gather column c. -/
def segProds (u : SparseUnit) (f : Nat) (ps : List (Nat × Nat)) (c : Nat) : List Prod :=
  ps.map fun (v, k) => mkProd .whole .whole (decodeElem f v) (gatherElem u f k c)

/-- The gated products of (value, gather row) pairs with gather column c (R145). -/
def segGated (u : SparseUnit) (f : Nat) (ps : List (Nat × Nat)) (c : Nat) : Nat :=
  (ps.filter fun (v, k) => gatedPair .whole .whole f v (elem (mget 0 u.gather k).toNat (fmtBits f) c)).length

/-- The row addition of the pairs that name one row (R134). -/
def segRow (u : SparseUnit) (f r : Nat) (ps : List (Nat × Nat)) (poison : Bool) : RowAdd :=
  { row := r, int := isInt f, groups := [(List.range 16).map fun c => columnValue (some 0) (segProds u f ps c)]
    poison := poison || u.gPoison }

/-- A real SEG issue (R134, R145, R147). -/
def segIssue (u : SparseUnit) (p : SpStep) (a : Opd) : SegFx :=
  let f := p.fmt
  let w := fmtBits f
  let lanes := (List.range 16).map fun j => (j, fld a.data.toNat (32 * j) w, fld a.data.toNat (32 * j + 16) 16)
  let live := lanes.filter fun (_, v, _) => !vIsZero (decodeElem f v)
  let isOver := fun (x : Nat × Nat × Nat) => decide (x.2.2 / p.kt ≥ p.rows)
  let isPast := fun (x : Nat × Nat × Nat) => decide (x.2.2 % p.kt ≥ u.gk)
  let good := live.filter fun x => !isOver x && !isPast x
  let skip := live.filter fun x => isOver x || isPast x
  let rowsNamed := (List.range p.rows).filter fun r => good.any fun x => decide (x.2.2 / p.kt = r)
  let adds := rowsNamed.map fun r =>
    segRow u f r ((good.filter fun x => decide (x.2.2 / p.kt = r)).map fun x => (x.2.1, x.2.2 % p.kt)) false
  let past := (live.filter fun x => !isOver x && isPast x).map fun x =>
    ({ row := x.2.2 / p.kt, poison := true } : RowAdd)
  let all := if a.poison || live.any isOver then poisonRows p.rows else []
  let gated := ((List.range 16).map fun c =>
    segGated u f (good.map fun x => (x.2.1, x.2.2 % p.kt)) c).sum + 16 * (16 - good.length)
  { rows := adds ++ past ++ all, pairs := good.length, skipped := skip.map fun x => (x.1, x.2.2)
    gated := gated }

/-- The issue of chunk i of a FALLBACK step from a fetched slot (R136). -/
def chunkIssue (u : SparseUnit) (p : SpStep) (i : Nat) (slot : Unit512) (poison : Bool) : SegFx :=
  let f := p.fmt
  let w := fmtBits f
  let base := 16 * (i % chunksPerSlot f)
  let row := 16 * i / p.kt
  let pos := (List.range 16).map fun j => (j, elem slot.toNat w (base + j), (16 * i + j) % p.kt)
  let live := pos.filter fun (_, v, _) => !vIsZero (decodeElem f v)
  let good := live.filter fun (_, _, k) => decide (k < u.gk)
  let skip := live.filter fun (_, _, k) => decide (k ≥ u.gk)
  let ps := good.map fun (_, v, k) => (v, k)
  let gated := ((List.range 16).map fun c => segGated u f ps c).sum + 16 * (16 - good.length)
  { rows := [segRow u f row ps (poison || decide (skip ≠ []))]
    skipped := skip.map fun (j, _, _) => (j, 16 * i + j), gated := gated }

/-! ## Faults at fire (R123) -/

/-- The engine after a swap: banks exchanged, LCOL 0. -/
def swapSp (u : SparseUnit) : SparseUnit := { u with active := u.shadow, shadow := u.active, lcol := 0 }

/-- Items 2 and 3 of R123 for a column load. -/
def colFault (u : SparseUnit) (f g : Nat) : Bool :=
  decide (g ≥ 64 / colBytes f) || (decide (u.lcol ≠ 0) && decide (u.shadow.fmt.toNat ≠ f))

/-- SPARSE_STATE holds for the entry (R123). -/
def sparseFault (u : SparseUnit) (e : TabEntry) (b : Opd) : Bool :=
  let k := eKind e
  let f := eCufmt e
  if k = 1 then colFault u f (eG e)
  else if k = 2 then (if bankDouble u.shadow then decide (eG e ≥ 2) else decide (eG e ≠ 0))
  else if k = 5 then
    let u' := if eFlag2 e then swapSp u else u
    !u'.active.valid || decide (u'.active.fmt.toNat ≠ f) || u.step.isSome
    || decide (stream24 f * (eFlagLow e + 1) > 64) || (decide (eSrcb e ≠ 0) && colFault u' f (eG e))
  else if k = 6 then
    (!eFlag3 e && decide (u.gfmt.toNat ≠ f)) || decide ((if eFlag3 e then 0 else u.grow) + gatherRows f > 256)
  else if k = 7 then u.step.isSome || !descriptorOk b.data u.gfmt.toNat
  else if k = 8 then
    match u.step with
    | none => true
    | some p => decide (p.segn ≥ p.budget)
  else false

/-! ## Drain (R141) -/

/-- The value of a lane of an accumulator row: binary32, or an INT32 of INT8 and INT4 issues (R141). -/
def rowVal (r : AccRow) (x : Nat) : Val := if r.int then decodeElem fInt32 x else decodeFloat fBinary32 x

/-- The unit a DRAIN of the sparse engine sends: the row natively, or in fixed point with its saturations. -/
def spDrainUnit (frame : Int) (fixed : Bool) (r : AccRow) : Unit512 × Bool × Nat :=
  if fixed then
    let cs := (elems r.bits.toNat 32 16).map fun x => convInt fInt32 .rne (vScale (rowVal r x) (-frame))
    (BitVec.ofNat 512 (joinElems 32 (cs.map (·.code))), r.poison || cs.any (·.nan),
     (cs.filter fun c => c.sat || c.nan).length)
  else (BitVec.ofNat 512 (fld r.bits.toNat 0 512), r.poison, 0)

end Sys2Proof.Machine
end

