-- ==== Sys2Proof/Machine/VectorUnit.lean ====
section
/-!
DEFINITION. Machine/VectorUnit: what each operation of Table 4.2 computes, and the pack, scale, mask and segment buffers.
-/
namespace Sys2Proof.Machine

/-- The codes of the elements of an operand in a format of the vector lanes: 16 or 32 of them (R99). -/
def laneElems (f : Nat) (o : Opd) : List Nat := elems o.data.toNat (fmtBits f) (512 / fmtBits f)

/-- A unit of elements of a format. -/
def unitOf (f : Nat) (cs : List Nat) : Unit512 := BitVec.ofNat 512 (joinElems (fmtBits f) cs)

/-- A lane-wise operation of two operands on codes. -/
def lanes2 (f : Nat) (op : Nat → Nat → Nat) (a b : Opd) : List Nat := List.zipWith op (laneElems f a) (laneElems f b)

/-- An arithmetic operation of R102 in the entry's format. -/
def arith2 (f : Nat) (iop : Int → Int → Int) (vop : Val → Val → Val) (a b : Opd) : List Nat :=
  lanes2 f (fun x y => if isInt f then intOp f iop x y else floatOp f vop x y) a b

/-- A comparison of R102: all ones or zero. -/
def cmp2 (f : Nat) (iop : Int → Int → Bool) (vop : Val → Val → Bool) (a b : Opd) : List Nat :=
  lanes2 f (fun x y =>
    let r := if isInt f then iop (sext x (fmtBits f)) (sext y (fmtBits f)) else vop (decodeFloat f x) (decodeFloat f y)
    if r then onesOf f else 0) a b

/-- A function of one operand of R102. -/
def arith1 (f : Nat) (iop : Int → Int) (vop : Val → Val) (a : Opd) : List Nat :=
  (laneElems f a).map fun x =>
    if isInt f then toTwos (satInt (iop (sext x (fmtBits f))) (fmtBits f)) (fmtBits f)
    else roundTo f (vop (decodeFloat f x))

/-- VSHL: the low bits of the shifted value (R102). -/
def shl2 (f : Nat) (a b : Opd) : List Nat :=
  lanes2 f (fun x y => (x <<< (y % fmtBits f)) % 2 ^ fmtBits f) a b

/-- VSHR: the arithmetic shift (R102). -/
def shr2 (f : Nat) (a b : Opd) : List Nat :=
  lanes2 f (fun x y => toTwos (sext x (fmtBits f) / (2 : Int) ^ (y % fmtBits f)) (fmtBits f)) a b

/-- One level of the tree of R103. -/
def pairUp (op : Nat → Nat → Nat) : List Nat → List Nat
  | x :: y :: rest => op x y :: pairUp op rest
  | l => l

/-- The tree of R103 over 16 lanes, its value in lane 0 and +0 in the others. -/
def reduce16 (f : Nat) (op : Nat → Nat → Nat) (a : Opd) : List Nat :=
  let l := pairUp op (pairUp op (pairUp op (pairUp op (laneElems f a))))
  nth l 0 0 :: List.replicate 15 0

/-- The element-wise operations, functions and reductions of Table 4.2: the codes produced, in the entry's format. -/
def elementwise (op f : Nat) (a b : Opd) : List Nat :=
  match op with
  | 0x02 => arith2 f (· + ·) vAdd a b
  | 0x03 => arith2 f (· - ·) (fun x y => vAdd x (vNeg y)) a b
  | 0x04 => arith2 f (· * ·) vMul a b
  | 0x05 => arith2 f min vMin a b
  | 0x06 => arith2 f max vMax a b
  | 0x07 => arith1 f (fun x => x.natAbs) vAbs a
  | 0x08 => arith1 f (fun x => -x) vNeg a
  | 0x09 => cmp2 f (fun x y => decide (y < x)) (fun x y => vLt y x) a b
  | 0x0A => cmp2 f (fun x y => decide (x = y)) vEq a b
  | 0x0E => shl2 f a b
  | 0x0F => shr2 f a b
  | 0x10 => arith1 f id vRcp a
  | 0x11 => arith1 f id vRsqrt a
  | 0x12 => arith1 f id vExp2 a
  | 0x13 => arith1 f id vLog2 a
  | 0x14 => reduce16 f (fun x y => if isInt f then intOp f (· + ·) x y else floatOp f vAdd x y) a
  | 0x15 => reduce16 f (fun x y => if isInt f then intOp f max x y else floatOp f vMax x y) a
  | _ => []

/-! ## Converts (R82-R93, R105-R110) -/

/-- The rounding of a convert for a lane (Table 3.4): draws are the random integers of the lanes. -/
def rndOf (flag : Nat) (draws : List Nat) (j : Nat) : Rnd :=
  match flag % 4 with
  | 0 => .rne
  | 1 => .rtz
  | _ => .sr (nth draws j 0)

/-- The wide side of a convert (Table 3.4). -/
def wideFmt (flag : Nat) : Nat := if bit flag 3 then fInt32 else fBinary32

/-- The values of the 16 lanes of the wide side of an operand. -/
def wideVals (flag : Nat) (o : Opd) : List Val := (elems o.data.toNat 32 16).map (decodeElem (wideFmt flag))

/-- Values converted to a format lane by lane. -/
def convList (f : Nat) (flag : Nat) (draws : List Nat) (vs : List Val) : List Conv :=
  vs.zipIdx.map fun (v, j) => convElem f (bit flag 2) (rndOf flag draws j) v

/-- CVT.W and CVT.WB: the 16 elements of group g widened, with the scale of each lane (R93, R105). -/
def widen (f flag g : Nat) (scaled : Bool) (draws : List Nat) (a b : Opd) : List Conv :=
  (List.range 16).map fun j =>
    let i := 16 * g + j
    if fmtBits f = 6 ∧ i ≥ 85 then { code := 0 }
    else
      let v := decodeElem f (elem a.data.toNat (fmtBits f) i)
      let v := if scaled then
          let x := elem b.data.toNat 8 (i / 32)
          if x = 0xFF then .nan else vScale v ((x : Int) - 127)
        else v
      convElem (wideFmt flag) (bit flag 2) (rndOf flag draws j) v

/-- floor(log2 |v|) of a finite non-zero value. -/
def valExp : Val → Option Int
  | .fin _ m e => if m = 0 then none else some ((log2 m : Int) + e)
  | _ => none

/-- The block scale of R91. -/
def blockScale (f : Nat) (vs : List Val) : Nat :=
  if vs.any (fun v => match v with | .fin _ _ _ => false | _ => true) then 0xFF
  else match vs.filterMap valExp with
    | [] => 0
    | x :: rest => (max (-127) (min (rest.foldl max x - fmtEmax f) 127) + 127).toNat

/-- The elements of CVT.NB under scale x (R92). -/
def blockElems (f flag x : Nat) (draws : List Nat) (vs : List Val) : List Conv :=
  if x = 0xFF then vs.map fun _ => { code := 0, nan := true }
  else convList f flag draws (vs.map fun v => vScale v (127 - (x : Int)))

/-- A code is a zero of its format (R78, R112). -/
def codeIsZero (f c : Nat) : Bool := vIsZero (decodeElem f c)

/-- Magnitude order of R130: a NaN above every number. -/
def magGt (f a b : Nat) : Bool :=
  let va := vAbs (decodeElem f a)
  let vb := vAbs (decodeElem f b)
  (vIsNan va && !vIsNan vb) || vLt vb va

/-- Index of the largest of some positions of a group by magnitude, ties to the lower. -/
def argMax (f : Nat) (g : List Nat) : List Nat → Nat
  | [] => 0
  | [i] => i
  | i :: rest => let j := argMax f g rest; if magGt f (nth g j 0) (nth g i 0) then j else i

/-- One group of four in 2:4 compression (R110, R130): mask, the two values, non-zeros dropped, overfull. -/
def compressGroup (f : Nat) (prune : Bool) (g : List Nat) : Nat × List Nat × Nat × Bool :=
  let nz := (List.range 4).filter fun i => !codeIsZero f (nth g i 0)
  let zs := (List.range 4).filter fun i => codeIsZero f (nth g i 0)
  let keep :=
    if nz.length ≤ 2 then nz ++ zs.take (2 - nz.length)
    else if prune then
      let i := argMax f g nz
      [i, argMax f g (nz.filter (· ≠ i))]
    else nz.take 2
  let idx := (List.range 4).filter fun i => keep.contains i
  ((idx.map fun i => 2 ^ i).sum, idx.map fun i => nth g i 0, nz.length - 2, decide (nz.length > 2))

/-- Cut a list into groups of four. -/
def groups4 : List Nat → List (List Nat)
  | a :: b :: c :: d :: rest => [a, b, c, d] :: groups4 rest
  | _ => []

/-! ## Observation (R112) -/

/-- Elements, zeros and groups of four with at least two zeros of an observed set; the format 0 observes 32-bit lanes by
their bits. -/
def observe (f : Nat) (cs : List Nat) : Nat × Nat × Nat :=
  let z := cs.map fun c => if f = 0 then decide (c = 0) else codeIsZero f c
  let zn := z.map b2n
  (z.length, zn.sum, ((groups4 zn).filter fun g => decide (g.sum ≥ 2)).length)

/-! ## Buffers -/

/-- VEC_PACK holds for the entry on the buffers as every earlier entry leaves them (R109). -/
def vecFault (v : VBuf) (e : TabEntry) : Bool :=
  let op := eCuop e
  let f := eCufmt e
  let n := if op = 0x21 then 2 else 1
  let limit := if op = 0x21 then groupsScaled f else groupsOf f
  (decide (op = 0x20 ∨ op = 0x21 ∨ op = 0x30 ∨ op = 0x31)
    && (decide (v.pkg + n > limit) || decide (v.pkg ≠ 0 ∧ v.pkfmt ≠ f)))
  || (decide (op = 0x21) && decide (v.skp ≥ 64))
  || (decide (op = 0x30 ∨ op = 0x31) && decide (v.mkp ≥ 16))

/-- Codes written into the pack buffer at group PKG (R106). -/
def packPut (v : VBuf) (f n : Nat) (cs : List Nat) (poison : Bool) : VBuf :=
  let w := fmtBits f
  { v with
    pack := BitVec.ofNat 512 (setFld v.pack.toNat (w * 16 * v.pkg) (w * cs.length) (joinElems w cs))
    pkfmt := if v.pkg = 0 then f else v.pkfmt
    pkg := v.pkg + n
    packPoison := v.packPoison || poison }

/-- What a vector entry produces: the buffers after it, what V6 will count, and the unit it emits with its poison; for a
segment the slot offset from CUR. -/
structure VecOut where
  buf : VBuf
  fx : VecFx := {}
  out : Option (Unit512 × Bool) := none
  segOfs : Option Nat := none
  deriving DecidableEq, Repr

/-- Saturations and lost NaNs of a list of converts (R86). -/
def convCounts (cs : List Conv) : Nat × Nat :=
  ((cs.filter (·.sat)).length, (cs.filter (·.nan)).length)

/-- The pack buffer emitted when DST is not 0 (R106). -/
def packEmit (e : TabEntry) (v : VBuf) (fx : VecFx) : VecOut :=
  let fx := { fx with packWrite := true }
  if eDst e = 0 then { buf := v, fx := fx }
  else { buf := { v with pack := 0, pkg := 0, packPoison := false }
         fx := { fx with packEmit := true }, out := some (v.pack, v.packPoison) }

/-- An operation whose result leaves as one unit. DESIGN CHOICE: with DST 0 nothing is written or observed, and a CVT.W or CVT.WB
still counts its saturations and lost NaNs (notes/assumptions/128). -/
def plainOut (e : TabEntry) (v : VBuf) (f : Nat) (cs : List Nat) (fx : VecFx) (u : Unit512) (poison : Bool) : VecOut :=
  if eDst e = 0 then { buf := v, fx := fx }
  else
    let (n, z, q) := observe f cs
    { buf := v, fx := { fx with elems := n, zeros := z, z24 := q }, out := some (u, poison) }

/-- The pair of R131: value in the low half, index in the high half. DESIGN CHOICE: POS is read as an unsigned number, and an
index above 0xFFFF is held at 0xFFFF; the spec does not give the index of a negative POS (notes/assumptions/129). -/
def segPair (pos j c : Nat) : BitVec 32 :=
  BitVec.ofNat 32 (c % 65536 + (min (pos + j) 0xFFFF) <<< 16)

/-- CMP.SEG (R111). -/
def cmpSeg (v : VBuf) (f : Nat) (cs : List Nat) (poison : Bool) (fx : VecFx) : VecOut :=
  let pairs := (cs.zipIdx.filter fun (c, _) => !codeIsZero f c).map fun (c, j) => segPair v.pos.toNat j c
  let all := v.pend ++ pairs
  let pos := v.pos + 16
  if all.length ≥ 16 then
    { buf := { v with pend := all.drop 16, pos := pos, segcnt := v.segcnt + 1, segPoison := false }
      fx := { fx with segWrite := true }
      out := some (BitVec.ofNat 512 (joinElems 32 ((all.take 16).map (·.toNat))), v.segPoison || poison)
      segOfs := some v.segcnt.toNat }
  else { buf := { v with pend := all, pos := pos, segPoison := v.segPoison || poison }
         fx := { fx with segWrite := true } }

/-- CMP.FLUSH (R111). -/
def cmpFlush (v : VBuf) : VecOut :=
  if v.pend = [] then { buf := v, fx := { segWrite := true } }
  else
    { buf := { v with pend := [], segcnt := v.segcnt + 1, segPoison := false }
      fx := { segWrite := true }
      out := some (BitVec.ofNat 512 (joinElems 32 (v.pend.map (·.toNat))), v.segPoison)
      segOfs := some v.segcnt.toNat }

/-- The values of a 2:4 compression that the pack buffer takes: all 16, or in FP6 group 5 the first five, whose bits fit below
the two that R76 keeps zero (DESIGN CHOICE: R106 states the cut for CVT.N alone; notes/assumptions/130). -/
def packFit (v : VBuf) (f : Nat) (cs : List Nat) : List Nat := if fmtBits f = 6 ∧ v.pkg = 5 then cs.take 5 else cs

/-- CMP.24P and CMP.24F (R110, R130). -/
def cmp24 (e : TabEntry) (v : VBuf) (cs : List Conv) (poison : Bool) : VecOut :=
  let f := eCufmt e
  let prune := decide (eCuop e = 0x30)
  let codes := cs.map (·.code)
  let gs := (groups4 codes).map (compressGroup f prune)
  let ovf := (gs.zipIdx.filter fun (g, _) => g.2.2.2).map (·.2)
  let bad := poison || (!prune && decide (ovf ≠ []))
  let masks := joinElems 4 (gs.map (·.1))
  let (n, z, q) := observe f codes
  let (sat, nan) := convCounts cs
  let v := packPut v f 1 (packFit v f (gs.map (·.2.1)).flatten) bad
  let v := { v with mask := BitVec.ofNat 512 (setFld v.mask.toNat (32 * v.mkp) 32 masks), mkp := v.mkp + 1
                    maskPoison := v.maskPoison || bad }
  packEmit e v
    { elems := n, zeros := z, z24 := q, sat := sat, nans := nan
      prune := if prune then (gs.map (·.2.2.1)).sum else 0
      overflowGroup := if prune then none else ovf.head? }

/-- The random integers of the lanes from operand A and from operand B (R89, R108). -/
def draws (seed x y sec n : Nat) : List Nat × List Nat :=
  let ws := (List.range 16).map (srWord seed x y sec n)
  (ws.map (· >>> 40), ws.map fun w => fld w 16 24)

/-- What a vector entry does to the compressor and what it sends, given its operands (R100-R112). DESIGN CHOICE: CMP.SEG counts
the saturations and lost NaNs of all 16 lanes, those it does not append included, and poison of operand B of CMP.RESET
changes nothing (notes/assumptions/128, 131). -/
def vecFire (v : VBuf) (e : TabEntry) (a b : Opd) (da db : List Nat) : VecOut :=
  let op := eCuop e
  let f := eCufmt e
  let fl := eCuflag e
  let poison := (vecUsesA op && a.poison) || (vecUsesB op && b.poison)
  let bits512 := fun (d : Unit512) => plainOut e v 0 (elems d.toNat 32 16) {} d poison
  if op = 0x01 then bits512 a.data
  else if op = 0x0B then bits512 (a.data &&& b.data)
  else if op = 0x0C then bits512 (a.data ||| b.data)
  else if op = 0x0D then bits512 (a.data ^^^ b.data)
  else if op ≤ 0x15 then
    let cs := elementwise op f a b
    plainOut e v f cs {} (unitOf f cs) poison
  else if op ≤ 0x1F ∨ (0x28 ≤ op ∧ op ≤ 0x2F) then
    let cs := widen f fl (op % 8) (decide (op ≥ 0x28)) da a b
    let (sat, nan) := convCounts cs
    let codes := cs.map (·.code)
    plainOut e v (wideFmt fl) codes { sat := sat, nans := nan } (unitOf fInt32 codes) poison
  else if op = 0x20 then
    let cs := convList f fl da (wideVals fl a)
    let cs := if fmtBits f = 6 ∧ v.pkg = 5 then cs.take 5 else cs
    let codes := cs.map (·.code)
    let (n, z, q) := observe f codes
    let (sat, nan) := convCounts cs
    packEmit e (packPut v f 1 codes poison) { elems := n, zeros := z, z24 := q, sat := sat, nans := nan }
  else if op = 0x21 then
    let vs := wideVals fl a ++ wideVals fl b
    let x := blockScale f vs
    let cs := blockElems f fl x (da ++ db) vs
    let codes := cs.map (·.code)
    let (n, z, q) := observe f codes
    let (sat, nan) := convCounts cs
    let v := packPut v f 2 codes poison
    let v := { v with scale := BitVec.ofNat 512 (setFld v.scale.toNat (8 * v.skp) 8 x), skp := v.skp + 1
                      scalePoison := v.scalePoison || poison }
    packEmit e v { elems := n, zeros := z, z24 := q, sat := sat, nans := nan }
  else if op = 0x22 then
    { buf := { v with scale := 0, skp := 0, scalePoison := false }, out := some (v.scale, v.scalePoison) }
  else if op = 0x23 then
    { buf := { v with mask := 0, mkp := 0, maskPoison := false }, out := some (v.mask, v.maskPoison) }
  else if op = 0x30 ∨ op = 0x31 then
    cmp24 e v (convList f fl (da ++ db) (wideVals fl a ++ wideVals fl b)) poison
  else if op = 0x38 then
    let cs := convList f fl da (wideVals fl a)
    let codes := cs.map (·.code)
    let (n, z, q) := observe f codes
    let (sat, nan) := convCounts cs
    cmpSeg v f codes poison { elems := n, zeros := z, z24 := q, sat := sat, nans := nan }
  else if op = 0x39 then cmpFlush v
  else if op = 0x3A then { buf := v, out := some (BitVec.ofNat 512 v.segcnt.toNat, false) }
  else
    { buf := { v with pend := [], segcnt := 0
                      pos := if eSrcb e = 0 then 0 else BitVec.ofNat 32 (fld b.data.toNat 0 32) } }

end Sys2Proof.Machine
end

