-- ==== Sys2Proof/Machine/TabUnit.lean ====
section
/-!
DEFINITION. Machine/TabUnit: work in flight and its landing, the firing guard, firing, slips, idle cycles (R18-R39).
-/
namespace Sys2Proof.Machine

/-- What surrounds a tile in one of its cycles: the device cycle in which it begins, whether the quadrant clock is
stretched and whether the issue mask allows array issue there, and the tile's logical coordinate. -/
structure TileEnv where
  core : Nat
  stretched : Bool := false
  mask : Bool := true
  x : Nat
  y : Nat
  deriving DecidableEq, Repr

/-- Raise an event of Table 11.5 at a tile. -/
def tileEvent (core : Nat) (c : EvCode) (sub detail : Nat) (t : Tile) : Tile := tileRaise t (mkEv c sub detail core)

/-- The tile halts with an UNCORRECTED event (R29). -/
def haltWith (core : Nat) (c : EvCode) (sub detail : Nat) (t : Tile) : Tile :=
  tileEvent core c sub detail { t with tab := { t.tab with st := .halted, delaying := false } }

/-- A RUNNING tile halts with an event; in another state only the event is raised (R167, R170, R173). -/
def haltIfRunning (core : Nat) (c : EvCode) (sub detail : Nat) (t : Tile) : Tile :=
  if t.tab.st = .running then haltWith core c sub detail t else tileEvent core c sub detail t

/-- A tile that is not HALTED halts with an event; a HALTED one raises it (R302). -/
def haltAny (core : Nat) (c : EvCode) (sub detail : Nat) (t : Tile) : Tile :=
  if t.tab.st = .halted then tileEvent core c sub detail t else haltWith core c sub detail t

/-! ## Semaphores (R28, R171-R173) -/

/-- A remote addition of a device cycle: all of a cycle's additions to one semaphore stand or fall together. -/
def remoteAdd (core id k : Nat) (t : Tile) : Tile :=
  let s := mget {} t.mu.sems id
  let s := if s.at_ = core + 1 then s else { s with at_ := core + 1, added := 0, refused := 0 }
  let put := fun (s : Sem) (t : Tile) => { t with mu := { t.mu with sems := mset {} t.mu.sems id s } }
  if s.refused = 0 ∧ s.val.toNat + k ≤ s.cap.toNat then
    put { s with val := BitVec.ofNat 16 (s.val.toNat + k), added := s.added + k } t
  else
    let total := s.added + s.refused + k
    haltIfRunning core .semOverflow id total
      (put { s with val := BitVec.ofNat 16 (s.val.toNat - s.added), added := 0, refused := total } t)

/-- Steps of an advance of a linked arrival counter: its count after it and the additions it signals (R170). -/
def acntAdvance (count quantum k : Nat) : Nat × Nat := ((count + k) % quantum, (count + k) / quantum)

/-- An arrival counter advances by k (R170). -/
def advanceAcnt (core i k : Nat) (t : Tile) : Tile :=
  let a := mget {} t.mu.acnt i
  let put := fun (c : Nat) (t : Tile) =>
    { t with mu := { t.mu with acnt := mset {} t.mu.acnt i { a with count := BitVec.ofNat 24 c } } }
  if a.quantum = 0 then
    if a.count.toNat + k > 2 ^ 24 - 1 then haltIfRunning core .arrivalOverflow i (a.count.toNat) t
    else put (a.count.toNat + k) t
  else
    let (c, n) := acntAdvance a.count.toNat a.quantum.toNat k
    let t := put c t
    if n = 0 then t else remoteAdd core a.semid.toNat n t

/-! ## Work in flight -/

/-- Work enters flight, in the order of the cycles in which it lands and among equals in firing order (R30, R61). -/
def addFlight : List Flight → Flight → List Flight
  | [], f => [f]
  | g :: rest, f => if f.vis < g.vis then f :: g :: rest else g :: addFlight rest f

/-- The emission of a flight, if it has one. -/
def flightEmit (f : Flight) : Option Emit :=
  match f.work with
  | .move e => some e
  | .drain _ e => some e
  | .vec e _ _ => e
  | .issue _ _ => none

/-- The flight holds a reservation of the MU write port for its landing cycle (R26, R111). -/
def flightReserves (f : Flight) : Bool :=
  (match f.work with
   | .vec _ fx _ => fx.segWrite
   | _ => false) ||
  (match flightEmit f with
   | some e => e.slot.isSome
   | none => false)

/-- A slot is in flight (R152). -/
def slotInFlight (t : Tile) (s : Nat) : Bool :=
  t.fly.any fun f => match flightEmit f with
    | some e => decide (e.slot = some s)
    | none => false

/-- Flits on their way to a channel's injection buffer, which hold a slot of it already (R201). -/
def emitsTo (t : Tile) (ch : Nat) : Nat :=
  (t.fly.filter fun f => match flightEmit f with
    | some e => if ch = 8 then e.scalar else decide (e.chan = some ch)
    | none => false).length

/-- Input number of an output channel; 8 is the scalar string. -/
def chanInput (ch : Nat) : Nat := 32 + ch

/-- VALID of a route entry. -/
def routeValid (t : Tile) (inp : Nat) : Bool := bit (mget 0 t.fret.route inp).toNat 0

/-- credits(outch), and scalar_credits for channel 8: window remaining and free injection slots (R201). -/
def credits (t : Tile) (ch : Nat) : Nat :=
  if routeValid t (chanInput ch) then
    min (mget 0 t.fret.win ch) (8 - (bufHeld t (chanInput ch) + emitsTo t ch))
  else 0

/-- A flit enters the local port (R197): it takes a slot of the injection buffer and becomes outstanding. -/
def inject (core : Nat) (x y ch : Nat) (data : Unit512) (poison last : Bool) (t : Tile) : Tile :=
  let fr := t.fret
  let n := mget 0 fr.num ch
  let inp := chanInput ch
  let r := (mget 0 fr.route inp).toNat
  let pad := if ch = 8 then fld r 13 4 else fld r 27 6
  let f : Flit := { data := data, poison := poison, epoch := t.tab.epoch, last := last
                    str := { x := x, y := y, ch := ch }, num := n, ready := core + pad, arr := true }
  let q := mget [] fr.bufs inp ++ [f]
  let n' := bufHeld { t with fret := { fr with bufs := mset [] fr.bufs inp q } } inp
  let h := fr.hwm.toNat
  let h := if ch = 8 then setFld h 27 4 (max (fld h 27 4) n') else setFld h 16 4 (max (fld h 16 4) n')
  { t with fret := { fr with num := mset 0 fr.num ch (n + 1), bufs := mset [] fr.bufs inp q
                             outst := fr.outst ++ [{ ch := ch, num := n, pending := 1, due := 0 }]
                             hwm := BitVec.ofNat 31 h } }

/-- A result reaches its destinations: the scratchpad slot, the vector network, the scalar network. -/
def landEmit (core x y vis : Nat) (e : Emit) (t : Tile) : Tile :=
  let t := match e.slot with
    | some s =>
      { t with mu := { t.mu with
          slots := mmod {} t.mu.slots s (fun o => { o with data := e.data, poison := e.poison })
          wUsed := max t.mu.wUsed (vis + 1) } }
    | none => t
  let t := match e.chan with
    | some c => inject core x y c e.data e.poison e.last t
    | none => t
  if e.scalar then inject core x y 8 (e.data &&& 0xFFFFFFFF) e.poison false t else t

/-- Row additions land in an accumulator, one after the other. -/
def landRows (acc : SMap AccRow) (mismatch : Bool) : List RowAdd → SMap AccRow × Nat
  | [] => (acc, 0)
  | r :: rest =>
    let (acc, n) := landRow acc r mismatch
    let (acc, m) := landRows acc mismatch rest
    (acc, n + m)

/-- An issue lands with its residue check: a mismatch poisons the target row, counts once per column and raises one
DEFERRED event with the lowest column and the mask of columns (R70, R146). DESIGN CHOICE: a lane of a column that mismatches
takes the value of a column without a fault; the spec gives none, and the row is poisoned (notes/assumptions/132). -/
def landIssue (core : Nat) (k : IssueKind) (rows : List RowAdd) (mism : Nat) (t : Tile) : Tile :=
  let dense := decide (k = .arr)
  let t :=
    if dense then
      let (acc, n) := landRows t.arr.acc (mism ≠ 0) rows
      bump core .arrIntsat n { t with arr := { t.arr with acc := acc } }
    else
      let (acc, n) := landRows t.sp.acc (mism ≠ 0) rows
      bump core .spIntsat n { t with sp := { t.sp with acc := acc } }
  if mism = 0 then t
  else
    let t := bump core (if dense then .arrResidue else .spResidue) (popcount mism 64) t
    tileEvent core (if dense then .arrayResidue else .sparseResidue) (lowestBit mism 64) (mism % 2 ^ 64) t

/-- Poison of a pack write travels to the next emission of the pack buffer among the entries behind it, else stays in the
buffer (R114, R115). -/
def poisonPack : List Flight → VBuf → List Flight × VBuf
  | [], v => ([], { v with packPoison := true })
  | f :: rest, v =>
    match f.work with
    | .vec e fx b =>
      if fx.packEmit then
        ({ f with work := .vec (e.map fun x => { x with poison := true }) fx b } :: rest, v)
      else
        let (r, v') := poisonPack rest v
        ({ f with work := .vec e fx { b with packPoison := true } } :: r, v')
    | _ => let (r, v') := poisonPack rest v; (f :: r, v')

/-- A vector entry is in V6 (R98, R112, R114, R116). The mask names the lanes with a residue mismatch. A CMP.SEG or CMP.FLUSH
uses the write port whether or not it writes (R111). -/
def landVec (core x y vis : Nat) (e : Option Emit) (fx : VecFx) (b : VBuf) (mism : Nat) (t : Tile) : Tile :=
  let bad := decide (mism ≠ 0)
  let t := { t with vshow := b
                    mu := if fx.segWrite then { t.mu with wUsed := max t.mu.wUsed (vis + 1) } else t.mu }
  let t := if bad && fx.packWrite && !fx.packEmit then
      let (fl, v) := poisonPack t.fly t.vfire
      { t with vshow := { b with packPoison := true }, fly := fl, vfire := v }
    else t
  let t := bump core .vecElem fx.elems (bump core .vecZero fx.zeros (bump core .vecZ24 fx.z24
    (bump core .cmpPrune fx.prune (bump core .cvtSat fx.sat (bump core .cvtNan fx.nans t)))))
  let t := match fx.overflowGroup with
    | some g => tileEvent core .groupOverflow g vis t
    | none => t
  let t := if bad then
      tileEvent core .vectorResidue (lowestBit mism 16) (mism % 2 ^ 16) (bump core .vecResidue (popcount mism 16) t)
    else t
  match e with
  | some em => landEmit core x y vis { em with poison := em.poison || bad } t
  | none => t

/-- One flight lands. -/
def landFlight (core x y : Nat) (f : Flight) (mism : Nat) (t : Tile) : Tile :=
  match f.work with
  | .move e => landEmit core x y f.vis e t
  | .drain _ e => landEmit core x y f.vis e t
  | .issue k rows => landIssue core k rows mism t
  | .vec e fx b => landVec core x y f.vis e fx b mism t

/-- Contributions that tile cycle now sees land; they land at the end of the cycle before it (R61, R127, R135). -/
def settleIssues (core x y now : Nat) (t : Tile) : Tile :=
  let due := fun (f : Flight) => match f.work with
    | .issue _ _ => decide (f.vis ≤ now)
    | _ => false
  (t.fly.filter due).foldl (fun t f => landFlight core x y f 0 t) { t with fly := t.fly.filter fun f => !due f }

/-- Work whose landing cycle has been reached lands, in order, without an upset. -/
def settleFly (core x y now : Nat) : Nat → Tile → Tile
  | 0, t => t
  | n + 1, t =>
    match t.fly with
    | f :: rest => if f.vis ≤ now then settleFly core x y now n (landFlight core x y f 0 { t with fly := rest }) else t
    | [] => t

/-! ## Sparse steps (R137) -/

/-- The first tile cycle in which the completion of the open step is visible, once it is fixed (R137). -/
def stepDone (p : SpStep) : Option Nat :=
  match p.lastSeg with
  | none => none
  | some m =>
    if p.fallback then
      if p.issued ≥ stepChunks p then some (max (m + 1) (p.lastChunk + 40)) else none
    else some (m + 40)

/-- The step completes: S[SEMID] takes 1 and the step closes; a FALLBACK step counts its cycles. The device cycle is that of
the completion cycle, the one before it is visible, so that R28 judges the addition with the others of that cycle. -/
def completeStep (core done : Nat) (p : SpStep) (t : Tile) : Tile :=
  let t := { t with sp := { t.sp with step := none } }
  let t := if p.fallback then bump core .spFbcyc (done - p.begun) t else t
  remoteAdd core p.semid 1 t

/-- The device cycle in which tile cycle c - 1 began, for the cycle c about to be evaluated or a later one: the cycle whose
end makes an effect visible in cycle c. -/
def endCore (t : Tile) (c : Nat) : Nat :=
  if c ≤ t.tab.tc then t.tab.lastCore else t.tab.nextCore + (c - 1 - t.tab.tc)

/-- Completion of a step that has come due by tile cycle now. -/
def settleStep (now : Nat) (t : Tile) : Tile :=
  match t.sp.step with
  | none => t
  | some p => match stepDone p with
    | some d => if d ≤ now then completeStep (endCore t d) d p t else t
    | none => t

/-! ## Ends of cycles (R26, R166, R169, R170) -/

/-- A write held by FILLBLOCK counts as waiting from a tile cycle on, once its slot has been emptied (R158, R166). -/
def releaseSlot (slot c : Nat) (l : List MuWrite) : List MuWrite :=
  l.map fun w => if w.slot = slot then { w with since := max w.since c } else w

/-- What a write changes at the end of its cycle: the tag of a slot, an arrival counter. -/
def applyEnd (e : CycleEnd) (t : Tile) : Tile :=
  let t := match e.tag with
    | some (s, f) =>
      { t with mu := { t.mu with
          slots := mmod {} t.mu.slots s fun o => { o with full := f }
          ingress := if f then t.mu.ingress else releaseSlot s e.vis t.mu.ingress } }
    | none => t
  match e.count with
  | some (i, k) => advanceAcnt e.core i k t
  | none => t

/-- Ends of cycles that tile cycle now sees take effect. -/
def settleEnds (now : Nat) (t : Tile) : Tile :=
  (t.mu.ends.filter fun e => decide (e.vis ≤ now)).foldl (fun t e => applyEnd e t)
    { t with mu := { t.mu with ends := t.mu.ends.filter fun e => decide (now < e.vis) } }

/-- Everything that has come due by tile cycle now takes effect. -/
def settle (core x y now : Nat) (t : Tile) : Tile :=
  let t := settleEnds now t
  settleStep now (settleFly core x y now t.fly.length t)

/-! ## The firing guard (R25) -/

/-- Flits an entry emits (R25, R60, R98). -/
def flitsEmitted (t : Tile) (e : TabEntry) : Nat :=
  if !dstNet e then 0
  else if eUnit e = 1 ∧ eKind e = 14 then arrCols t.arr.mode.toNat / 16
  else if eUnit e = 3 ∧ eCuop e = 0x3B then 0
  else 1

/-- Tile cycles in which the entry's writes land when it fires in cycle n; none when it writes nothing. -/
def landCycles (t : Tile) (e : TabEntry) (n : Nat) : List Nat :=
  if !dstMu e then []
  else if eUnit e = 0 then [n + 1]
  else if eUnit e = 1 then (List.range (arrCols t.arr.mode.toNat / 16)).map fun m => n + 1 + m
  else if eUnit e = 2 then [n + 1]
  else if eCuop e = 0x3B then []
  else [n + 6]

/-- The pace cycles of a bulk operation still to be written (R158, R163). -/
def bulkCycle (b : Bulk) (c : Nat) : Bool :=
  let w := b.cmd.toNat
  let p := 2 ^ fld w 4 2
  let first := b.accepted + 7
  decide (first ≤ c) && decide ((c - first) % p = 0) && decide ((c - first) / p < fld w 30 12)
  && decide ((c - first) / p ≥ b.done)

/-- write_port_reserved(c): a tab reservation or an EXT mark (R159). -/
def writeReserved (t : Tile) (c : Nat) : Bool :=
  (t.fly.any fun f => decide (f.vis = c) && flightReserves f)
  || (t.mu.marks.any fun m => decide (m.cycle = c))
  || (match t.mu.bulk with
      | some b => bulkCycle b c
      | none => false)

/-- A packet read claims cycle n (R160). -/
def readClaimed (t : Tile) (n : Nat) : Bool :=
  (match t.mu.bulk with
   | some b => decide (fld b.cmd.toNat 0 2 = 2) && bulkCycle b (n + 1)
   | none => false)
  || (t.mu.reads.any fun r => r.claimed)

/-- The slot an entry reads and the slot its WRTAG judges (Table 1.6, R156). -/
def readSlot (t : Tile) (e : TabEntry) : Nat := agAddr t.mu.ag0 (eRdop e)
def writeSlot (t : Tile) (e : TabEntry) : Nat := agAddr t.mu.ag1 (eWrop e)

/-- Full and empty as the guard reads them (R152). -/
def slotFull (t : Tile) (s : Nat) : Bool := (mget {} t.mu.slots s).full && !slotInFlight t s
def slotEmpty (t : Tile) (s : Nat) : Bool := !(mget {} t.mu.slots s).full && !slotInFlight t s

/-- queue_count of R25. -/
def queueCount (t : Tile) (k : Nat) : Nat := (mget {} t.mu.queues k).flits.length

/-- A source lacks data (R25). -/
def srcEmpty (t : Tile) (e : TabEntry) (s : Nat) : Bool :=
  if s ≥ 8 then decide (queueCount t (s - 8) = 0)
  else if s = 2 then !t.tab.srxValid
  else if s = 1 then decide (eRdtag e ≠ 0) && !slotFull t (readSlot t e)
  else false

/-- A source that lacks data is a queue flagged in TAB_SKIPQ. -/
def srcSkip (t : Tile) (s : Nat) : Bool := decide (s ≥ 8) && bit t.tab.skipq.toNat (s - 8)

/-- The cause code of the slip of Table 1.7 when a term of the guard fails, in the order of R25; none when all hold. -/
def guardSlip (env : TileEnv) (t : Tile) (e : TabEntry) : Option Nat :=
  let empty := [eSrca e, eSrcb e].filter (srcEmpty t e)
  let s := mget {} t.mu.sems (eSemid e)
  let cs := landCycles t e t.tab.tc
  if env.stretched then some 6
  else if (eUnit e = 1 ∨ eUnit e = 2) ∧ !env.mask then some 5
  else if empty ≠ [] then (if empty.all (srcSkip t) then some 7 else some 1)
  else if (eSemop e = 1 ∨ eSemop e = 4) ∧ s.val.toNat < eSemval e then some 3
  else if flitsEmitted t e > credits t (eOutch e) then some 2
  else if eDst e = 4 ∧ credits t 8 = 0 then some 2
  else if eWrtag e = 2 ∧ !slotEmpty t (writeSlot t e) then some 2
  else if eRdop e ≠ 0 ∧ readClaimed t t.tab.tc then some 4
  else if eWrop e ≠ 0 ∧ cs.any (writeReserved t) then some 4
  else none

/-! ## Cycle accounting (R35-R39, R180) -/

/-- The dense array's clock is enabled in a tile cycle for the current entry (R39). -/
def arrayOn (t : Tile) (e : TabEntry) (c : Nat) : Bool := decide (eUnit e = 1) || decide (c < t.arr.busyTo)

/-- The vector pipeline's clock is enabled for the current entry: UNIT 3, or a result of any unit in one of its stages (R39).
No counter of the tile records it. -/
def vectorOn (t : Tile) (e : TabEntry) : Bool :=
  decide (eUnit e = 3) || t.fly.any fun f => match f.work with
    | .vec _ _ _ => true
    | _ => false

/-- The sparse engine's clock is enabled in a tile cycle for the current entry (R39). -/
def sparseOn (t : Tile) (e : TabEntry) (c : Nat) : Bool :=
  decide (eUnit e = 2) || decide (c < t.sp.busyTo)
  || (match t.sp.step with
      | some p => p.fallback
      | none => false)

/-- One counted tile cycle passes (R35, R39, R372). -/
def countCycle (env : TileEnv) (e : TabEntry) (t : Tile) : Tile :=
  let a := b2n (arrayOn t e t.tab.tc)
  let s := b2n (sparseOn t e t.tab.tc)
  let t := bump env.core .arrayOn a (bump env.core .sparseOn s t)
  { t with tab := { t.tab with cycle := t.tab.cycle + 1, tc := t.tab.tc + 1, lastCore := env.core
                               nextCore := env.core + (if env.stretched then 2 else 1) } }

/-- A slip of a cause (R33, R180). -/
def slip (env : TileEnv) (e : TabEntry) (cause : Nat) (t : Tile) : Tile :=
  let t := countCycle env e t
  let t := bump env.core .slipTotal 1 (bump env.core (.slip cause) 1 t)
  let hold := decide (cause = 5 ∨ cause = 6)
  { t with tab := { t.tab with
      lastCause := BitVec.ofNat 3 cause
      wdHold := t.tab.wdHold || hold
      wdCount := if hold then t.tab.wdCount else min (t.tab.wdCount + 1) 0xFFFFFFFF } }

/-! ## Firing (R26, R28, R29) -/

/-- An operand as its source supplies it (Table 1.4); source 2 is in every lane (R99). -/
def readSrc (t : Tile) (e : TabEntry) (s : Nat) : Opd :=
  if s = 1 then
    let o := mget {} t.mu.slots (readSlot t e)
    { data := o.data, poison := o.poison }
  else if s = 2 then
    { data := BitVec.ofNat 512 (joinElems 32 (List.replicate 16 t.tab.srx.toNat)), poison := t.tab.srxPoison }
  else if s ≥ 8 then
    match (mget {} t.mu.queues (s - 8)).flits with
    | f :: _ => { data := f.data, poison := f.poison }
    | [] => {}
  else {}

/-- The operand with the upsets of this read: a double-bit error of the slot, an uncorrectable flit (R154, R302). -/
def upsetOpd (u : Upset) (s : Nat) (o : Opd) : Opd :=
  { o with poison := o.poison || (decide (s = 1) && decide (u.spad = .double)) || (decide (s ≥ 8) && u.flit) }

/-- What an upset of the read slot does to the tile (R154). -/
def spadUpset (core : Nat) (e : Ecc) (s : Nat) (t : Tile) : Tile :=
  match e with
  | .clean => t
  | .single => tileEvent core .spadCorrected 0 s t
  | .double =>
    tileRaise { t with mu := { t.mu with slots := mmod {} t.mu.slots s (fun o => { o with poison := true }) } }
      { mkEv .spadUncorrected 0 s core with fresh := !(mget {} t.mu.slots s).poison }

/-- The semaphore operation of SEMOP or SEM2OP on one semaphore as addition and subtraction (R28). -/
def semDelta (e : TabEntry) : List (Nat × Nat × Nat) :=
  (match eSemop e with
   | 2 => [(eSemid e, eSemval e, 0)]
   | 3 => [(eSemid e, 0, eSemval e)]
   | 4 => [(eSemid e, 0, eSemval e)]
   | _ => []) ++
  (match eSem2op e with
   | 1 => [(eSem2id e, eSem2val e, 0)]
   | 2 => [(eSem2id e, 0, eSem2val e)]
   | _ => [])

/-- The fault of the entry's semaphore operations, with its semaphore (R28, R173). -/
def semFault (t : Tile) (e : TabEntry) : Option (EvCode × Nat) :=
  (semDelta e).findSome? fun (id, a, d) =>
    let s := mget {} t.mu.sems id
    if s.val.toNat < d then some (.semUnderflow, id)
    else if s.val.toNat + a - d > s.cap.toNat ∧ a ≠ 0 then some (.semOverflow, id)
    else none

/-- The semaphores after the entry's operations (R28). -/
def semApply (t : Tile) (e : TabEntry) : Tile :=
  { t with mu := { t.mu with sems := (semDelta e).foldl (fun m (id, a, d) =>
      mmod {} m id fun s => { s with val := BitVec.ofNat 16 (s.val.toNat + a - d) }) t.mu.sems } }

/-- The fault of the unit's operation at fire (R52, R109, R123). SUB and DETAIL of the three records are not stated, and
EVENT_RECORD makes them free values (notes/assumptions/79). -/
def unitFault (t : Tile) (e : TabEntry) (b : Opd) : Option EvCode :=
  if eUnit e = 1 then (if arrayFault t.arr e then some .arrayFormat else none)
  else if eUnit e = 2 then (if sparseFault t.sp e b then some .sparseState else none)
  else if eUnit e = 3 then (if vecFault t.vfire e then some .vecPack else none)
  else none

/-- Slots an entry's write targets in landing order, given the segment offset of a CMP.SEG, and AG1 after it. -/
def writeTargets (t : Tile) (e : TabEntry) (seg : Option Nat) : List Nat × AddrGen :=
  let g := t.mu.ag1
  if !dstMu e then ([], g)
  else if eUnit e = 1 ∧ arrCols t.arr.mode.toNat > 16 then agRun g (arrCols t.arr.mode.toNat / 16)
  else if eUnit e = 3 ∧ (eCuop e = 0x38 ∨ eCuop e = 0x39) then
    ((match seg with
      | some k => [agWrap g (g.cur.toNat + k)]
      | none => []), g)
  else if eUnit e = 3 ∧ eCuop e = 0x3B then ([], agStep g (eWrop e))
  else ([agAddr g (eWrop e)], agStep g (eWrop e))

/-- An emission of the entry for one unit of data: to the slot given, the channel, the scalar string, as DST states. -/
def mkEmit (e : TabEntry) (slot : Option Nat) (d : Unit512) (poison last : Bool) : Emit :=
  { slot := slot, chan := if dstNet e then some (eOutch e) else none, scalar := decide (eDst e = 4)
    data := d, poison := poison, last := last && eLastm e }

/-- A dense array entry at fire. -/
def fireArray (env : TileEnv) (e : TabEntry) (a b : Opd) (slots : List Nat) (t : Tile) : Tile :=
  let n := t.tab.tc
  let mode := t.arr.mode.toNat
  let fx := arrayFire t.arr e a b n
  let t := { t with arr := fx.u }
  let t := if fx.discard then
      { t with fly := t.fly.filter fun f => match f.work with
          | .issue .arr _ => false
          | _ => true }
    else t
  let t := bump env.core .zgate fx.gated t
  let t := match fx.issue with
    | some r =>
      { bump env.core .arrIssue 1 t with
        fly := addFlight t.fly { vis := n + arrLatency mode, work := .issue .arr [r] } }
    | none => t
  match fx.drain with
  | some r =>
    let us := drainUnits mode r
    let fs : List Flight := us.zipIdx.map fun (d, m) =>
      ⟨n + 1 + m, .drain false (mkEmit e slots[m]? d r.poison (decide (m + 1 = us.length)))⟩
    { t with fly := fs.foldl addFlight t.fly }
  | none => t

/-- A SEG or chunk issue's counts, its INDEX_BOUNDS event, and its flight (R134, R136). DESIGN CHOICE: the event names the first
pair skipped by its lane in SUB and its index (for a chunk, the position 16 i + j) in DETAIL; no table gives its fields
(notes/assumptions/133). -/
def fireSegFx (core : Nat) (k : IssueKind) (fx : SegFx) (vis : Nat) (t : Tile) : Tile :=
  let t := bump core .spIssue 1 (bump core .spPairs fx.pairs (bump core .spBounds fx.skipped.length
    (bump core .spZgate fx.gated t)))
  let t := match fx.skipped with
    | (j, i) :: _ => tileEvent core .indexBounds j i t
    | [] => t
  { t with fly := addFlight t.fly { vis := vis, work := .issue k fx.rows }
           sp := { t.sp with busyTo := max t.sp.busyTo vis } }

/-- LOAD of the sparse engine at fire (R125). -/
def fireColumn (e : TabEntry) (b : Opd) (u : SparseUnit) : SparseUnit :=
  let (bk, l) := colLoad (eCufmt e) (eG e) u.lcol u.shadow b
  { u with shadow := bk, lcol := l }

/-- The columns of a LOADM whose masks have a group with more than two bits set (R128). -/
def loadmBad (e : TabEntry) (b : Opd) (u : SparseUnit) : List (Nat × BitVec 64) :=
  (loadmMasks (bankDouble u.shadow) (eG e) b).filter fun (_, m) => decide (overGroups (bankDouble u.shadow) m ≠ [])

/-- The masks of a LOADM with more than two bits set: the 4-bit masks of the groups of its columns (R124, Table 5.8). -/
def loadmOver (e : TabEntry) (b : Opd) (u : SparseUnit) : Nat :=
  ((loadmBad e b u).map fun (_, m) => (overGroups (bankDouble u.shadow) m).length).sum

/-- LOADM at fire (R125, R128). -/
def fireLoadm (core : Nat) (e : TabEntry) (b : Opd) (t : Tile) : Tile :=
  let u := t.sp
  let ms := loadmMasks (bankDouble u.shadow) (eG e) b
  let bad := loadmBad e b u
  let t := bump core .spGrovf (loadmOver e b u) { t with sp := { u with shadow := { u.shadow with
      masks := msetAll 0 u.shadow.masks ms, poison := u.shadow.poison || b.poison } } }
  match bad with
  | (c, m) :: _ => tileEvent core .groupOverflow c ((overGroups (bankDouble u.shadow) m).headD 0) t
  | [] => t

/-- MAC of the sparse engine at fire (R126): a swap first, then the issue, then the load. -/
def fireMac24 (core : Nat) (e : TabEntry) (a b : Opd) (t : Tile) : Tile :=
  let n := t.tab.tc
  let u := if eFlag2 e then { swapSp t.sp with ap := 0 } else t.sp
  let (r, g) := issue24 u e a
  let u := { u with ap := (u.ap + 1) % 64, busyTo := max u.busyTo (n + 36), mac24At := n + 1 }
  let u := if eSrcb e = 0 then u else fireColumn e b u
  let t := bump core .spIssue 1 (bump core .spZgate g { t with sp := u })
  { t with fly := addFlight t.fly { vis := n + 36, work := .issue .mac24 [r] } }

/-- BEGIN at fire (R133). -/
def fireBegin (core : Nat) (a b : Opd) (t : Tile) : Tile :=
  let u := beginFire t.sp a b t.tab.tc
  let fb := match u.step with
    | some p => p.fallback
    | none => false
  bump core .spFallback (b2n fb) { t with sp := u }

/-- SEG at fire (R134): a real issue while the step is SPARSE and segments are left, else a pad. -/
def fireSeg (core : Nat) (a : Opd) (t : Tile) : Tile :=
  let n := t.tab.tc
  let u := t.sp
  match u.step with
  | none => t
  | some p =>
    let p' := { p with segn := p.segn + 1
                       lastSeg := if p.segn + 1 = p.budget then some n else p.lastSeg }
    let t := { t with sp := { u with step := some p', busyTo := max u.busyTo (n + 40) } }
    if !p.fallback ∧ p.segn < p.count then fireSegFx core .seg (segIssue u p a) (n + 40) t
    else bump core .spPad 1 (bump core .spZgate 256 t)

/-- DRAIN of the sparse engine at fire (R141). -/
def fireSpDrain (core : Nat) (e : TabEntry) (slots : List Nat) (t : Tile) : Tile :=
  let n := t.tab.tc
  let u := t.sp
  let dp := if eFlag2 e then 0 else u.dp
  let r := mget {} u.acc dp
  let (d, poison, sat) := spDrainUnit u.frame (decide (eFlagLow e = 1)) r
  let u := { u with dp := (dp + 1) % 64, acc := if eFlag3 e then mset {} u.acc dp {} else u.acc
                    busyTo := max u.busyTo (n + 2) }
  let t := bump core .spFixsat sat { t with sp := u }
  { t with fly := addFlight t.fly ⟨n + 1, .drain true (mkEmit e slots.head? d poison true)⟩ }

/-- A sparse engine entry at fire. -/
def fireSparse (env : TileEnv) (e : TabEntry) (a b : Opd) (slots : List Nat) (t : Tile) : Tile :=
  let k := eKind e
  if k = 1 then { t with sp := fireColumn e b t.sp }
  else if k = 2 then fireLoadm env.core e b t
  else if k = 3 then { t with sp := sparseLoadsc t.sp e b }
  else if k = 4 then { t with sp := swapSp t.sp }
  else if k = 5 then fireMac24 env.core e a b t
  else if k = 6 then { t with sp := gload t.sp e b }
  else if k = 7 then fireBegin env.core a b t
  else if k = 8 then fireSeg env.core a t
  else fireSpDrain env.core e slots t

/-- Operands of a vector entry: the sources, or accumulator parts when SRCA is 0 (R104). -/
def vecOperands (t : Tile) (e : TabEntry) (a b : Opd) : Opd × Opd × ArrayUnit :=
  if vecUsesA (eCuop e) ∧ eSrca e = 0 then
    let (a, u) := accPart t.arr
    if vecPair (eCuop e) ∧ eSrcb e = 0 then
      let (b, u) := accPart u
      (a, b, u)
    else (a, b, u)
  else (a, b, t.arr)

/-- The vector entry's result and the array with its pointers advanced. -/
def vecResult (env : TileEnv) (e : TabEntry) (a b : Opd) (t : Tile) : VecOut × ArrayUnit :=
  let (a, b, u) := vecOperands t e a b
  let (da, db) := draws t.tab.seed.toNat env.x env.y t.tab.section_.toNat t.tab.srn.toNat
  (vecFire t.vfire e a b da db, u)

/-- A vector entry at fire. -/
def fireVector (env : TileEnv) (e : TabEntry) (r : VecOut) (u : ArrayUnit) (slots : List Nat) (t : Tile) : Tile :=
  let srn := isConvertClass (eCuop e) && decide (eCuflag e % 4 = 2)
  let em := r.out.map fun (d, p) => mkEmit e slots.head? d p true
  let t := bump env.core .vecOps 1 t
  { t with arr := u, vfire := r.buf
           tab := if srn then { t.tab with srn := t.tab.srn + 1 } else t.tab
           fly := addFlight t.fly { vis := t.tab.tc + 6, work := .vec em r.fx r.buf } }

/-- An entry without a CU operation at fire: its source goes to its destination in the next cycle (R25). DESIGN CHOICE where
both sources are 0: the spec does not say what is sent, and the model sends zero data without poison; where both are set,
source A is sent (notes/assumptions/11). -/
def fireMove (e : TabEntry) (a b : Opd) (slots : List Nat) (t : Tile) : Tile :=
  if eDst e = 0 then t
  else
    let o := if eSrca e ≠ 0 then a else b
    { t with fly := addFlight t.fly { vis := t.tab.tc + 1, work := .move (mkEmit e slots.head? o.data o.poison true) } }

/-- Flits and words an entry consumes: the queue or the scalar register and the flit removed (R23); its storage is free from
a device cycle on (R26, R174). -/
def popSrc (free : Nat) (t : Tile) (s : Nat) : Tile :=
  if s ≥ 8 then
    let qs := mmod {} t.mu.queues (s - 8) fun q => { q with flits := q.flits.tail, popAt := free }
    { t with mu := { t.mu with queues := qs } }
  else if s = 2 then { t with tab := { t.tab with srxValid := false, srxWord := none, srxFreeAt := free } }
  else t

/-- The sources the entry pops, each once (R23). -/
def popList (e : TabEntry) : List Nat :=
  if eSrca e = eSrcb e then (if ePopa e || ePopb e then [eSrca e] else [])
  else (if ePopa e then [eSrca e] else []) ++ (if ePopb e then [eSrcb e] else [])

/-- The flits and the scalar word whose storage the entry's pops free, for their window tokens (Table 7.7). -/
def poppedFlits (t : Tile) (e : TabEntry) : List Flit :=
  (popList e).filterMap fun s =>
    if s ≥ 8 then (mget {} t.mu.queues (s - 8)).flits.head?
    else if s = 2 then t.tab.srxWord
    else none

/-- Tags at the end of the firing cycle: the read's change first, then the write's (R26). -/
def applyTags (t : Tile) (e : TabEntry) (slots : List Nat) : Tile :=
  let m := t.mu.slots
  let m := if eRdop e ≠ 0 ∧ eRdtag e = 2 then mmod {} m (readSlot t e) (fun o => { o with full := false }) else m
  let m := if eWrtag e ≠ 0 then slots.foldl (fun m s => mmod {} m s (fun o => { o with full := true })) m else m
  let w := if eRdop e ≠ 0 ∧ eRdtag e = 2 then releaseSlot (readSlot t e) (t.tab.tc + 1) t.mu.ingress else t.mu.ingress
  { t with mu := { t.mu with slots := m, ingress := w } }

/-- The prediction of the image against the counters at END (R278). -/
def planCompare (t : Tile) : BitVec 64 :=
  let f := ctrVal t .fire
  let i := ctrVal t .idle
  let s := ctrVal t .slipTotal
  let (pf, pe, pid, ps) := t.tab.pred
  if f = ctrMax ∨ i = ctrMax ∨ s = ctrMax then 0x20
  else BitVec.ofNat 64 (packFields
    [(1, 1), (b2n (decide (f = pf)), 1), (b2n (decide (i = pid)), 1),
     (b2n (decide (t.tab.endCycle.toNat - s = pe)), 1), (b2n (decide (s = ps)), 1)])

/-- END: the queues close and TAB_PLAN is recorded (R176, R278). -/
def endTile (t : Tile) : Tile :=
  let t := { t with tab := { t.tab with st := .ended, plan := planCompare t } }
  { t with mu := { t.mu with queues := (List.range 8).foldl (fun m k =>
      mmod {} m k fun q => if q.st = .open_ then { q with st := .closed } else q) t.mu.queues } }

/-- The loop counter LCSEL. -/
def lcVal (t : Tile) (e : TabEntry) : Nat := (mget 0 t.tab.lc (eLcsel e)).toNat

/-- Control operation of a fired entry (Table 1.3); the cycle has been counted. -/
def applyCtl (t : Tile) (e : TabEntry) : Tile :=
  let setPc := fun (p : Nat) (t : Tile) => { t with tab := { t.tab with pc := BitVec.ofNat 10 p } }
  let setLc := fun (v : Nat) (t : Tile) =>
    { t with tab := { t.tab with lc := mset 0 t.tab.lc (eLcsel e) (BitVec.ofNat 17 v) } }
  let next := t.tab.pc.toNat + 1
  match eCtl e with
  | 1 => setPc next (setLc (if eCimm e = 0 then 65536 else eCimm e) t)
  | 2 =>
    if lcVal t e = 0 then setPc next t
    else setPc (if lcVal t e = 1 then next else eTarget e) (setLc (lcVal t e - 1) t)
  | 3 => setPc (eTarget e) t
  | 4 => if eCimm e = 0 then setPc next t
         else { t with tab := { t.tab with delaying := true, delayLeft := eCimm e } }
  | 5 => endTile { t with tab := { t.tab with endCycle := t.tab.cycle - 1 } }
  | _ => setPc next t

/-- Window credits taken at fire (R26, R201). -/
def takeCredits (t : Tile) (e : TabEntry) : Tile :=
  let w := t.fret.win
  let n := flitsEmitted t e
  let w := if n = 0 then w else mset 0 w (eOutch e) (mget 0 w (eOutch e) - n)
  let w := if eDst e = 4 then mset 0 w 8 (mget 0 w 8 - 1) else w
  { t with fret := { t.fret with win := w } }

/-- The tile with the upsets of this cycle seen (R154, R302). -/
def upsetTile (env : TileEnv) (u : Upset) (e : TabEntry) (t : Tile) : Tile :=
  let t := if eRdop e ≠ 0 then spadUpset env.core u.spad (readSlot t e) t else t
  if u.flit ∧ (eSrca e ≥ 8 ∨ eSrcb e ≥ 8) then
    tileEvent env.core .spadUncorrected ((if eSrca e ≥ 8 then eSrca e else eSrcb e) - 8) 0 t else t

/-- The tile with the window credits of the entry taken (R26, R201). -/
def creditTile (e : TabEntry) (t : Tile) : Tile := { t with fret := (takeCredits t e).fret }

/-- The slots a firing entry targets, and AG1 after it. -/
def unitTargets (env : TileEnv) (e : TabEntry) (a b : Opd) (t : Tile) : List Nat × AddrGen :=
  writeTargets t e (if eUnit e = 3 then (vecResult env e a b t).1.segOfs else none)

/-- The slots the entry writes. -/
def unitSlots (env : TileEnv) (e : TabEntry) (a b : Opd) (t : Tile) : List Nat :=
  if eUnit e = 3 ∧ (vecResult env e a b t).1.out.isNone then [] else (unitTargets env e a b t).1

/-- The work of the entry's unit. -/
def unitFire (env : TileEnv) (e : TabEntry) (a b : Opd) (r : VecOut × ArrayUnit) (slots : List Nat) (t : Tile) : Tile :=
  if eUnit e = 0 then fireMove e a b slots t
  else if eUnit e = 1 then fireArray env e a b slots t
  else if eUnit e = 2 then fireSparse env e a b slots t
  else fireVector env e r.1 r.2 slots t

/-- What a firing entry does after its unit: tags, pops, address generators, semaphores (R23, R26, R28, R156). -/
def afterUnit (env : TileEnv) (e : TabEntry) (slots : List Nat) (ag1 : AddrGen) (t : Tile) : Tile :=
  let t := applyTags t e slots
  let t := (popList e).foldl (popSrc (env.core + (if env.stretched then 2 else 1))) t
  let t := { t with mu := { t.mu with ag0 := agStep t.mu.ag0 (eRdop e), ag1 := ag1
                                      rUsed := if eRdop e = 0 then t.mu.rUsed else t.tab.tc + 1 } }
  semApply t e

/-- Every effect of a firing entry (R26), on operands already read. -/
def fireEffects (env : TileEnv) (u : Upset) (e : TabEntry) (a b : Opd) (t : Tile) : Tile :=
  let t := upsetTile env u e t
  let slots := unitSlots env e a b t
  afterUnit env e slots (unitTargets env e a b t).2
    (unitFire env e a b (vecResult env e a b t) slots (creditTile e t))

/-- The entry fires: its effects, the count of the cycle, control (R26, R29). -/
def fire (env : TileEnv) (u : Upset) (e : TabEntry) (t : Tile) : Tile :=
  let a := upsetOpd u (eSrca e) (readSrc t e (eSrca e))
  let b := upsetOpd u (eSrcb e) (readSrc t e (eSrcb e))
  match semFault t e with
  | some (c, id) => haltWith env.core c id t.tab.pc.toNat t
  | none =>
    match unitFault t e b with
    | some c => haltWith env.core c 0 t.tab.pc.toNat t
    | none =>
      let t := countCycle env e (fireEffects env u e a b t)
      let t := bump env.core .fire 1 t
      let t := { t with tab := { t.tab with wdCount := 0, wdTripped := false, wdProgress := true } }
      applyCtl t e

/-- The current entry. -/
def curEntry (t : Tile) : TabEntry := mget 0 t.tab.mem t.tab.pc.toNat

/-- One tile cycle of a RUNNING tile that is not idling: parity and form of the entry, the guard, a slip or a fire
(R22, R25, R302). -/
def tabCycle (env : TileEnv) (u : Upset) (t : Tile) : Tile :=
  let t := settle env.core env.x env.y t.tab.tc t
  let e := curEntry t
  if t.tab.st ≠ .running then t
  else if u.parity then haltWith env.core .tabParity 0 t.tab.pc.toNat t
  else if malformed e t.tab.pc.toNat then haltWith env.core .tabMalformed 0 t.tab.pc.toNat t
  else match guardSlip env t e with
    | some c => slip env e c t
    | none => fire env u e t

/-- The current entry fires in this cycle: no upset, well formed, every guard term holds, no fault (R25, R29). -/
def tabFires (env : TileEnv) (u : Upset) (t : Tile) : Bool :=
  let t := settle env.core env.x env.y t.tab.tc t
  let e := curEntry t
  decide (t.tab.st = .running) && !u.parity && !malformed e t.tab.pc.toNat && (guardSlip env t e).isNone
  && (semFault t e).isNone && (unitFault t e (upsetOpd u (eSrcb e) (readSrc t e (eSrcb e)))).isNone

/-! ## Idle cycles (R31, R32) -/

/-- Idle cycles from a device cycle on, among the stretched spans of the quadrant, up to a limit: idle cycles left,
DROOP slips counted, device cycle reached. Each round passes one stretched cycle or all cycles up to the next span. -/
def runIdle (spans : List (Nat × Nat)) (limit : Nat) : Nat → Nat → Nat → Nat → Nat × Nat × Nat
  | 0, core, left, slips => (left, slips, core)
  | fuel + 1, core, left, slips =>
    if left = 0 ∨ core ≥ limit then (left, slips, core)
    else if spans.any (fun (a, b) => decide (a ≤ core ∧ core ≤ b)) then
      runIdle spans limit fuel (core + 2) left (slips + 1)
    else
      let stops := (spans.filter fun (a, _) => decide (a > core)).map (·.1)
      let n := min left (stops.foldl min limit - core)
      runIdle spans limit fuel (core + n) (left - n) slips

/-- Idle and stretched cycles of a delaying tile are counted up to a device cycle; the delay ends when no idle cycle is
left (R31, R180). -/
def idleUntil (spans : List (Nat × Nat)) (limit : Nat) (t : Tile) : Tile :=
  let left0 := t.tab.delayLeft
  let core0 := t.tab.nextCore
  let (left, slips, core) := runIdle spans limit (40 * spans.length + 2) core0 left0 0
  let idle := left0 - left
  let n := idle + slips
  let e := curEntry t
  let c0 := t.tab.tc
  let on := if eUnit e = 1 then n else min n (t.arr.busyTo - c0)
  let son := if sparseOn t e (c0 + n) then n else min n (t.sp.busyTo - c0)
  let t := bump core .idle idle (bump core .slipTotal slips (bump core (.slip 6) slips
    (bump core .arrayOn on (bump core .sparseOn son t))))
  { t with tab := { t.tab with
      cycle := t.tab.cycle + BitVec.ofNat 64 n, tc := c0 + n, nextCore := core, delayLeft := left
      delaying := decide (left ≠ 0)
      lastCore := if n = 0 then t.tab.lastCore else core - 1
      pc := if left = 0 then t.tab.pc + 1 else t.tab.pc
      lastCause := if slips = 0 then t.tab.lastCause else 6
      wdProgress := t.tab.wdProgress || decide (idle ≠ 0)
      wdHold := t.tab.wdHold || decide (slips ≠ 0) } }

/-! ## Time of a tile -/

/-- The tile is issuing: RUNNING and not idling after a DELAY. -/
def issuing (t : Tile) : Bool := decide (t.tab.st = .running) && !t.tab.delaying

/-- The tile cycle in progress at a device cycle: the last one evaluated while the tile issues; else the tile's clock
runs on with the device clock. -/
def tileTime (core : Nat) (t : Tile) : Nat :=
  if issuing t then t.tab.tc - 1 else t.tab.tc + (core - t.tab.nextCore)

/-- The clock of a tile that is not RUNNING runs on to a device cycle: passes and work still in flight keep the clocks of the
dense array and of the sparse engine enabled (R39). -/
def runClock (core : Nat) (t : Tile) : Tile :=
  if t.tab.st = .running then t
  else
    let now := tileTime core t
    let open_ := match t.sp.step with
      | some p => p.fallback
      | none => false
    let t := bump core .arrayOn (min now t.arr.busyTo - t.tab.tc)
      (bump core .sparseOn ((if open_ then now else min now t.sp.busyTo) - t.tab.tc) t)
    { t with tab := { t.tab with tc := now, nextCore := max core t.tab.nextCore } }

/-- The device has reached the next cycle of an issuing tile, and the tab has not run it yet. -/
def ahead (core : Nat) (t : Tile) : Bool := issuing t && decide (t.tab.nextCore ≤ core)

/-- The tile cycle of an arrival from outside: the one the device has reached, run by the tab or not. -/
def arrivalTime (core : Nat) (t : Tile) : Nat := if ahead core t then t.tab.tc else tileTime core t

/-- What a write of this cycle changes at its end: in a tile that issues, with the cycle that the tab runs next; else at
once. -/
def atEnd (core : Nat) (tag : Option (Nat × Bool)) (count : Option (Nat × Nat)) (t : Tile) : Tile :=
  let e : CycleEnd := { vis := t.tab.tc + 1, core := core, tag := tag, count := count }
  if tag = none ∧ count = none then t
  else if issuing t then { t with mu := { t.mu with ends := t.mu.ends ++ [e] } } else applyEnd e t

/-- The device cycle in which tile cycle c of a tile that does not issue begins. -/
def dueCore (t : Tile) (c : Nat) : Nat := t.tab.nextCore + (c - t.tab.tc)

/-- An effect from outside the tab closes the tile's cycle that begins in this device cycle: the next entry is evaluated
in a later one (R25: the guard reads the state at the start of the cycle). -/
def closeCycle (core : Nat) (t : Tile) : Tile :=
  if issuing t ∧ t.tab.nextCore ≤ core then { t with tab := { t.tab with nextCore := core + 1 } } else t

end Sys2Proof.Machine
end

