-- ==== Sys2Proof/Machine/Ops.lean ====
section
/-!
DEFINITION. Machine/Ops: the geometry of the device, access to tiles and partitions, events, window tokens, and the shared
shape of every command that acts on a tile.
-/
namespace Sys2Proof.Machine

/-- What a command answers. -/
abbrev Out := Host.Outcome State Fault Refusal

/-! ## Geometry (R2, R8, R9, R225, R305) -/

/-- w of R8: logical columns per die. -/
def gradeWidth (g : Grade) : Nat :=
  match g with
  | .a => 128
  | .b => 126

/-- Die number n = 6 i + j (R225). -/
def dieNum (i j : Nat) : Nat := 6 * i + j

/-- Physical rows of a column of a die that a record marks dead (R8). -/
def deadRows (ds : List DefectRec) (n c : Nat) : List Nat :=
  (ds.filter fun d => decide (d.kind = 1 ∧ d.die = n ∧ d.c = c)).map (·.p)

/-- A physical column that grade B lacks (R2). -/
def absentCol (ds : List DefectRec) (n c : Nat) : Bool := ds.any fun d => decide (d.kind = 2 ∧ d.die = n ∧ d.c = c)

/-- A physical column counts as retired (R305). -/
def retiredCol (ds : List DefectRec) (n c : Nat) : Bool :=
  (ds.any fun d => decide (d.kind = 3 ∧ d.die = n ∧ d.c = c)) || decide ((deadRows ds n c).dedup.length ≥ 3)

/-- Physical columns of a die that hold logical columns, from west (R8, R305). -/
def goodCols (ds : List DefectRec) (n : Nat) : List Nat :=
  if ds.all fun d => decide (d.die ≠ n) then List.range 128
  else (List.range 128).filter fun c => !absentCol ds n c && !retiredCol ds n c

/-- Retired columns of a die. -/
def retiredCount (ds : List DefectRec) (n : Nat) : Nat :=
  if ds.all fun d => decide (d.die ≠ n) then 0
  else ((List.range 128).filter fun c => retiredCol ds n c && !absentCol ds n c).length

/-- R_i of R305. -/
def retiredMax (ds : List DefectRec) (i : Nat) : Nat :=
  ((List.range 6).map fun j => retiredCount ds (dieNum i j)).foldl max 0

/-- Logical width w_i of a die column (R305); 0 once three retired columns take it out of service. -/
def colWidth (g : Grade) (ds : List DefectRec) (i : Nat) : Nat :=
  if retiredMax ds i ≥ 3 then 0 else gradeWidth g - retiredMax ds i

/-- Physical rows of a column that hold logical rows, from north (R8). -/
def goodRows (ds : List DefectRec) (n c : Nat) : List Nat :=
  (List.range 66).filter fun p => !(deadRows ds n c).contains p

/-- Die, physical column and physical row of a logical tile (R8, R305). -/
def locate (g : Grade) (ds : List DefectRec) (x y : Nat) : Option (Nat × Nat × Nat) :=
  let w := gradeWidth g
  let i := x / w
  let k := x % w
  let j := y / 64
  let n := dieNum i j
  if i < 8 ∧ j < 6 ∧ k < colWidth g ds i then
    let c := nth (goodCols ds n) k 0
    some (n, c, nth (goodRows ds n c) (y % 64) 0)
  else none

/-- The quadrant of a physical tile (Table 0.6). -/
def quadOf (c p : Nat) : Nat := c / 64 + 2 * (p / 33)

/-- A logical coordinate names a tile of the device. -/
def tileExists (s : State) (t : TileId) : Bool := (locate s.grade s.defects t.x t.y).isSome

/-! ## Tiles -/

/-- Key of a tile. -/
def tileKey (x y : Nat) : Nat := 1024 * y + x

/-- The tile at a logical coordinate. -/
def getTile (s : State) (x y : Nat) : Tile := mget {} s.tiles (tileKey x y)

/-- Write the tile at a logical coordinate. -/
def setTile (s : State) (x y : Nat) (t : Tile) : State := { s with tiles := mset {} s.tiles (tileKey x y) t }

/-- Update the tile at a logical coordinate. -/
def modTile (s : State) (x y : Nat) (f : Tile → Tile) : State := setTile s x y (f (getTile s x y))

/-- The device cycle moves on, never back. -/
def advanceTo (s : State) (c : Nat) : State := { s with cycle := max s.cycle c }

/-- Die number, quadrant of the tile's physical place, as the map in force at its load has it. -/
def tilePlace (s : State) (x y : Nat) : Nat × Nat :=
  match locate s.grade s.defects x y with
  | none => (0, 0)
  | some (n, c, p) =>
    let (c, p) := ((getTile s x y).phys).getD (c, p)
    (n, quadOf c p)

/-- The partition that owns a die, if any (R9, R336). -/
def partOfDie (s : State) (n : Nat) : Option Nat :=
  (List.range 4).find? fun p =>
    let q := mget {} s.parts p
    q.set_ && decide (q.lo ≤ n / 6 ∧ n / 6 ≤ q.hi)

/-- The partition that owns a tile. -/
def partOfTile (s : State) (x : Nat) : Option Nat := partOfDie s (6 * (x / gradeWidth s.grade))

/-- Droop spans of a quadrant. -/
def spansOf (s : State) (n q : Nat) : List (Nat × Nat) := mget [] s.power.quads.spans (4 * n + q)

/-- stretched(q, c): the device cycle lies in a span (R371). -/
def stretchedAt (s : State) (n q c : Nat) : Bool := (spansOf s n q).any fun (a, b) => decide (a ≤ c ∧ c ≤ b)

/-- A span joins spans in order of their starts. -/
def insertSpan (a : Nat × Nat) : List (Nat × Nat) → List (Nat × Nat)
  | [] => [a]
  | b :: bs => if a.1 ≤ b.1 then a :: b :: bs else b :: insertSpan a bs

/-- Spans in order. -/
def sortSpans (l : List (Nat × Nat)) : List (Nat × Nat) := l.foldl (fun m a => insertSpan a m) []

/-- Maximal runs of stretched cycles of spans in order. -/
def mergeSpans : List (Nat × Nat) → List (Nat × Nat)
  | [] => []
  | (a, b) :: rest =>
    match mergeSpans rest with
    | (c, d) :: more => if c ≤ b + 1 then (a, max b d) :: more else (a, b) :: (c, d) :: more
    | [] => [(a, b)]

/-- The device cycle in which the first tile cycle of a quadrant begins at or after a device cycle: a tile cycle that begins in
a stretched cycle lasts two (R219, R371, R372). -/
def tileStart (spans : List (Nat × Nat)) (c : Nat) : Nat :=
  if (mergeSpans (sortSpans spans)).any fun (a, b) => decide (a < c ∧ c ≤ b + 1 ∧ (c - a) % 2 = 1) then c + 1 else c

/-- The thermal level that a quadrant's mask takes in a device cycle: a change counts from the next multiple of 16 (R375). -/
def thermalNow (s : State) (k core : Nat) : Nat :=
  let (at_, old) := mget (0, 16) s.power.quads.since k
  if core < (at_ + 15) / 16 * 16 then old else mget 16 s.power.quads.kt k

/-- Issue level k_q of a quadrant in a device cycle (R375, R376). -/
def issueLevel (s : State) (n q core : Nat) : Nat :=
  let kp := match partOfDie s n with
    | some p => (mget {} s.parts p).kp
    | none => 16
  min kp (min (thermalNow s (4 * n + q) core) (mget 16 s.power.quads.kd (4 * n + q)))

/-- issue_mask(q, c) of R375 at level k. -/
def issueMask (k c : Nat) : Bool := decide (((c % 16 + 1) * k) / 16 > ((c % 16) * k) / 16)

/-- What surrounds a tile in a cycle that begins at a device cycle. -/
def tileEnv (s : State) (x y core : Nat) : TileEnv :=
  let (n, q) := tilePlace s x y
  { core := core, stretched := stretchedAt s n q core, mask := issueMask (issueLevel s n q core) core, x := x, y := y }

/-! ## Window tokens (R201, Table 7.7) -/

/-- A terminal consumes a flit at the end of a device cycle: a token starts back to its source, where the flit's last
token counts from one cycle after the latency of the longest path, the terminal's skew included. -/
def releaseToken (core : Nat) (f : Flit) (s : State) : State :=
  modTile s f.str.x f.str.y fun t =>
    { t with fret := { t.fret with outst := t.fret.outst.map fun o =>
        if o.ch = f.str.ch ∧ o.num = f.num then
          { o with pending := o.pending - 1, due := max o.due (core + 1 + f.lat), got := o.got + 1 } else o } }

/-- SKEW of the terminal an input leads to (Tables 7.5, 7.6). -/
def termSkew (t : Tile) (inp : Nat) : Nat :=
  let r := (mget 0 t.fret.route inp).toNat
  if inp = 40 ∨ (inp < 32 ∧ inp % 8 = 6) then fld r 24 3 else fld r 40 3

/-- Tokens of several flits consumed in one cycle. -/
def releaseAll (core : Nat) (fs : List Flit) (s : State) : State :=
  fs.foldl (fun s f => releaseToken core f s) s

/-! ## Commands on a tile -/

/-- A command that acts on a tile of the device, with the fault for a coordinate that names none. -/
def onTile (t : TileId) (s : State) (f : State → State) : Out :=
  if tileExists s t then .next (f s) else .fault .noSuchTile

/-- A command from outside the tab that acts on one tile in the present device cycle: the tile's cycle closes. -/
def outside (t : TileId) (f : Nat → Tile → Tile) (s : State) : State :=
  modTile s t.x t.y fun tl => f s.cycle (closeCycle s.cycle tl)

/-- One tile cycle of a tile that issues, at the first device cycle it can begin in; the flits it pops give their tokens
back (R21, R25, R201). -/
def tabStep (t : TileId) (u : Upset) (s : State) : State :=
  let tl := getTile s t.x t.y
  let core := max s.cycle tl.tab.nextCore
  let env := tileEnv s t.x t.y core
  let before := settle core t.x t.y tl.tab.tc tl
  let popped := if tabFires env u tl then poppedFlits before (curEntry before) else []
  releaseAll core popped (setTile (advanceTo s core) t.x t.y (tabCycle env u tl))

/-- A command of the tab family: it names an aspect of the entry at PC, and the tile runs that entry for one cycle. An
entry without the aspect, or a tile that does not issue, leaves the device unchanged; a malformed entry has every
aspect. -/
def tabCommand (sel : TabEntry → Bool) (t : TileId) (u : Upset) (s : State) : Out :=
  onTile t s fun s =>
    let tl := getTile s t.x t.y
    if issuing tl && (sel (curEntry tl) || malformed (curEntry tl) tl.tab.pc.toNat) then tabStep t u s else s

/-- The first flight of a kind, and the flights without it. -/
def takeFlight (k : FlyWork → Bool) : List Flight → Option (Flight × List Flight)
  | [] => none
  | f :: rest => if k f.work then some (f, rest) else (takeFlight k rest).map fun (g, r) => (g, f :: r)

/-- The device cycle of a landing and the device cycle it is reached in: a contribution lands at the end of the cycle before
the one that sees it, everything else in the cycle itself. A tile that does not issue reaches it with the device clock. -/
def landCore (s : State) (tl : Tile) (f : Flight) : Nat :=
  match f.work with
  | .issue _ _ => if issuing tl then tl.tab.lastCore else max s.cycle (dueCore tl (f.vis - 1))
  | _ => max s.cycle (if issuing tl then tl.tab.nextCore else dueCore tl f.vis)

/-- A landing: the first work of a kind in flight takes effect, with its residue mismatches, once its cycle has come (R30,
R32). -/
def landCommand (k : FlyWork → Bool) (t : TileId) (mism : Nat) (s : State) : Out :=
  onTile t s fun s =>
    let tl := getTile s t.x t.y
    match takeFlight k tl.fly with
    | none => s
    | some (f, rest) =>
      if !issuing tl || decide (f.vis ≤ tl.tab.tc) then
        let c := landCore s tl f
        modTile (advanceTo s c) t.x t.y fun tl => landFlight c t.x t.y f mism { tl with fly := rest }
      else s

end Sys2Proof.Machine
end

