-- ==== Sys2Proof/Machine/Array.lean ====
section
/-!
DEFINITION. Machine/Array: the meanings of the commands of the dense matrix array (R45-R73).
-/
namespace Sys2Proof.Machine

/-- ARR_LOAD (R53): Array LOAD writes one row, or part of a row, of the shadow bank from operand B. -/
def execArrLoad (t : TileId) (u : Upset) (s : State) : Out :=
  tabCommand (fun e => decide (eUnit e = 1 ∧ eKind e = 1)) t u s

/-- ARR_LOADSC (R57): Array LOADSC loads column scales or streaming scales from operand B. -/
def execArrLoadsc (t : TileId) (u : Upset) (s : State) : Out :=
  tabCommand (fun e => decide (eUnit e = 1 ∧ eKind e = 2)) t u s

/-- ARR_SWAP (R55): Exchanges the active and shadow banks and sets the orientation. -/
def execArrSwap (t : TileId) (u : Upset) (s : State) : Out :=
  tabCommand (fun e => decide (eUnit e = 1 ∧ eKind e = 3)) t u s

/-- MAC (R58): One single-pass issue of operand A through the active bank, with an optional shadow-bank load. -/
def execMac (t : TileId) (u : Upset) (s : State) : Out :=
  tabCommand (fun e => decide (eUnit e = 1 ∧ eKind e = 4)) t u s

/-- MAC_HL (R67): binary16 split pass: stationary high piece times streaming low piece. -/
def execMacHl (t : TileId) (u : Upset) (s : State) : Out :=
  tabCommand (fun e => decide (eUnit e = 1 ∧ eKind e = 5)) t u s

/-- MAC_LH (R67): binary16 split pass: stationary low piece times streaming high piece. -/
def execMacLh (t : TileId) (u : Upset) (s : State) : Out :=
  tabCommand (fun e => decide (eUnit e = 1 ∧ eKind e = 6)) t u s

/-- MAC_HH (R67): binary16 split pass: high piece times high piece. -/
def execMacHh (t : TileId) (u : Upset) (s : State) : Out :=
  tabCommand (fun e => decide (eUnit e = 1 ∧ eKind e = 7)) t u s

/-- MAC_P20 (R67): binary32 split pass: stationary piece 2 times streaming piece 0. -/
def execMacP20 (t : TileId) (u : Upset) (s : State) : Out :=
  tabCommand (fun e => decide (eUnit e = 1 ∧ eKind e = 8)) t u s

/-- MAC_P11 (R67): binary32 split pass: piece 1 times piece 1. -/
def execMacP11 (t : TileId) (u : Upset) (s : State) : Out :=
  tabCommand (fun e => decide (eUnit e = 1 ∧ eKind e = 9)) t u s

/-- MAC_P02 (R67): binary32 split pass: stationary piece 0 times streaming piece 2. -/
def execMacP02 (t : TileId) (u : Upset) (s : State) : Out :=
  tabCommand (fun e => decide (eUnit e = 1 ∧ eKind e = 10)) t u s

/-- MAC_P21 (R67): binary32 split pass: stationary piece 2 times streaming piece 1. -/
def execMacP21 (t : TileId) (u : Upset) (s : State) : Out :=
  tabCommand (fun e => decide (eUnit e = 1 ∧ eKind e = 11)) t u s

/-- MAC_P12 (R67): binary32 split pass: stationary piece 1 times streaming piece 2. -/
def execMacP12 (t : TileId) (u : Upset) (s : State) : Out :=
  tabCommand (fun e => decide (eUnit e = 1 ∧ eKind e = 12)) t u s

/-- MAC_P22 (R67): binary32 split pass: piece 2 times piece 2. -/
def execMacP22 (t : TileId) (u : Upset) (s : State) : Out :=
  tabCommand (fun e => decide (eUnit e = 1 ∧ eKind e = 13)) t u s

/-- ARR_DRAIN (R60): Array DRAIN reads accumulator row DP and schedules its C/16 flits to DST. -/
def execArrDrain (t : TileId) (u : Upset) (s : State) : Out :=
  tabCommand (fun e => decide (eUnit e = 1 ∧ eKind e = 14)) t u s

/-- MODE (R63): Sets the array mode and resets banks, pointers, scales and accumulators. -/
def execMode (t : TileId) (u : Upset) (s : State) : Out :=
  tabCommand (fun e => decide (eUnit e = 1 ∧ eKind e = 15)) t u s

/-- ARRAY_CONTRIBUTION_LAND (R61): the column values of the oldest MAC issue in flight land in their accumulator row; the
mask names the columns with a residue mismatch (R70). -/
def execArrayContributionLand (t : TileId) (mism : Nat) (s : State) : Out :=
  landCommand (fun w => match w with
    | .issue .arr _ => true
    | _ => false) t mism s

/-- DRAIN_FLIT (R60): the next flit of a DRAIN leaves the array for the MU write port or the fret. -/
def execDrainFlit (t : TileId) (s : State) : Out :=
  landCommand (fun w => match w with
    | .drain _ _ => true
    | _ => false) t 0 s

end Sys2Proof.Machine
end

