-- ==== Sys2Proof/Config.lean ====
section
/-!
DEFINITION. Config: the values the spec leaves open, as constants without a body.
-/
namespace Sys2Proof.Config

/-- What a packet read of a slot beyond slot 2,047 returns: the spec neither refuses such a read nor states its data
(R211; notes/assumptions/18). -/
opaque pastSlot : Nat → Unit512

/-- Which of the dies that refuse their image at once ends the load first, as an index into their list (R256: the dies load
in parallel; notes/assumptions/68). -/
opaque firstRefusal : List Nat → Nat

/-- How many records a die has written when another die's refusal reaches it (R256: a prefix whose length depends on
timing; notes/assumptions/68). -/
opaque loadPrefix : Nat → Nat → Nat

/-- The verdict of SLH-DSA-SHA2-128s of FIPS 205 on a public key, a message and a signature (R398); the algorithm is another
document's. -/
opaque slhDsaVerify : List Byte → List Byte → List Byte → Bool

/-- DEVID_PK of an identity seed: HKDF-SHA-256 and the key generation of ML-DSA-44 (R400). -/
opaque devidPk : BitVec 256 → List Byte

/-- The ML-DSA-44 signature under the key of a seed of some bytes (R413). -/
opaque mldsaSign : BitVec 256 → List Byte → List Byte

/-- The encapsulation key of the ML-KEM-768 key pair of a number (R349). -/
opaque mlkemEk : Nat → List Byte

/-- The four link keys that an IDE_KEY request unwraps to under a key pair, or none when decapsulation or unwrapping fails
(R350). -/
opaque mlkemUnwrap : Nat → List Byte → Option (List Byte)

/-- The public key that a certificate names (R402). -/
opaque certKey : List Byte → List Byte

/-- CONFHASH of a configuration: the serialisation that is hashed is not given (Table 14.7). -/
opaque confHash : List Nat → BitVec 256

/-- CONFHASH and DMREV of a report signed in recovery, where no firmware runs and the spec states neither (R413). -/
opaque recoveryConf : Nat → BitVec 256
opaque recoveryRev : Nat → BitVec 32

/-- The 64 bytes of a section record: the spec names its fields and gives no layout (R280). -/
opaque sectionRecord : List Nat → BitVec 512

/-- The 64 bytes of a test's results, by what the results are of: the spec gives them no layout (R313, R322). -/
opaque testResult : List Nat → BitVec 512

/-- The unit of 64 bytes of the self-test area that holds the results of a test of a physical tile, and of a ticket
(Tables 11.14, 12.13). -/
opaque testUnit : Nat → Nat
opaque ticketUnit : Nat → Nat

/-- What a memory of a tile holds after a test that destroys it, by the cycle of the test and the row (Table 11.11). -/
opaque testLeft : Nat → Nat → BitVec 2048

/-- Halwen's PCI vendor ID and its organizationally unique identifier (R329, R431). -/
opaque vendorId : BitVec 16
opaque oui : BitVec 24

/-- Volumetric heat capacity of water, in J/(L K), at a mean temperature in 0.01 degrees C (R387). -/
opaque waterHeat : Nat → Nat

/-- Which test a physical tile fails at start-up, where three run (R405). -/
opaque startupTest : Nat → Nat

/-- SUB and DETAIL of an event record whose code has none stated, by code and sequence number (Table 11.3). -/
opaque openSub : Nat → Nat → BitVec 8
opaque openDetail : Nat → Nat → BitVec 64

end Sys2Proof.Config
end

