-- ==== Sys2Proof/Machine/MuOps.lean ====
section
/-!
DEFINITION. Machine/MuOps: windows, the write-port calendar and its arbitration, packet reads, bulk operations, the
combining buffer (R157-R170), and the fields of a packet header (Table 7.9).
-/
namespace Sys2Proof.Machine

/-! ## Packet header (Table 7.9) -/

def hNseg (h : Unit512) : Nat := fld h.toNat 0 4
def hSeg (h : Unit512) (k : Nat) : Nat := fld h.toNat (4 + 12 * k) 12
def hKind (h : Unit512) : Nat := fld h.toNat 100 4
def hDx (h : Unit512) : Nat := fld h.toNat 104 10
def hDy (h : Unit512) : Nat := fld h.toNat 114 9
def hTag (h : Unit512) : Nat := fld h.toNat 128 16
def hSeq (h : Unit512) : Nat := fld h.toNat 144 16
def hNpay (h : Unit512) : Nat := fld h.toNat 160 4
def hWin (h : Unit512) : Nat := fld h.toNat 164 2
def hOffset (h : Unit512) : Nat := fld h.toNat 166 11
def hBoff (h : Unit512) : Nat := fld h.toNat 177 6
def hBcnt (h : Unit512) : Nat := fld h.toNat 183 7
def hIssuer (h : Unit512) : Nat := fld h.toNat 192 4
def hRnseg (h : Unit512) : Nat := fld h.toNat 196 4
def hRseg (h : Unit512) (k : Nat) : Nat := fld h.toNat (200 + 12 * k) 12
def hCmd (h : Unit512) : Nat := fld h.toNat 296 64

/-- The first segment with a length left, with its index (R212). -/
def nextSeg (h : Unit512) : Option (Nat × Nat) :=
  ((List.range 8).find? fun k => decide (hSeg h k ≥ 4)).map fun k => (k, hSeg h k % 4)

/-- The fields of a header an issuer builds; routes are lists of direction and length. -/
structure Hdr where
  segs : List (Nat × Nat) := []
  kind : Nat
  dx : Nat
  dy : Nat
  tag : Nat := 0
  seq : Nat := 0
  npay : Nat := 0
  win : Nat := 0
  offset : Nat := 0
  boff : Nat := 0
  bcnt : Nat := 0
  issuer : Nat
  rsegs : List (Nat × Nat) := []
  cmd : Nat := 0
  deriving DecidableEq, Repr

/-- Segments laid out 12 bits each: direction in [1:0], length in [11:2] (R210). -/
def packSegs (l : List (Nat × Nat)) : Nat := joinElems 12 (l.map fun (d, n) => d + 4 * n)

/-- The header flit (Table 7.9). -/
def packHdr (h : Hdr) : Unit512 :=
  BitVec.ofNat 512 (packFields
    [(h.segs.length, 4), (packSegs h.segs, 96), (h.kind, 4), (h.dx, 10), (h.dy, 9), (0, 5), (h.tag, 16), (h.seq, 16),
     (h.npay, 4), (h.win, 2), (h.offset, 11), (h.boff, 6), (h.bcnt, 7), (0, 2), (h.issuer, 4), (h.rsegs.length, 4),
     (packSegs h.rsegs, 96), (h.cmd, 64)])

/-! ## Windows (R164-R167, Table 6.5) -/

def wValid (w : Reg64) : Bool := bit w.toNat 0
def wAccum (w : Reg64) : Bool := bit w.toNat 1
def wTagmode (w : Reg64) : Nat := fld w.toNat 2 2
def wBase (w : Reg64) : Nat := fld w.toNat 8 11
def wLen (w : Reg64) : Nat := fld w.toNat 19 12
def wAcnt (w : Reg64) : Nat := fld w.toNat 31 2
def wAcnten (w : Reg64) : Bool := bit w.toNat 33

/-- The window allows a writer of the class: WCOLL, WSTE, WSAGE (R165). -/
def wAllows (w : Reg64) (c : WClass) : Bool :=
  match c with
  | .coll => bit w.toNat 4
  | .ste => bit w.toNat 5
  | .sage => bit w.toNat 6
  | _ => false

/-- R167: the write is discarded. -/
def winViolation (w : Reg64) (ofs : Nat) (c : WClass) (accum : Bool) : Bool :=
  !wValid w || decide (ofs ≥ wLen w) || !wAllows w c || (accum != wAccum w)

/-- Writer code of a class in the event's DETAIL. -/
def classCode : WClass → Nat
  | .coll => 0 | .ste => 1 | .sage => 2 | .arrayEngine => 3 | .cbDrain => 4

/-- WINDOW_VIOLATION with the origin of its writer (R167). -/
def violationEv (core w ofs : Nat) (c : WClass) : Ev :=
  { mkEv .windowViolation w (ofs + (classCode c) <<< 16) core with
    org := match c with
      | .ste => .host
      | .sage => .device
      | _ => .program }

/-- A window write arrives (R165, R167): it waits in its place, or is discarded with the event and, in a RUNNING tile, the
halt. -/
def windowWrite (core w ofs : Nat) (c : WClass) (accum : Bool) (boff bcnt : Nat) (d : Unit512) (poison : Bool)
    (fl : Option Flit) (t : Tile) : Tile :=
  let r := mget 0 t.mu.win w
  let now := arrivalTime core t
  if winViolation r ofs c accum then
    let t := closeCycle core t
    let t := tileRaise (bump core .winViol 1 t) (violationEv core w ofs c)
    if t.tab.st = .running then { t with tab := { t.tab with st := .halted, delaying := false } } else t
  else
    let wr : MuWrite := { id := t.mu.nextId, cls := c, win := w, slot := wBase r + ofs, boff := boff, bcnt := bcnt
                          data := d, poison := poison, arr := now, since := now, flit := fl }
    if accum then
      bump core .cbWrites 1 { t with mu := { t.mu with accq := t.mu.accq ++ [wr], nextId := t.mu.nextId + 1 } }
    else { t with mu := { t.mu with ingress := t.mu.ingress ++ [wr], nextId := t.mu.nextId + 1 } }

/-- Writes of a class in the ingress buffer (R159). -/
def classCount (t : Tile) (c : WClass) : Nat := (t.mu.ingress.filter fun w => decide (w.cls = c)).length

/-! ## The write port (R158, R159, R166) -/

/-- A waiting plain write is held by FILLBLOCK: its slot is not empty (R166). -/
def fillHeld (t : Tile) (w : MuWrite) : Bool :=
  !w.raw && decide (wTagmode (mget 0 t.mu.win w.win) = 2) && !slotEmpty t w.slot

/-- A claimant of the write port: a waiting write, or an entry of the combining buffer that wants to drain. -/
inductive Owner where
  | write (w : MuWrite)
  | drain (e : CbEntry)
  deriving DecidableEq, Repr

/-- The claimant with an identity. -/
def ownerOf (t : Tile) (id : Nat) : Option Owner :=
  match t.mu.ingress.find? fun w => decide (w.id = id) with
  | some w => some (.write w)
  | none => (t.mu.cb.find? fun e => decide (e.id = id) && e.wants.isSome).map .drain

/-- The claimant holds an EXT mark for tile cycle c or a later one. -/
def hasMark (t : Tile) (c id : Nat) : Bool := t.mu.marks.any fun m => decide (m.owner = id) && decide (m.cycle ≥ c)

/-- The writes of a class that wait for the port in tile cycle c, oldest first: those before the first that FILLBLOCK holds,
without those that hold a mark (R159, R166). -/
def classWaiting (t : Tile) (c : Nat) (k : WClass) : List MuWrite :=
  ((t.mu.ingress.filter fun w => decide (w.cls = k)).takeWhile fun w => !fillHeld t w).filter fun w => !hasMark t c w.id

/-- The write of a class that may go first. -/
def classHead (t : Tile) (c : Nat) (k : WClass) : Option MuWrite := (classWaiting t c k).head?

/-- The entries that may drain in tile cycle c: they want to, hold no mark, and have merged nothing in that cycle (R143). -/
def drainsWaiting (t : Tile) (c : Nat) : List CbEntry :=
  t.mu.cb.filter fun e => e.wants.isSome && !hasMark t c e.id && decide (e.last < c)

/-- The drain that may go first: the entry that has wanted to longest. -/
def drainHead (t : Tile) (c : Nat) : Option CbEntry :=
  (drainsWaiting t c).foldl
    (fun best e => match best with
      | none => some e
      | some b => if e.wants.getD 0 < b.wants.getD 0 then some e else some b) none

/-- The highest-priority waiting non-tab write without a mark (R159). -/
def waitingHead (t : Tile) (c : Nat) : Option Owner :=
  match classHead t c .sage, classHead t c .arrayEngine, classHead t c .ste, drainHead t c, classHead t c .coll with
  | some w, _, _, _, _ => some (.write w)
  | none, some w, _, _, _ => some (.write w)
  | none, none, some w, _, _ => some (.write w)
  | none, none, none, some e, _ => some (.drain e)
  | none, none, none, none, some w => some (.write w)
  | none, none, none, none, none => none

/-- A tab landing or a bulk write holds the port in tile cycle c, or it has been used (R159). -/
def portTaken (t : Tile) (c : Nat) : Bool :=
  decide (t.mu.wUsed > c)
  || (t.fly.any fun f => decide (f.vis = c) && flightReserves f)
  || (match t.mu.bulk with
      | some b => bulkCycle b c
      | none => false)

/-- The non-tab holder of the write port in tile cycle c (R159): the owner of the cycle's mark, unless FILLBLOCK holds it and
it loses the mark, else the highest-priority waiting write (R158). -/
def portOwner (t : Tile) (c : Nat) : Option Owner :=
  if portTaken t c then none
  else match (t.mu.marks.find? fun m => decide (m.cycle = c)).bind fun m => ownerOf t m.owner with
    | some (.write w) => if fillHeld t w then waitingHead t c else some (.write w)
    | some (.drain e) => if e.last < c then some (.drain e) else none
    | none => waitingHead t c

/-- The marks after tile cycle c: those that have come due are gone. -/
def dropMarks (t : Tile) (c : Nat) : Tile :=
  { t with mu := { t.mu with marks := t.mu.marks.filter fun m => decide (m.cycle > c) } }

/-- Bytes of a slot replaced by a write (R157, R211). -/
def mergeBytes (old new : Unit512) (boff bcnt : Nat) : Unit512 :=
  if bcnt = 0 then new
  else BitVec.ofNat 512 (setFld old.toNat (8 * boff) (8 * bcnt) (fld new.toNat (8 * boff) (8 * bcnt)))

/-- The port is used in tile cycle c by a non-tab write (R185). -/
def usePort (core c : Nat) (t : Tile) : Tile :=
  bump core .muExtw 1 { t with mu := { t.mu with wUsed := c + 1 } }

/-- A plain window write lands in tile cycle c (R154, R166, R169); a CFGW's write concerns no window (R255). -/
def landWrite (core c : Nat) (w : MuWrite) (t : Tile) : Tile :=
  let r := if w.raw then 0 else mget 0 t.mu.win w.win
  let t := usePort core c { t with mu := { t.mu with
    ingress := t.mu.ingress.filter fun v => decide (v.id ≠ w.id)
    slots := mmod {} t.mu.slots w.slot fun o =>
      { o with data := mergeBytes o.data w.data w.boff w.bcnt, poison := w.poison } } }
  atEnd core (if wTagmode r ≠ 0 then some (w.slot, true) else none) (if wAcnten r then some (wAcnt r, 1) else none) t

/-- Lane-wise sum modulo 2^32 of two units (R142). -/
def addLanes32 (a b : Unit512) : Unit512 :=
  BitVec.ofNat 512 (joinElems 32 (List.zipWith (fun x y => (x + y) % 2 ^ 32) (elems a.toNat 32 16) (elems b.toNat 32 16)))

/-- An entry of the combining buffer drains in tile cycle c (R143). -/
def drainEntry (core c : Nat) (e : CbEntry) (t : Tile) : Tile :=
  let r := mget 0 t.mu.win e.win
  let t := bump core .cbDrains 1 (usePort core c { t with mu := { t.mu with
    cb := t.mu.cb.filter fun v => decide (v.id ≠ e.id)
    slots := mmod {} t.mu.slots e.slot fun o =>
      { o with data := addLanes32 o.data e.lanes, poison := o.poison || e.poison } } })
  atEnd core none (if wAcnten r then some (wAcnt r, e.count) else none) t

/-- The tile cycle in which a write is given the port: while the tile issues, the cycle that the tab runs next, so that the
tab's read in it sees the write (R153); else the first cycle in which the port goes to a write. -/
def grantCycle (core : Nat) (t : Tile) : Nat :=
  if issuing t then t.tab.tc
  else
    let c := max (tileTime core t) t.mu.wUsed
    (((List.range 64).map (c + ·)).find? fun k => (portOwner t k).isSome).getD c

/-- The device cycle of a grant. -/
def grantCore (core : Nat) (t : Tile) : Nat :=
  if issuing t then max core t.tab.nextCore else max core (dueCore t (grantCycle core t))

/-! ## Combining buffer (R143, R144) -/

/-- The oldest accumulate-write is handled: merged into the entry of its slot, given a free entry, or held while the entry
allocated earliest drains. -/
def accArrive (core : Nat) (t : Tile) : Tile :=
  match t.mu.accq with
  | [] => t
  | w :: rest =>
    let now := arrivalTime core t
    if t.mu.cb.any fun e => decide (e.slot = w.slot) then
      bump core .cbMerges 1 { t with mu := { t.mu with accq := rest, cb := t.mu.cb.map fun e =>
        if e.slot = w.slot then
          { e with lanes := addLanes32 e.lanes w.data, poison := e.poison || w.poison, count := e.count + 1, last := now }
        else e } }
    else if t.mu.cb.length < 8 then
      { t with mu := { t.mu with accq := rest, nextId := t.mu.nextId + 1, cb := t.mu.cb ++
        [{ slot := w.slot, win := w.win, lanes := w.data, poison := w.poison, count := 1, last := now
           id := t.mu.nextId }] } }
    else
      { t with mu := { t.mu with cb := match t.mu.cb with
          | e :: es => { e with wants := some (e.wants.getD now) } :: es
          | [] => [] } }

/-- An accumulate-write would be taken or merged. -/
def accTakes (t : Tile) : Bool :=
  match t.mu.accq with
  | [] => false
  | w :: _ => (t.mu.cb.any fun e => decide (e.slot = w.slot)) || decide (t.mu.cb.length < 8)

/-! ## Packet reads (R160, R211) -/

/-- A bulk copy reads in tile cycle c: it writes in the next (R160). -/
def copyClaims (t : Tile) (c : Nat) : Bool :=
  match t.mu.bulk with
  | some b => decide (fld b.cmd.toNat 0 2 = 2) && bulkCycle b (c + 1)
  | none => false

/-- The first tile cycle from c on that no copy claims: a copy at PACE 0 claims every cycle to its end. -/
def afterCopy (t : Tile) (c : Nat) : Nat :=
  if copyClaims t c then
    match t.mu.bulk with
    | some b => if fld b.cmd.toNat 4 2 = 0 then b.accepted + 6 + fld b.cmd.toNat 30 12 else c + 1
    | none => c
  else c

/-- Priority of an issuer for the read port: Sage, Array engine, stream engine (R160). -/
def issuerRank (i : Nat) : Nat := if i = 1 then 0 else if i = 6 then 1 else 2

/-- The oldest read of the best rank among some reads. -/
def bestRead : List PRead → Option PRead
  | [] => none
  | r :: rest => match bestRead rest with
    | none => some r
    | some b => if issuerRank b.issuer < issuerRank r.issuer then some b else some r

/-- The read a free cycle serves: the claimed one, else by rank (R160). -/
def readOwner (t : Tile) : Option PRead :=
  match t.mu.reads.find? (·.claimed) with
  | some r => some r
  | none => bestRead t.mu.reads

/-- The RESP of a completed MREAD (Table 7.10). -/
def respPacket (r : PRead) : Packet :=
  let h := r.header
  let tags := (r.got.zipIdx.map fun ((_, full, _), m) => b2n full * 2 ^ m).sum
  { header := packHdr
      { segs := (List.range (hRnseg h)).map fun k => (hRseg h k % 4, hRseg h k / 4)
        kind := 4, dx := hDx h, dy := hDy h, tag := hTag h, seq := hSeq h, npay := hNpay h, offset := hOffset h
        issuer := 7, cmd := tags }
    payload := r.got.map fun (d, _, p) => (d, p), epoch := r.epoch, by_ := r.issuer }

/-- The flits of a packet, LAST on the final one; they reach a port one a cycle from a device cycle on (R209). -/
def packetFlits (c : Nat) (p : Packet) : List PFlit :=
  let n := p.payload.length
  { header := p.header, idx := 0, data := p.header, last := decide (n = 0), epoch := p.epoch, by_ := p.by_, ready := c } ::
    p.payload.zipIdx.map fun ((d, bad), k) =>
      { header := p.header, idx := k + 1, data := d, poison := bad, last := decide (k + 1 = n), epoch := p.epoch
        by_ := p.by_, ready := c + k + 1 }

/-- A packet stands at the local port of its fret from a device cycle on. -/
def placePacket (c : Nat) (p : Packet) (t : Tile) : Tile :=
  { t with fret := { t.fret with pkts := mmod [] t.fret.pkts 4 (· ++ packetFlits c p) } }

/-- One slot of a packet read is read in tile cycle c; the response leaves with the last (R154, R211). -/
def readSlotFor (core c : Nat) (e : Ecc) (r : PRead) (t : Tile) : Tile :=
  let i := hOffset r.header + r.got.length
  let o : Slot := if i < 2048 then mget {} t.mu.slots i else { data := Config.pastSlot i }
  let t := if i < 2048 then spadUpset core e i t else t
  let r' := { r with claimed := false, got := r.got ++ [(o.data, o.full, o.poison || decide (e = .double))] }
  let t := { t with mu := { t.mu with rUsed := c + 1 } }
  if r'.got.length ≥ hNpay r.header then
    placePacket core (respPacket r') { t with mu := { t.mu with reads := t.mu.reads.filter fun v => decide (v.id ≠ r.id) } }
  else { t with mu := { t.mu with reads := t.mu.reads.map fun v => if v.id = r.id then r' else v } }

/-! ## Bulk operations (R161-R163, Table 6.4) -/

def bOp (w : Reg64) : Nat := fld w.toNat 0 2
def bTagset (w : Reg64) : Nat := fld w.toNat 2 2
def bPace (w : Reg64) : Nat := fld w.toNat 4 2
def bDst (w : Reg64) : Nat := fld w.toNat 8 11
def bSrc (w : Reg64) : Nat := fld w.toNat 19 11
def bCount (w : Reg64) : Nat := fld w.toNat 30 12
def bAcnt (w : Reg64) : Nat := fld w.toNat 42 2
def bAcnten (w : Reg64) : Bool := bit w.toNat 44

/-- R162: a malformed command word. -/
def muCmdBad (w : Reg64) : Bool :=
  decide (fld w.toNat 6 2 ≠ 0) || decide (fld w.toNat 45 19 ≠ 0) || decide (bOp w = 0 ∨ bOp w = 3) || decide (bTagset w = 3)
  || decide (bCount w = 0) || decide (bDst w + bCount w > 2048)
  || (decide (bOp w = 2) && decide (bSrc w + bCount w > 2048)) || (decide (bOp w = 1) && decide (bSrc w ≠ 0))

/-- Tile cycle of the next write of a bulk operation (R163). -/
def bulkDue (b : Bulk) : Nat := b.accepted + 7 + b.done * 2 ^ bPace b.cmd

/-- Destination and source slots of the next write (R163): a COPY with DST above SRC runs downward. -/
def bulkSlots (b : Bulk) : Nat × Nat :=
  let i := if bOp b.cmd = 2 ∧ bDst b.cmd > bSrc b.cmd then bCount b.cmd - 1 - b.done else b.done
  (bDst b.cmd + i, bSrc b.cmd + i)

/-- The data and poison a write of a bulk operation leaves in a slot (R154, R163). -/
def bulkPut (b : Bulk) (src : Slot) (o : Slot) : Slot :=
  if bOp b.cmd = 1 then { o with data := b.pattern, poison := false } else { o with data := src.data, poison := src.poison }

/-- The tag a write of a bulk operation leaves: TAGSET 1 full, 2 empty, 0 as it is (Table 6.4). -/
def bulkTag (b : Bulk) (slot : Nat) : Option (Nat × Bool) :=
  if bTagset b.cmd = 1 then some (slot, true) else if bTagset b.cmd = 2 then some (slot, false) else none

/-- The next slot of a bulk operation is written in tile cycle c; at its end the tag changes and, on the last, the counter
advances; a waiting command is accepted in the next cycle. -/
def bulkWrite (core c : Nat) (e : Ecc) (b : Bulk) (t : Tile) : Tile :=
  let (d, sl) := bulkSlots b
  let t := if bOp b.cmd = 2 then spadUpset core e sl t else t
  let src := mget {} t.mu.slots sl
  let last := decide (b.done + 1 ≥ bCount b.cmd)
  let t := usePort core c { t with mu := { t.mu with slots := mmod {} t.mu.slots d (bulkPut b src) } }
  let t := atEnd core (bulkTag b d) (if last ∧ bAcnten b.cmd then some (bAcnt b.cmd, bCount b.cmd) else none) t
  if last then
    { t with mu := { t.mu with
      bulk := t.mu.bulkWait.head?.map fun n => { n with accepted := c + 1 }
      bulkWait := t.mu.bulkWait.tail } }
  else { t with mu := { t.mu with bulk := some { b with done := b.done + 1 } } }

/-- An MU command reaches the tile: refused as malformed, accepted, or left waiting behind the one in progress (R162). -/
def muCommand (core issuer : Nat) (w : Reg64) (pattern : Option (Unit512 × Bool)) (t : Tile) : Tile :=
  let noPattern := decide (bOp w = 1) && pattern.isNone
  if muCmdBad w || noPattern then tileEvent core .muCmd 0 w.toNat t
  else
    let (p, pp) := pattern.getD (0, false)
    let b : Bulk := { cmd := w, pattern := p, patPoison := pp, accepted := arrivalTime core t, issuer := issuer }
    match t.mu.bulk with
    | none => { t with mu := { t.mu with bulk := some b } }
    | some _ => { t with mu := { t.mu with bulkWait := t.mu.bulkWait ++ [b] } }

/-- The first packet of a kind delivered at the terminal, and the others. -/
def takeInbox (k : Nat) : List Packet → Option (Packet × List Packet)
  | [] => none
  | p :: rest => if hKind p.header = k then some (p, rest) else (takeInbox k rest).map fun (q, r) => (q, p :: r)

/-- The class of a packet's issuer for window writes. -/
def issuerClass (i : Nat) : WClass := if i = 1 then .sage else if i = 6 then .arrayEngine else .ste

/-- The payload flits of a WWRITE that find room in the ingress buffer become window writes (R159, R211). -/
def wwriteFlits (core : Nat) (h : Unit512) : Nat → List (Unit512 × Bool) → Nat → Tile → Tile × List (Unit512 × Bool) × Nat
  | 0, l, done, t => (t, l, done)
  | _, [], done, t => (t, [], done)
  | n + 1, (d, p) :: rest, done, t =>
    let c := issuerClass (hIssuer h)
    if classCount t c < 4 then
      wwriteFlits core h n rest (done + 1)
        (windowWrite core (hWin h) (hOffset h + done) c false (hBoff h) (hBcnt h) d p none t)
    else (t, (d, p) :: rest, done)

end Sys2Proof.Machine
end

