-- ==== Sys2Proof/Machine/FretOps.lean ====
section
/-!
DEFINITION. Machine/FretOps: links and hop latencies, hop credits, the forwarding and delivery of string flits, terminals,
the routing of packets (R187-R213).
-/
namespace Sys2Proof.Machine

/-! ## Ports, inputs, links -/

/-- Link ports in register order (R221). -/
def dirNum : Dir → Nat
  | .n => 0 | .e => 1 | .s => 2 | .w => 3

/-- The port of the neighbour that faces a port. -/
def oppDir (d : Nat) : Nat := (d + 2) % 4

/-- The number of a fret input. -/
def inputNum : FlitIn → Nat
  | .link d c => 8 * dirNum d + c.val
  | .chan c => 32 + c.val
  | .slink d => 8 * dirNum d + 6
  | .schan => 40

/-- The logical neighbour in a direction, when the array has one (R189, R305). -/
def neighbour (s : State) (x y d : Nat) : Option (Nat × Nat) :=
  let w := gradeWidth s.grade
  let i := x / w
  let p := match d with
    | 0 => if y = 0 then none else some (x, y - 1)
    | 1 => some (if x % w + 1 < colWidth s.grade s.defects i then x + 1 else w * (i + 1), y)
    | 2 => some (x, y + 1)
    | _ => if x % w ≠ 0 then some (x - 1, y)
           else if i = 0 then none
           else some (w * (i - 1) + (colWidth s.grade s.defects (i - 1) - 1), y)
  p.filter fun (a, b) => tileExists s { x := a, y := b }

/-- Die, physical column and row of a logical tile, as the map in force at its load has it (R189). -/
def physPlace (s : State) (x y : Nat) : Nat × Nat × Nat :=
  match locate s.grade s.defects x y with
  | none => (0, 0, 0)
  | some (n, c, p) => (n, ((getTile s x y).phys).getD (c, p))

/-- The least of some numbers. -/
def leastOf : List Nat → Option Nat
  | [] => none
  | a :: as => match leastOf as with
    | none => some a
    | some b => some (min a b)

/-- Distance of two numbers. -/
def gap (a b : Nat) : Nat := max a b - min a b

/-- Hop latency from a tile to a neighbour (Table 7.2). -/
def hopLat (s : State) (x y x2 y2 : Nat) : Nat :=
  let (n, c, p) := physPlace s x y
  let (n2, c2, p2) := physPlace s x2 y2
  if n ≠ n2 then 2 else if y = y2 then max 1 (gap c c2) else max 1 (gap p p2)

/-- The port leads to a fenced bridge: the tiles lie in different bands, or one of them in none (R208, R336). -/
def fencedTo (s : State) (x x2 : Nat) : Bool := decide (partOfTile s x ≠ partOfTile s x2)

/-- The fret of a tile has power: the fabric rail of its die runs (R188). -/
def fretOn (s : State) (x y : Nat) : Bool :=
  decide ((mget {} s.power.dom (8 * dieNum (x / gradeWidth s.grade) (y / 64) + 4)).st = .run)

/-- The link of a port carries traffic: a neighbour with power, no fence, no failure (R188, R205, R208). -/
def linkTo (s : State) (x y d : Nat) : Option (Nat × Nat) :=
  (neighbour s x y d).filter fun (x2, y2) =>
    !fencedTo s x x2 && !bit (getTile s x y).fret.failed.toNat d && fretOn s x2 y2

/-! ## Outputs of an entry -/

/-- Outputs an entry names: 0-3 link ports, 4 the local terminal. -/
def routeOuts (r : Nat) : List Nat := (List.range 5).filter (rOut r)

/-! ## Buffers, pads and hop credits (R198, R200) -/

/-- A hop credit starts back from an input to the fret upstream, where it counts from a device cycle on. -/
def returnCredit (x y inp c : Nat) (s : State) : State :=
  if inp ≥ 32 then s
  else match neighbour s x y (inp / 8) with
    | none => s
    | some (x2, y2) =>
      let k := 8 * oppDir (inp / 8) + inp % 8
      let due := c + hopLat s x y x2 y2
      modTile s x2 y2 fun t => { t with fret := { t.fret with credit := mmod [] t.fret.credit k (· ++ [due]) } }

/-- High-water marks of Table 7.16 for an input. -/
def markHwm (inp : Nat) (t : Tile) : Tile :=
  let sc := scalarInput inp
  let n := bufHeld t inp
  let pads := (t.fret.bufs.map fun (i, _) => if scalarInput i then 0 else padHeld t i).sum
  let h := t.fret.hwm.toNat
  let h := if sc then setFld h 27 4 (max (fld h 27 4) n)
           else if inp ≥ 32 then setFld h 16 4 (max (fld h 16 4) n)
           else setFld h (4 * (inp / 8)) 4 (max (fld h (4 * (inp / 8)) 4) n)
  { t with fret := { t.fret with hwm := BitVec.ofNat 31 (setFld h 20 7 (max (fld h 20 7) pads)) } }

/-- The high-water mark of a link input sees the course-5 flits that have reached it by a device cycle (Table 7.16). -/
def markPkt (port c : Nat) (t : Tile) : Tile :=
  let n := ((mget [] t.fret.pkts port).filter fun g => decide (g.ready ≤ c)).length
  let h := t.fret.hwm.toNat
  { t with fret := { t.fret with
    hwm := BitVec.ofNat 31 (if port < 4 then setFld h (4 * port) 4 (max (fld h (4 * port) 4) n) else h) } }

/-- The cycle in which a flit of a link input arrived: its pad before it is ready. -/
def arrivedAt (t : Tile) (inp : Nat) (f : Flit) : Nat := f.ready - rPad (scalarInput inp) (routeOf t inp)

/-- A flit still on a link that failed never arrives (R205). -/
def heldOnLink (t : Tile) (inp : Nat) (f : Flit) : Bool :=
  decide (inp < 32) && bit t.fret.failed.toNat (inp / 8)
  && decide (arrivedAt t inp f ≥ mget 0 t.fret.failAt (inp / 8))

/-- The first flit of a list with a property, and the flits around it. -/
def splitFlit (k : Flit → Bool) : List Flit → Option (List Flit × Flit × List Flit)
  | [] => none
  | f :: fs => if k f then some ([], f, fs) else (splitFlit k fs).map fun (a, g, b) => (f :: a, g, b)

/-- The next flit on the link to an input arrives, if it does so by a device cycle. One that goes to the pad pool frees its
buffer slot at once (R198, R200). -/
def settleOne (x y inp now : Nat) (s : State) : State :=
  let t := getTile s x y
  match splitFlit (fun f => !f.arr) (mget [] t.fret.bufs inp) with
  | none => s
  | some (pre, f, post) =>
    if arrivedAt t inp f ≤ now ∧ ¬ heldOnLink t inp f then
      let q := pre ++ { f with arr := true } :: post
      let t' := markHwm inp { t with fret := { t.fret with bufs := mset [] t.fret.bufs inp q } }
      let s := setTile s x y t'
      if bufHeld t' inp = bufHeld t inp then returnCredit x y inp (arrivedAt t inp f) s else s
    else s

/-- All flits that reach an input by a device cycle have arrived. -/
def settleInput (x y inp now : Nat) (s : State) : State :=
  (mget [] (getTile s x y).fret.bufs inp).foldl (fun s _ => settleOne x y inp now s) s

/-- A list of terminal items without the first of an input. -/
def dropFirst (inp : Nat) : List Term → List Term
  | [] => []
  | m :: rest => if m.inp = inp then rest else m :: dropFirst inp rest

/-- The head of an input leaves its buffer in a device cycle; the slot it frees returns upstream, or counts for the tile's own
channel from the next cycle. -/
def popInput (x y inp c : Nat) (s : State) : State :=
  let s := settleInput x y inp c s
  let t := getTile s x y
  let q := mget [] t.fret.bufs inp
  let rest := match q.tail with
    | [] => []
    | g :: gs => { g with ready := max g.ready (c + 1) } :: gs
  let t := if inp ≥ 32 then closeCycle c t else t
  let t' := { t with fret := { t.fret with bufs := mset [] t.fret.bufs inp rest } }
  let s := setTile s x y t'
  if bufHeld t' inp < bufHeld t inp then returnCredit x y inp c s else s

/-- A flit is on its way to an input of the neighbour, where it is ready once its pad there has passed. -/
def arriveFlit (x y inp a : Nat) (f : Flit) (s : State) : State :=
  let t := getTile s x y
  let pad := rPad (scalarInput inp) (routeOf t inp)
  let q := mget [] t.fret.bufs inp ++ [{ f with ready := a + pad, arr := false }]
  setTile s x y { t with fret := { t.fret with bufs := mset [] t.fret.bufs inp q } }

/-- The first item of an input leaves its terminal in a device cycle: delivered, discarded or dropped. A slot it still held
is free. -/
def takeTerm (x y inp c : Nat) (s : State) : State :=
  let s := settleInput x y inp c s
  let t := getTile s x y
  let next := fun (l : List Term) => l.map fun m => if m.inp = inp then { m with due := max m.due (c + 1) } else m
  let later := fun (q : List Flit) => match q with
    | g :: gs => (if termBlocks t inp > 0 ∧ g.left = [] then { g with ready := max g.ready (c + 1) } else g) :: gs
    | [] => []
  let t' := { t with fret := { t.fret with
    term := next (dropFirst inp t.fret.term), bufs := mmod [] t.fret.bufs inp later } }
  let s := setTile s x y (if inp ≥ 32 then closeCycle c t' else t')
  if bufHeld t' inp < bufHeld t inp then returnCredit x y inp c s else s

/-! ## Stale flits (R265) -/

/-- A fret drops an item of a foreign epoch: the first since the epoch changed raises STALE_EPOCH, CORRECTED within 1 ms of
a forced path's reset. -/
def staleDrop (core sub detail n : Nat) (t : Tile) : Tile :=
  let t := bump core .stale n t
  if t.fret.staleRaised then t
  else
    let forced := match t.fret.forcedAt with
      | some c => decide (core ≤ c + 1800000)
      | none => false
    let e := { mkEv .staleEpoch sub detail core with cls := if forced then .corrected else .uncorrected }
    tileRaise { t with fret := { t.fret with staleRaised := true } } e

/-- A string in the DETAIL of an event: x, y and output channel of its source (R178). -/
def strDetail (p : Str) : Nat := packFields [(p.x, 10), (p.y, 9), (p.ch, 3)]

/-! ## Link outputs (R199, R204) -/

/-- The key of a link output on a network: 2d, 2d + 1 for scalar words. -/
def netKey (sc : Bool) (d : Nat) : Nat := 2 * d + b2n sc

/-- The first device cycle from c on in which a link output is free: after the last item it sent, and once a retry request has
reached it, after the replay of that item (R204). -/
def outFree (t : Tile) (sc : Bool) (d c : Nat) : Nat :=
  let o := mget 0 t.fret.outAt (if sc then 4 + d else d)
  let (u, by_) := mget (0, 0) t.fret.retryTo (netKey sc d)
  if u ≤ c ∧ o ≤ u then max c (o + by_) else max c o

/-- Cycles that an item sent in a device cycle takes to reach the next fret: its hop latency, and the delay of a retry whose
request has not reached the sender (R204). -/
def linkLat (t : Tile) (sc : Bool) (d h c : Nat) : Nat :=
  let (u, by_) := mget (0, 0) t.fret.retryTo (netKey sc d)
  if c < u then h + by_ else h

/-- An item goes out on a link (R197, R204): the cycle its output is taken, the retry buffer with the last eight items, the
cycle its acknowledgement is back. -/
def noteSent (sc : Bool) (d c lat h : Nat) (it : LinkItem) (t : Tile) : Tile :=
  let k := netKey sc d
  let q := mget [] t.fret.sent k
  let n := match q with
    | (m, _) :: _ => (m + 1) % 16
    | [] => 0
  { t with fret := { t.fret with
    outAt := mset 0 t.fret.outAt (if sc then 4 + d else d) (c + 1)
    sent := mset [] t.fret.sent k ((n, it) :: q.take 7)
    ackAt := mmod 0 t.fret.ackAt k (max (c + lat + h)) } }

/-! ## Link grants (R199) -/

/-- Courses of the string flits that may leave on a link output in a device cycle, with the input each waits on. -/
def eligible (t : Tile) (d c : Nat) : List Nat :=
  t.fret.bufs.filterMap fun (i, q) =>
    match q with
    | [] => none
    | g :: _ =>
      let r := routeOf t i
      if !scalarInput i && rValid r && rOut r d && !g.left.contains d && decide (g.ready ≤ c)
          && decide (mget 0 t.fret.used (8 * d + rCourse r) < 8) then some (rCourse r) else none

/-- The course granted among the eligible ones: round robin from the course after the one last granted. -/
def granted (t : Tile) (d : Nat) : List Nat → Option Nat
  | [] => none
  | k :: ks => match granted t d ks with
    | none => some k
    | some b =>
      let key := fun k => (k + 5 - mget 0 t.fret.rr d % 5) % 5
      if key k ≤ key b then some k else some b

/-! ## Time at the local port -/

/-- The device cycle in which the tile can take a delivery that could happen in cycle c: one later in the second period of
a stretched tile cycle (R372). -/
def deliverAt (s : State) (x y c : Nat) : Nat :=
  let t := getTile s x y
  let (n, q) := tilePlace s x y
  if issuing t ∧ 1 ≤ c ∧ t.tab.nextCore = c + 1 ∧ stretchedAt s n q (c - 1) then c + 1 else c

/-! ## Forwarding a string flit -/

/-- The MU ingress has room for a write of a window terminal (R159, R143). -/
def windowRoom (t : Tile) (r : Nat) : Bool :=
  if rTerm false r = 1 then decide (classCount t .coll < 4) else decide (t.mu.accq.length < 4)

/-- The first device cycle in which the head of an input could leave on an output, apart from other flits; none while it
cannot leave. -/
def outReady (s : State) (x y inp o c0 : Nat) (f : Flit) : Option Nat :=
  let t := getTile s x y
  let sc := scalarInput inp
  let r := routeOf t inp
  if o < 4 then
    if (linkTo s x y o).isNone then none
    else if sc then
      if mget 0 t.fret.used (8 * o + 6) < 8 then some (outFree t true o c0) else none
    else
      let c := outFree t false o c0
      if !mget false t.fret.c5Aged o && decide (mget 0 t.fret.used (8 * o + rCourse r) < 8)
          && decide (granted t o (eligible t o c) = some (rCourse r)) then some c else none
  else if sc ∨ rTerm sc r = 0 ∨ rSkew sc r > 0 then
    if (t.fret.term.filter fun m => decide (m.inp = inp)).length ≤ rSkew sc r then some c0 else none
  else
    if windowRoom t r then some (deliverAt s x y (max c0 f.ready)) else none

/-- The first item of an input at its terminal. -/
def headTerm (t : Tile) (inp : Nat) : Option Term := t.fret.term.find? fun m => decide (m.inp = inp)

/-- The first cycle in which the flit at the head of a port's course 5 could leave it. -/
def pktReady (t : Tile) (port : Nat) : Option Nat :=
  (mget [] t.fret.pkts port).head?.map fun g => max g.ready (mget 0 t.fret.pktAt port)

/-- The link output that the flit at the head of a port's course 5 waits for: by its own header's next segment, or by its
packet's header before it (R212). -/
def pktWants (t : Tile) (port : Nat) : Option Nat :=
  match mget [] t.fret.pkts port with
  | [] => none
  | g :: _ => if g.idx = 0 then (nextSeg g.data).map (·.2) else match mget .lost t.fret.way port with
    | .link d | .out d _ => some d
    | _ => none

/-- Cycles from which the flits, words and packets that wait for an output of a network could have left on it, apart from
the grant and the hop credit; for the local port, from which a delivery is due (R221). -/
def waiters (t : Tile) (sc : Bool) (o : Nat) : List Nat :=
  let heads := t.fret.bufs.filterMap fun (i, q) =>
    match q with
    | [] => none
    | g :: _ =>
      let r := routeOf t i
      if scalarInput i = sc ∧ rValid r ∧ rOut r o ∧ ¬ g.left.contains o ∧ g.epoch = t.fret.epoch
          ∧ ¬ heldOnLink t i g ∧ (o < 4 ∨ (sc = false ∧ rTerm sc r ≠ 0 ∧ rSkew sc r = 0)) then
        some g.ready else none
  let terms := if o < 4 then [] else
    (List.range 41).filterMap fun i => if scalarInput i = sc then (headTerm t i).map (·.due) else none
  let packets := if sc then [] else
    (List.range 5).filterMap fun p => if pktWants t p = some o then (pktReady t p) else none
  heads ++ terms ++ packets

/-- The key of an output in the stall marks. -/
def stallKey (sc : Bool) (o : Nat) : Nat := if sc then 5 + o else o

/-- Stall cycles of an output not yet counted, before a device cycle (R221). -/
def stallsBefore (t : Tile) (sc : Bool) (o c : Nat) : Nat :=
  match leastOf (waiters t sc o) with
  | none => 0
  | some r => c - max r (mget 0 t.fret.stallTo (stallKey sc o))

/-- Count the stall cycles of an output before the device cycle in which an item leaves on it. -/
def noteStall (sc : Bool) (o c : Nat) (t : Tile) : Tile :=
  let t := bump c (if sc then .sStall o else .vStall o) (stallsBefore t sc o c) t
  let m := mmod 0 t.fret.stallTo (stallKey sc o) (max c)
  { t with fret := { t.fret with stallTo := m } }

/-- A flit leaves on a link (R197): counters, the output's cycle, the credit it takes, its arrival downstream. -/
def sendOn (x y inp o c : Nat) (f : Flit) (s : State) : State :=
  match linkTo s x y o with
  | none => s
  | some (x2, y2) =>
    let t := getTile s x y
    let sc := scalarInput inp
    let lane := if sc then 6 else rCourse (routeOf t inp)
    let h := hopLat s x y x2 y2
    let lat := linkLat t sc o h c
    let t := bump c (if sc then .sOut o else .vOut o) 1 (noteStall sc o c t)
    let t := noteSent sc o c lat h (.str f) t
    let t := { t with fret := { t.fret with
      used := mmod 0 t.fret.used (8 * o + lane) (· + 1), rr := if sc then t.fret.rr else mset 0 t.fret.rr o (lane + 1) } }
    arriveFlit x2 y2 (8 * oppDir o + lane) (c + lat) { f with lat := f.lat + h, left := [] } (setTile s x y t)

/-- A flit is delivered to a window terminal (R193, R211): one write at the running offset. A discarded write releases its
token at once (Table 7.7). -/
def deliverWindow (x y inp c : Nat) (f : Flit) (s : State) : State :=
  let t := getTile s x y
  let r := routeOf t inp
  let w := rWsel r
  let len := wLen (mget 0 t.mu.win w)
  let ofs := mget 0 t.fret.offset inp
  let accum := decide (rTerm false r = 2)
  let bad := winViolation (mget 0 t.mu.win w) ofs .coll accum
  let t := bump c (.vOut 4) 1 (noteStall false 4 c t)
  let t := if rExcess false r then bump c .late 1 t else t
  let t := windowWrite c w ofs .coll accum 0 0 f.data f.poison (some f) t
  let t := { t with fret := { t.fret with offset := mset 0 t.fret.offset inp (if ofs + 1 ≥ len then 0 else ofs + 1) } }
  let s := setTile s x y t
  if bad then releaseToken c f s else s

/-- A flit leaves on an output in a device cycle. -/
def leaveOn (x y inp c : Nat) (f : Flit) (o : Nat) (s : State) : State :=
  let t := getTile s x y
  let sc := scalarInput inp
  let r := routeOf t inp
  if o < 4 then sendOn x y inp o c f s
  else if sc ∨ rTerm sc r = 0 ∨ rSkew sc r > 0 then
    let m : Term := { inp := inp, flit := { f with lat := f.lat + rSkew sc r }, due := c + rSkew sc r }
    setTile s x y { t with fret := { t.fret with term := t.fret.term ++ [m] } }
  else deliverWindow x y inp c f s

/-- A branch has one token more to come for each output beyond the first (R201). -/
def branchTokens (f : Flit) (extra : Nat) (s : State) : State :=
  if extra = 0 then s
  else modTile s f.str.x f.str.y fun t => { t with fret := { t.fret with outst := t.fret.outst.map fun o =>
    if o.ch = f.str.ch ∧ o.num = f.num then { o with pending := o.pending + extra } else o } }

/-- The head of an input, with a valid entry, leaves on every output it can in the first cycle it can leave on one. -/
def forwardFlit (x y inp c0 : Nat) (f : Flit) (s : State) : State :=
  let r := routeOf (getTile s x y) inp
  let outs := (routeOuts r).filter fun o => !f.left.contains o
  let times := outs.filterMap fun o => (outReady s x y inp o c0 f).map fun c => (o, c)
  -- a flit before this one that still waits at the terminal is the head of the buffer
  let blocked := decide (f.left = []) && decide (termBlocks (getTile s x y) inp > 0)
  match if blocked then none else leastOf (times.map (·.2)) with
  | none => s
  | some c =>
    let now := (times.filter fun (_, k) => decide (k ≤ c)).map (·.1)
    let s := settleInput x y inp c (advanceTo s c)
    let s := if f.left = [] then branchTokens f ((routeOuts r).length - 1) s else s
    let s := now.foldl (fun s o => leaveOn x y inp c f o s) s
    let s := modTile s x y fun t => { t with fret := { t.fret with bufs := mmod [] t.fret.bufs inp fun q =>
      match q with
      | g :: gs => { g with left := g.left ++ now } :: gs
      | [] => [] } }
    if outs.all now.contains then popInput x y inp c s else s

/-- The first flit of a foreign epoch in an input's storage is dropped in the cycle it arrives, and its hop credit returns
(R265). -/
def dropStale (x y inp c : Nat) (s : State) : State :=
  let s := settleInput x y inp c s
  let t := getTile s x y
  match splitFlit (fun f => decide (f.epoch ≠ t.fret.epoch)) (mget [] t.fret.bufs inp) with
  | none => s
  | some (pre, f, post) =>
  let t' := { t with fret := { t.fret with bufs := mset [] t.fret.bufs inp (pre ++ post) } }
  let free := decide (bufHeld t' inp < bufHeld t inp)
  let s := setTile (advanceTo s c) x y (staleDrop c 0 (strDetail f.str) 1 t')
  if free then returnCredit x y inp c s else s

/-- A flit that SKEW holds at a window terminal is delivered in the cycle it is due, or the first with room. -/
def windowTerm (x y inp : Nat) (s : State) : State :=
  let t := getTile s x y
  match headTerm t inp with
  | none => s
  | some m =>
    let r := routeOf t inp
    if scalarInput inp ∨ rTerm false r = 0 ∨ ¬ windowRoom t r then s
    else
      let c := deliverAt s x y (max s.cycle m.due)
      takeTerm x y inp c (deliverWindow x y inp c m.flit (advanceTo s c))

/-- The flit at a window terminal is due no later than the head of the buffer is ready. -/
def windowTermFirst (s : State) (x y inp : Nat) (f : Flit) : Bool :=
  let t := getTile s x y
  let r := routeOf t inp
  match headTerm t inp with
  | none => false
  | some m => !scalarInput inp && decide (rTerm false r ≠ 0) && windowRoom t r
      && decide (max s.cycle m.due ≤ max s.cycle f.ready)

/-- The head of an input is handled in the first cycle it is ready: an upset of its route entry or of the flit, a foreign
epoch, a missing route, or its way on (R197, R213, R265, R302). -/
def hopFlit (x y inp : Nat) (u : Upset) (s : State) : State :=
  let t := getTile s x y
  match splitFlit (fun f => decide (f.epoch ≠ t.fret.epoch)) (mget [] t.fret.bufs inp), mget [] t.fret.bufs inp with
  | some (_, f, _), _ =>
    if heldOnLink t inp f then s else dropStale x y inp (max s.cycle (arrivedAt t inp f)) s
  | none, [] => windowTerm x y inp s
  | none, f :: rest =>
    if heldOnLink t inp f then s
    else if windowTermFirst s x y inp f then windowTerm x y inp s
    else
      let c := max s.cycle f.ready
      let r := routeOf t inp
      if u.parity then
        modTile (advanceTo s c) x y fun t => haltAny c .tabParity 1 inp (closeCycle c t)
      else
        if !rValid r then
          popInput x y inp c (modTile (advanceTo s c) x y fun t =>
            tileEvent c .routeMissing inp 0 (bump c .discard 1 t))
        else if u.flit then
          let g := { f with poison := true }
          let s := modTile s x y fun t => tileEvent c .spadUncorrected (0x20 + inp) 0
            { t with fret := { t.fret with bufs := mset [] t.fret.bufs inp (g :: rest) } }
          forwardFlit x y inp c g s
        else forwardFlit x y inp c f s

/-! ## Terminals -/

/-- Counters of a delivery into the tile, while the item is still at its terminal (Table 7.14). -/
def countDelivery (sc : Bool) (inp c : Nat) (t : Tile) : Tile :=
  let t := bump c (if sc then .sOut 4 else .vOut 4) 1 (noteStall sc 4 c t)
  if rExcess sc (routeOf t inp) then bump c .late 1 t else t

/-- OCC of a queue (Table 6.10). -/
def qOcc (q : Queue) : Nat := q.flits.length + q.held.length + q.reserved

/-- OCC in a device cycle: a flit popped in it still takes its place (R26, R174). -/
def qOccAt (q : Queue) (c : Nat) : Nat := qOcc q + b2n (decide (c < q.popAt))

/-- The high-water mark follows the occupancy. -/
def qMark (c : Nat) (q : Queue) : Queue := { q with hwm := BitVec.ofNat 6 (max q.hwm.toNat (qOccAt q c)) }

/-- The first device cycle from c on in which a queue has room for n flits more, if it will have. -/
def qRoomAt (q : Queue) (n c : Nat) : Option Nat :=
  if qOccAt q c + n ≤ 32 then some c else if qOcc q + n ≤ 32 then some q.popAt else none

/-- Mark the last flit of a list poisoned. -/
def poisonLast : List Flit → List Flit
  | [] => []
  | [f] => [{ f with poison := true }]
  | f :: fs => f :: poisonLast fs

/-- An OPEN queue takes a flit, when it can: a single queue while it holds fewer than 32; a merge queue from the string
whose message is open. With the queue, whether the message reached MSGLEN without LASTM, and the device cycle (R174, R175). -/
def queueTake (q : Queue) (c0 : Nat) (f : Flit) : Option (Queue × Bool × Nat) :=
  if q.writers.toNat ≤ 1 then
    (qRoomAt q 1 c0).map fun c => (qMark c { q with flits := q.flits ++ [f] }, false, c)
  else if q.openBy = some f.str then
    let held := q.held ++ [f]
    if f.last then some ({ q with flits := q.flits ++ held, held := [], reserved := 0, openBy := none }, false, c0)
    else if held.length ≥ q.msglen.toNat then
      some ({ q with flits := q.flits ++ poisonLast held, held := [], reserved := 0, openBy := none }, true, c0)
    else some ({ q with held := held, reserved := q.reserved - 1 }, false, c0)
  else none

/-- The head of an input at its queue terminal is accepted, discarded as late, refused, or dropped as stale, or waits
(Table 6.9, R174-R178). -/
def queueArrive (x y inp : Nat) (s : State) : State :=
  let t := getTile s x y
  match headTerm t inp with
  | none => s
  | some m =>
    let r := routeOf t inp
    let c := deliverAt s x y (max s.cycle m.due)
    let k := rQsel r
    let q := mget {} t.mu.queues k
    let putQ := fun (q : Queue) (t : Tile) => { t with mu := { t.mu with queues := mset {} t.mu.queues k q } }
    if scalarInput inp then s
    else match q.st with
      | .reset =>
        let s := takeTerm x y inp c (advanceTo s c)
        modTile s m.flit.str.x m.flit.str.y fun w => { w with fret := { w.fret with
          refusals := w.fret.refusals ++ [(x, y, k, m.flit.str.ch, c + 1 + m.flit.lat)] } }
      | .closed =>
        let s := modTile (takeTerm x y inp c (advanceTo s c)) x y fun t =>
          let t := bump c .qLate 1 (closeCycle c t)
          if q.lateRaised then t
          else tileEvent c .lateWrite k (strDetail m.flit.str) (putQ { q with lateRaised := true } t)
        releaseToken c m.flit s
      | .open_ =>
        if m.flit.epoch ≠ q.epoch then
          modTile (takeTerm x y inp c (advanceTo s c)) x y (staleDrop c 0 (strDetail m.flit.str) 1)
        else match queueTake q c m.flit with
          | none => s
          | some (q', long, c) =>
            let s := takeTerm x y inp c (modTile (advanceTo s c) x y (countDelivery false inp c))
            modTile s x y fun t =>
              let t := bump c (.qIn k) 1 (putQ q' (closeCycle c t))
              if long then tileEvent c .msgLength k (strDetail m.flit.str) t else t


/-- The string granted next in a merge queue: its first flit waits longest, ties by port, course and channel (R175). -/
def mergeNext (t : Tile) (k : Nat) : Option Term :=
  let heads := (List.range 40).filterMap fun i =>
    if !scalarInput i && rValid (routeOf t i) && rOut (routeOf t i) 4 && decide (rTerm false (routeOf t i) = 0)
        && decide (rQsel (routeOf t i) = k) then headTerm t i else none
  heads.foldl (fun b m => match b with
    | none => some m
    | some a => if m.due < a.due then some m else some a) none

end Sys2Proof.Machine
end

