-- ==== Sys2Proof/Machine/PartOps.lean ====
section
/-!
DEFINITION. Machine/PartOps: partitions, ports and their bands; events that Sage raises; halt waves (R9, R219, R294, R336).
-/
namespace Sys2Proof.Machine

/-! ## Partitions and ports -/

/-- A partition, a port, a spine, an engine queue by number. -/
def getPart (s : State) (p : Nat) : Partition := mget {} s.parts p
def modPart (s : State) (p : Nat) (f : Partition → Partition) : State := { s with parts := mmod {} s.parts p f }
def getPort (s : State) (o : Nat) : Port := mget {} s.ports o
def modPort (s : State) (o : Nat) (f : Port → Port) : State := { s with ports := mmod {} s.ports o f }
def getSpine (s : State) (n : Nat) : Spine := mget {} s.spines n
def modSpine (s : State) (n : Nat) (f : Spine → Spine) : State := { s with spines := mmod {} s.spines n f }
def getEng (q : Partition) (e : Nat) : EngineQ := mget {} q.eng e
def modEng (q : Partition) (e : Nat) (f : EngineQ → EngineQ) : Partition := { q with eng := mmod {} q.eng e f }

/-- Number of an engine in SUBMIT_LIST (Table 12.14). -/
def engNum : Engine → Nat
  | .array => 0 | .stream => 1 | .check => 2

/-- PSTATE codes (Table 9.14). -/
def pstateNum : PState → Nat
  | .idle => 0 | .loading => 1 | .running => 2 | .draining => 3 | .checkpointing => 4 | .restoring => 5 | .halted => 6
  | .faulted => 7

/-- The partition a port serves (R336). -/
def partOfPort (s : State) (o : Nat) : Option Nat :=
  (List.range 4).find? fun p => (getPart s p).set_ && decide ((getPart s p).port = o)

/-- Dies of a band in the order of b (R227): die column from the west, then die row from the north. -/
def bandDies (q : Partition) : List Nat :=
  (List.range (q.hi + 1 - q.lo)).flatMap fun c => (List.range 6).map fun j => dieNum (q.lo + c) j

/-- Logical tiles of a die, in ascending record index r = 64 k + l (R250). -/
def dieTiles (s : State) (n : Nat) : List (Nat × Nat) :=
  (List.range (colWidth s.grade s.defects (n / 6))).flatMap fun k =>
    (List.range 64).map fun l => (gradeWidth s.grade * (n / 6) + k, 64 * (n % 6) + l)

/-- Logical tiles of a band. -/
def bandTiles (s : State) (p : Nat) : List (Nat × Nat) := (bandDies (getPart s p)).flatMap (dieTiles s)

/-- Apply a change to every tile of a list. -/
def overTiles (s : State) (ts : List (Nat × Nat)) (f : Nat → Nat → Tile → Tile) : State :=
  ts.foldl (fun s (x, y) => modTile s x y (f x y)) s

/-- Some tile of the list satisfies a condition. -/
def anyTile (s : State) (ts : List (Nat × Nat)) (k : Tile → Bool) : Bool := ts.any fun (x, y) => k (getTile s x y)

/-- Dies per band. -/
def bandSize (q : Partition) : Nat := 6 * (q.hi + 1 - q.lo)

/-- The stream engine or Sage has written into the tiles of a partition in this tick (R181). -/
def noteWrote (on : Bool) (x : Nat) (s : State) : State :=
  match on, partOfTile s x with
  | true, some p => modPart s p fun q => { q with wrote := true }
  | _, _ => s

/-! ## Events of Sage and the engines -/

/-- Sage, or an engine that reports through it, raises an event. -/
def sageRaise (s : State) (e : Ev) : State :=
  { s with sage := { s.sage with ev := raisePort s.sage.ev { e with cycle := s.cycle } } }

/-- An event of Table 11.5 raised by Sage for a partition. -/
def sageEvent (s : State) (c : EvCode) (sub detail : Nat) (part : Option Nat := none) (die : Option Nat := none)
    (tile : Option (Nat × Nat) := none) : State :=
  sageRaise s { mkEv c sub detail s.cycle with part := part, die := die, tile := tile }

/-! ## Halt waves (R32, R219) -/

/-- Physical row of a logical tile. -/
def physRow (s : State) (x y : Nat) : Nat := (physPlace s x y).2.2

/-- Latency of a column from its north edge to a row, and from its south edge (Tables 7.2, 7.13). -/
def fromNorth (s : State) (x y : Nat) : Nat :=
  ((List.range (y / 64)).map fun j => physRow s x (64 * j + 63) - physRow s x (64 * j) + 2).sum
  + (physRow s x y - physRow s x (64 * (y / 64)))
def fromSouth (s : State) (x y : Nat) : Nat :=
  ((List.range (5 - y / 64)).map fun k =>
    let j := 5 - k
    physRow s x (64 * j + 63) - physRow s x (64 * j) + 2).sum
  + (physRow s x (64 * (y / 64) + 63) - physRow s x y)

/-- Sage sends a halt wave through a band. -/
def startWave (s : State) (p : Nat) : State := modPart s p fun q => { q with wave := some s.cycle }

/-- A halt wave takes effect at a tile (R32). -/
def haltTile (spans : List (Nat × Nat)) (core : Nat) (t : Tile) : Tile :=
  match t.tab.st with
  | .running =>
    let t := if t.tab.delaying then idleUntil spans core t else t
    { t with tab := { t.tab with st := .halted, delaying := false, delayLeft := 0, nextCore := max t.tab.nextCore core } }
  | .loaded => { t with tab := { t.tab with st := .halted } }
  | _ => t

/-- A tile is halted by a wave that reaches it in a device cycle. -/
def haltAt (x y core : Nat) (s : State) : State :=
  let (n, q) := tilePlace s x y
  modTile s x y (haltTile (spansOf s n q) core)

end Sys2Proof.Machine
end

