-- ==== Sys2Proof/Machine/CheckOps.lean ====
section
/-!
DEFINITION. Machine/CheckOps: CRC-32C, CRC-64, XOR64 and the channels of the check engine (R357); SHA-256 (R275, R398).
-/
namespace Sys2Proof.Machine

/-! ## Reflected CRCs -/

/-- One bit of a reflected CRC. -/
def crcBit (poly r : Nat) : Nat := if r % 2 = 1 then (r / 2) ^^^ poly else r / 2

/-- One byte of a reflected CRC: the register takes the byte and eight shifts. -/
def crcByte (poly r b : Nat) : Nat := Nat.repeat (crcBit poly) 8 (r ^^^ b)

/-- The register over bytes. -/
def crcBytes (poly : Nat) (r : Nat) (bs : List Byte) : Nat := bs.foldl (fun r b => crcByte poly r b.toNat) r

/-- Reflected polynomials of Table 12.18. -/
abbrev poly32c : Nat := 0x82F63B78
abbrev poly64nvme : Nat := 0x9A6C9329AC4BC9B5

/-- CRC-32C of bytes (Table 12.18). -/
def crc32c (bs : List Byte) : Nat := crcBytes poly32c 0xFFFFFFFF bs ^^^ 0xFFFFFFFF

/-- CRC-64/NVME of bytes (Table 12.18). -/
def crc64 (bs : List Byte) : Nat := crcBytes poly64nvme (2 ^ 64 - 1) bs ^^^ (2 ^ 64 - 1)

/-! ## Channels -/

/-- The running register of a channel at ARM. -/
def chanStart (alg : Nat) : Nat := if alg = 0 then 0xFFFFFFFF else if alg = 1 then 2 ^ 64 - 1 else 0

/-- Whole words of a list of bytes are folded by XOR; the rest stays. -/
def xorWords : Nat → Nat → List Byte → Nat × List Byte
  | 0, r, bs => (r, bs)
  | n + 1, r, bs =>
    if bs.length < 8 then (r, bs) else xorWords n (r ^^^ ofBytesLE (bs.take 8)) (bs.drop 8)

/-- A channel folds bytes (R357). -/
def chanFold (bs : List Byte) (c : Chan) : Chan :=
  if c.alg = 0 then { c with acc := BitVec.ofNat 64 (crcBytes poly32c c.acc.toNat bs), bytes := c.bytes + bs.length }
  else if c.alg = 1 then
    { c with acc := BitVec.ofNat 64 (crcBytes poly64nvme c.acc.toNat bs), bytes := c.bytes + bs.length }
  else
    let all := c.part ++ bs
    let (r, rest) := xorWords all.length c.acc.toNat all
    { c with acc := BitVec.ofNat 64 r, part := rest, bytes := c.bytes + bs.length }

/-- The result of a channel (Tables 12.18, 12.22). -/
def chanResult (c : Chan) : Nat :=
  if c.alg = 0 then c.acc.toNat ^^^ 0xFFFFFFFF
  else if c.alg = 1 then c.acc.toNat ^^^ (2 ^ 64 - 1)
  else c.acc.toNat ^^^ ofBytesLE c.part

/-- Armed channels of a partition that satisfy a condition fold bytes. -/
def foldChannels (p : Nat) (k : Nat → Chan → Bool) (bs : List Byte) (s : State) : State :=
  modPart s p fun q => { q with chan := q.chan.map fun (n, c) => if c.armed && k n c then (n, chanFold bs c) else (n, c) }

/-- Bytes of a CXL.mem line pass a port: channels on that source whose bounds hold the line (R357). -/
def foldLine (p src pa : Nat) (d : Unit512) (s : State) : State :=
  foldChannels p (fun _ c => decide (c.src.toNat = src) && decide (c.lo ≤ pa ∧ pa ≤ c.hi)) (bytesLE d.toNat 64) s

/-! ## SHA-256 -/

/-- The greatest number whose e-th power is at most n, of the numbers below 2^40, found from the top bit down. -/
def intRoot (e n : Nat) : Nat :=
  (List.range 40).foldl (fun r i => if (r + 2 ^ (39 - i)) ^ e ≤ n then r + 2 ^ (39 - i) else r) 0

/-- The primes below 312: the first 64. -/
def smallPrimes : List Nat :=
  (List.range 312).filter fun n => decide (2 ≤ n) && (List.range 18).all fun d => decide (d < 2 ∨ n ≤ d ∨ n % d ≠ 0)

/-- The first 32 bits of the fractional part of the e-th root of a number. -/
def rootBits (e n : Nat) : Nat := intRoot e (n * 2 ^ (32 * e)) % 2 ^ 32

/-- Exclusive or of a 32-bit word rotated right by each of some distances. -/
def spin (ns : List Nat) (x : Nat) : Nat := ns.foldl (fun r n => r ^^^ ((x * 2 ^ (32 - n) + x / 2 ^ n) % 2 ^ 32)) 0

/-- One round with its constant: the eight working words, and the sixteen message words in hand, of which the first is used up
and a new one joins. -/
def shaRound : List Nat × List Nat → Nat → List Nat × List Nat
  | ([a, b, c, d, e, f, g, h], w), k =>
    let most := (a &&& (b ||| c)) ||| (b &&& c)
    let pick := (e &&& f) + ((2 ^ 32 - 1 - e) &&& g)
    let t := h + k + nth w 0 0 + pick + spin [6, 11, 25] e
    let new := nth w 0 0 + nth w 9 0 + (spin [7, 18] (nth w 1 0) ^^^ (nth w 1 0 / 2 ^ 3))
      + (spin [17, 19] (nth w 14 0) ^^^ (nth w 14 0 / 2 ^ 10))
    ([(t + most + spin [2, 13, 22] a) % 2 ^ 32, a, b, c, (d + t) % 2 ^ 32, e, f, g], w.drop 1 ++ [new % 2 ^ 32])
  | x, _ => x

/-- The eight words after a block of sixteen more. -/
def shaBlock (h w : List Nat) : List Nat :=
  (h.zip ((smallPrimes.map (rootBits 3)).foldl shaRound (h, w)).1).map fun (a, b) => (a + b) % 2 ^ 32

/-- The bytes of a number of n bytes, most significant first, and the number of such bytes. -/
def bytesBE (v n : Nat) : List Byte := (bytesLE v n).reverse
def ofBytesBE (bs : List Byte) : Nat := ofBytesLE bs.reverse

/-- A message as SHA-256 pads it: a one bit, zeros, the length in bits. -/
def shaPad (bs : List Byte) : List Byte :=
  bs ++ bytesLE 128 (1 + (119 - bs.length % 64) % 64) ++ bytesBE (8 * bs.length) 8

/-- The digest of SHA-256, its 32 bytes in order. -/
def sha256 (bs : List Byte) : List Byte :=
  let msg := shaPad bs
  let word := fun i => ofBytesBE ((msg.drop (4 * i)).take 4)
  let start := (smallPrimes.take 8).map (rootBits 2)
  ((List.range (msg.length / 64)).foldl (fun h k => shaBlock h ((List.range 16).map fun i => word (16 * k + i))) start).flatMap
    fun w => bytesBE w 4

/-- The digest as a field of a register or report, stored under R12 in the order of its bytes. -/
def shaWord (bs : List Byte) : BitVec 256 := BitVec.ofNat 256 (ofBytesLE (sha256 bs))

end Sys2Proof.Machine
end

