-- ==== Sys2Proof/Machine/StackOps.lean ====
section
/-!
DEFINITION. Machine/StackOps: stack memory, the address maps, slices, refresh, the merge table, ECC and poison (R223-R244).
-/
namespace Sys2Proof.Machine

/-! ## Address maps (R224-R227) -/

/-- Slice of a die-local address (R224). -/
def sliceOf (a : Nat) : Nat :=
  (fld a 8 6) ^^^ (fld a 14 6) ^^^ (fld a 20 6) ^^^ (fld a 26 6) ^^^ (fld a 32 5)

/-- Byte offset in the slice (R224). -/
def sliceOffset (a : Nat) : Nat := (fld a 14 23) * 256 + fld a 0 8

/-- Device address of an address of a die (R225). -/
def devAddr (n a : Nat) : Nat := n * 2 ^ 37 + a

/-- First address of the system reserve of a die (R226), and its offsets. -/
abbrev reserveBase : Nat := 0x1F00000000
abbrev imageLo : Nat := 0x88000000
abbrev imageHi : Nat := 0xF0000000
abbrev diagOfs : Nat := 0xF0000000

/-- Bytes of the host-visible part of a die (R227). -/
abbrev visible : Nat := 124 * 2 ^ 30

/-- HDM size of a partition (R330). -/
def hdmSize (q : Partition) : Nat := visible * bandSize q

/-- Device address of a partition address (R227). -/
def paToDa (q : Partition) (pa : Nat) : Nat := devAddr (6 * q.lo + pa / visible) (pa % visible)

/-- Partition address of a device address in the host-visible part of a band. -/
def daToPa (q : Partition) (da : Nat) : Nat := (da / 2 ^ 37 - 6 * q.lo) * visible + da % 2 ^ 37

/-! ## Memory -/

/-- The byte at a device address; memory that nothing has written reads as zero. -/
def memByte (m : List Host.Cell) (a : Nat) : Byte := mget 0 m a

/-- The little-endian number of n bytes. -/
def memNat (m : List Host.Cell) (a n : Nat) : Nat := ofBytesLE ((List.range n).map fun i => memByte m (a + i))

/-- Write bytes in ascending order. -/
def memPut (m : List Host.Cell) (a : Nat) : List Byte → List Host.Cell
  | [] => m
  | b :: bs => memPut (mset 0 m a b) (a + 1) bs

/-- A chunk with its marker (R242, R243). -/
def readChunk (s : State) (da : Nat) : Unit512 × Bool :=
  (BitVec.ofNat 512 (memNat s.stk.mem da 64), mget false s.stk.poison (da / 64))

/-- Merge entries of a granule close when a write arrives (R238). -/
def closeEntries (da : Nat) (s : State) : State :=
  let a := da % 2 ^ 37
  modSpine s (da / 2 ^ 37) fun sp =>
    { sp with reads := mmod [] sp.reads (sliceOf a) fun l => l.map fun r =>
        if r.granule = a / 256 then { r with joinable := false } else r }

/-- A counter of a spine advances (R246, R247). -/
def spineBump (n off k : Nat) (s : State) : State :=
  let sp := getSpine s n
  let old := mget 0 sp.ctr off
  let new := min (old + k) ctrMax
  modSpine s n fun sp =>
    let sp := { sp with ctr := mset 0 sp.ctr off new }
    if old < ctrMax ∧ new = ctrMax then { sp with ev := raisePort sp.ev (mkEv .counterSaturated 0 off s.cycle) } else sp

/-- A spine raises an event. -/
def spineEvent (n : Nat) (c : EvCode) (sub detail : Nat) (s : State) : State :=
  modSpine s n fun sp => { sp with ev := raisePort sp.ev (mkEv c sub detail s.cycle) }

/-! ## Slices (R236-R239) -/

/-- The stack of a slice is in service (Table 8.7). -/
def sliceUp (sp : Spine) (sl : Nat) : Bool := if sl < 32 then sp.up0 else sp.up1

/-- The first cycle, from a cycle on, in which a slice is not refreshing (R239). -/
def afterRefresh (sl c : Nat) : Nat :=
  if (c % 7040) / 110 = sl then c + (110 - c % 110) else c

/-- Cycles up to a device cycle in which a slice has been refreshing (R239). -/
def refreshed (sl c : Nat) : Nat := c / 7040 * 110 + min 110 (c % 7040 - 110 * sl)

/-- Cycles between two services of a slice: one granule every 9.216 cycles, in whole cycles. -/
abbrev serveCycles : Nat := 10

/-- A request that arrives at a slice is accepted, one a cycle, and served after those before it and outside refresh (R229,
R236, R237, R239): the cycles of its acceptance and its service. SPN_REF_WAIT counts what it waits on refresh. -/
def sliceServe (n sl arr dur : Nat) (s : State) : (Nat × Nat) × State :=
  let sp := getSpine s n
  let a := max arr (mget 0 sp.accept sl)
  let start := afterRefresh sl (max a (mget 0 sp.free sl))
  let s := spineBump n 0x30 (refreshed sl start - refreshed sl a) s
  ((a, start), modSpine s n fun sp => { sp with free := mset 0 sp.free sl (start + dur), accept := mset 0 sp.accept sl (a + 1) })

/-- Chain hops from the ring to the spine of a die, from the nearer end of its column (R230). -/
def chainHops (n : Nat) : Nat := min (n % 6) (5 - n % 6)

/-- The cycle in which a request from the ring reaches the spine of a die. -/
def ringArrival (s : State) (n : Nat) : Nat := s.cycle + 24 * chainHops n

/-- The Array engine or Sage reads granules of a die in bulk: the counts of Table 8.6, poisoned chunks among them. -/
def noteReads (n granules poisoned : Nat) (s : State) : State :=
  let s := spineBump n 0x10 granules (spineBump n 0x08 granules s)
  if poisoned = 0 then s else spineBump n 0x48 poisoned s

/-! ## Writes (R236, R242-R244) -/

/-- A whole chunk is written; poison stores the marker (R244). -/
def writeChunk (da : Nat) (d : Unit512) (poison : Bool) (s : State) : State :=
  let s := closeEntries da s
  { s with stk := { s.stk with
      mem := memPut s.stk.mem da (bytesLE d.toNat 64), poison := mset false s.stk.poison (da / 64) poison
      corrected := mset false s.stk.corrected (da / 64) false } }

/-- Bytes of a chunk are written, at an offset in it (R236, R243, R244): a marker stays, an uncorrectable chunk becomes
marked and takes no byte. The outcome e is what the code finds in the read step; a chunk that was corrected and written back
before is a repeat (R242). -/
def writePart (da off : Nat) (bs : List Byte) (poison : Bool) (e : Ecc) (who : Nat) (s : State) : State :=
  let n := da / 2 ^ 37
  let marked := mget false s.stk.poison (da / 64)
  let s := closeEntries da s
  let slice := sliceOf (da % 2 ^ 37)
  if marked then
    let s := spineBump n 0x48 1 s
    { s with stk := { s.stk with mem := memPut s.stk.mem (da + off) bs } }
  else if e = .double then
    let s := spineEvent n .stackUncorrected slice (da + who <<< 48) (spineBump n 0x40 1 s)
    { s with stk := { s.stk with poison := mset false s.stk.poison (da / 64) true } }
  else
    let s := if e = .single then
        let s' := spineEvent n .stackCorrected slice da (spineBump n 0x38 1 s)
        if mget false s.stk.corrected (da / 64) then spineEvent n .stackRepeat slice da s' else s'
      else s
    { s with stk := { s.stk with mem := memPut s.stk.mem (da + off) bs
                                 poison := mset false s.stk.poison (da / 64) poison
                                 corrected := mset false s.stk.corrected (da / 64) false } }

/-- A write request reaches its slice and is served (R236, R246): a partial one takes both steps. -/
def serveWrite (da arr : Nat) (whole : Bool) (s : State) : State :=
  let n := da / 2 ^ 37
  (sliceServe n (sliceOf (da % 2 ^ 37)) arr (if whole then serveCycles else 2 * serveCycles) (spineBump n 0x28 1 s)).2

/-- A whole chunk is written through its slice. -/
def putChunk (da : Nat) (d : Unit512) (poison : Bool) (s : State) : State :=
  writeChunk da d poison (serveWrite da s.cycle true s)

/-- Bytes of at most one chunk are written at a device address. -/
def writeBytes (da : Nat) (bs : List Byte) (poison : Bool) (e : Ecc) (who : Nat) (s : State) : State :=
  if da % 64 = 0 ∧ bs.length = 64 then writeChunk da (BitVec.ofNat 512 (ofBytesLE bs)) poison s
  else writePart (da - da % 64) (da % 64) bs poison e who s

/-- Some bytes of a range of memory of a partition are zeroed or cleared (R340, R403). -/
def clearRange (lo hi : Nat) (s : State) : State :=
  { s with stk := { mem := s.stk.mem.filter fun (a, _) => decide (a < lo ∨ hi ≤ a)
                    poison := s.stk.poison.filter fun (c, _) => decide (64 * c < lo ∨ hi ≤ 64 * c)
                    corrected := s.stk.corrected.filter fun (c, _) => decide (64 * c < lo ∨ hi ≤ 64 * c) } }

/-! ## Reads (R237, R238) -/

/-- A read of a granule of a die arrives at its slice in a device cycle (R237, R238): it joins an open entry, opens one, or
issues a read of its own. -/
def arriveRead (n g arr : Nat) (rd : Reader) (s : State) : State :=
  let sl := sliceOf (256 * g)
  let l := mget [] (getSpine s n).reads sl
  let s := spineBump n 0x08 1 s
  let a := max arr (mget 0 (getSpine s n).accept sl)
  let hit := fun (r : DramRead) => decide (r.granule = g) && r.entry && r.joinable && decide (a ≤ r.opened + 63)
  if l.any hit then
    let s := spineBump n 0x18 1 s
    modSpine s n fun sp => { sp with accept := mset 0 sp.accept sl (a + 1), reads := mset [] sp.reads sl (l.map fun r =>
      if hit r then { r with joins := r.joins ++ [rd] } else r) }
  else
    let free := decide ((l.filter (·.entry)).length < 16)
    let ((a, start), s) := sliceServe n sl arr serveCycles s
    let s := spineBump n 0x10 1 s
    let s := if free then s else spineBump n 0x20 1 s
    let da := devAddr n (256 * g)
    let marks := (List.range 4).map fun k => (b2n (mget false s.stk.poison (da / 64 + k)), 1)
    let r : DramRead := { granule := g, opened := a, entry := free, joinable := true, joins := [rd]
                          data := BitVec.ofNat 2048 (memNat s.stk.mem da 256), poison := BitVec.ofNat 4 (packFields marks)
                          due := start + 96 }
    modSpine s n fun sp => { sp with reads := mset [] sp.reads sl (l ++ [r]) }

/-- An entry whose window has ended and whose data has been delivered frees (R238). -/
def freeEntries (c : Nat) (l : List DramRead) : List DramRead :=
  l.filter fun r => !(r.returned && (!r.entry || decide (c ≥ r.opened + 64)))

/-! ## Back-invalidate (R331) -/

/-- The host of a partition holds one of the lines of a run of partition addresses. -/
def trackedLines (s : State) (p pa n : Nat) : List Nat :=
  (getPort s (getPart s p).port).filter.filter fun l => decide (pa / 64 ≤ l ∧ l ≤ (pa + n - 1) / 64)

/-- The port snoops lines it has not snooped yet. -/
def snoopLines (o : Nat) (ls : List Nat) (s : State) : State :=
  modPort s o fun q =>
    let new := ls.filter fun l => !q.snoops.contains l
    { q with snoops := q.snoops ++ new, out := q.out ++ new.map .biSnoop }

/-- Bytes of the tag area are written, without a marker (R270). -/
def putTags (da : Nat) (bs : List Byte) (s : State) : State :=
  { s with stk := { s.stk with mem := memPut s.stk.mem da bs, poison := mset false s.stk.poison (da / 64) false } }

/-- Sage writes bytes of the diagnostic area of a die, at an offset in the area (Table 11.14). -/
def putDiag (n ofs : Nat) (bs : List Byte) (s : State) : State :=
  { s with stk := { s.stk with mem := memPut s.stk.mem (devAddr n (reserveBase + diagOfs + ofs)) bs } }

end Sys2Proof.Machine
end

