-- ==== Sys2Proof/Machine/ImageOps.lean ====
section
/-!
DEFINITION. Machine/ImageOps: the section image in the image store, its checks, and the tile a record loads (R196,
R248-R258, R386).
-/
namespace Sys2Proof.Machine

/-! ## Register formats of the memory unit (Tables 6.1, 6.6, 6.7) -/

/-- TAB_AG0, TAB_AG1. -/
def agOf (w : Nat) : AddrGen :=
  { cur := BitVec.ofNat 11 (fld w 0 11), base := BitVec.ofNat 11 (fld w 11 11), lo := BitVec.ofNat 11 (fld w 22 11)
    hi := BitVec.ofNat 11 (fld w 33 11), stride := BitVec.ofNat 12 (fld w 44 12) }

/-- TAB_ACNT. -/
def acntOf (w : Nat) : ArrCtr :=
  { count := BitVec.ofNat 24 (fld w 0 24), quantum := BitVec.ofNat 24 (fld w 24 24), semid := BitVec.ofNat 6 (fld w 48 6) }

/-- The two semaphores of TAB_SEMk. -/
def semsOf (k w : Nat) : List (Nat × Sem) :=
  [(2 * k, { val := BitVec.ofNat 16 (fld w 0 16), cap := BitVec.ofNat 16 (fld w 16 16) }),
   (2 * k + 1, { val := BitVec.ofNat 16 (fld w 32 16), cap := BitVec.ofNat 16 (fld w 48 16) })]

/-! ## Where an image lies (R250, R252) -/

/-- Bytes of a tile record. -/
abbrev recSize : Nat := 0x4600

/-- An image of a partition: the band, the image store offset. -/
structure Img where
  part : Nat
  ofs : Nat
  deriving DecidableEq, Repr

/-- Device address of the die image on a die. -/
def dieBase (i : Img) (n : Nat) : Nat := devAddr n (reserveBase + i.ofs)

/-- Die of a logical tile and its record index (R250). -/
def tileDie (s : State) (x y : Nat) : Nat := dieNum (x / gradeWidth s.grade) (y / 64)
def recIndex (s : State) (x y : Nat) : Nat := 64 * (x % gradeWidth s.grade) + y % 64

/-- Device address of the record of a logical tile. -/
def recAddr (s : State) (i : Img) (x y : Nat) : Nat :=
  dieBase i (tileDie s x y) + 0x3000 + recSize * recIndex s x y

/-- A word of a tile record. -/
def recWord (s : State) (i : Img) (x y off : Nat) : Nat := memNat s.stk.mem (recAddr s i x y + off) 8

/-- Record offset of the route entry of an input (Tables 7.4, 9.3). -/
def routeOfs (inp : Nat) : Nat :=
  if inp = 40 then 0x4100
  else if inp ≥ 32 then 0x40A0 + 8 * (inp - 32)
  else if inp % 8 = 6 then 0x40E0 + 8 * (inp / 8)
  else 0x4000 + 8 * (5 * (inp / 8) + inp % 8)

/-- Inputs that have a route entry. -/
def routeInputs : List Nat :=
  ((List.range 4).flatMap fun d => (List.range 5).map fun k => 8 * d + k) ++ (List.range 8).map (32 + ·)
  ++ (List.range 4).map (8 * · + 6) ++ [40]

/-- Inputs of one network. -/
def netInputs (sc : Bool) : List Nat := routeInputs.filter fun i => scalarInput i == sc

/-- A route entry of the image. -/
def imgRoute (s : State) (i : Img) (x y inp : Nat) : Nat := recWord s i x y (routeOfs inp)

/-! ## Paths of strings (R196, R198) -/

/-- The input whose entry sends onto a link input; none for an input of the tile itself. -/
def upstream (s : State) (i : Img) (x y inp : Nat) : Option (Nat × Nat × Nat) :=
  if inp ≥ 32 then none
  else (neighbour s x y (inp / 8)).bind fun (x2, y2) =>
    ((netInputs (scalarInput inp)).find? fun k =>
      let r := imgRoute s i x2 y2 k
      rValid r && rOut r (oppDir (inp / 8)) && (scalarInput inp || decide (rCourse r = inp % 8))).map fun k => (x2, y2, k)

/-- Physical row of a logical tile under the map in force (R8). -/
def mapRow (s : State) (x y : Nat) : Nat :=
  match locate s.grade s.defects x y with
  | some (_, _, p) => p
  | none => 0

/-- Dead tiles a vertical hop within a die passes, under the map in force (R196). -/
def hopSkips (s : State) (x y x2 y2 : Nat) : Nat :=
  if x = x2 ∧ tileDie s x y = tileDie s x2 y2 then gap (mapRow s x y) (mapRow s x2 y2) - 1 else 0

/-- Vertical skips on the path from a string's source to an input; none when no source is reached. -/
def pathSkips (s : State) (i : Img) : Nat → Nat → Nat → Nat → Option Nat
  | 0, _, _, _ => none
  | fuel + 1, x, y, inp =>
    if inp ≥ 32 then some 0
    else match upstream s i x y inp with
      | none => none
      | some (x2, y2, k) => (pathSkips s i fuel x2 y2 k).map (· + hopSkips s x y x2 y2)

/-- Longer than any path of a band. -/
abbrev pathFuel : Nat := 4194304

/-- The fields of an entry that apply to it: WINDOW is zero unless the tile itself emits on the input, ALLOW unless the entry
ends at the local terminal; SKIPS, SKEW and EXCESS are the load's to write (R193). -/
def bareRoute (inp r : Nat) : Nat :=
  let sc := scalarInput inp
  let r := if inp ≥ 32 then r else if sc then setFld r 28 8 0 else setFld r 44 8 0
  let r := if rOut r 4 then r else if sc then setFld r 17 3 0 else setFld r 33 3 0
  if sc then setFld r 20 8 0 else setFld r 36 8 0

/-- A route entry as the load writes it: SKIPS, SKEW and EXCESS of a terminal computed (R193, R196). -/
def loadedRoute (s : State) (i : Img) (x y inp : Nat) : Nat :=
  let r := bareRoute inp (imgRoute s i x y inp)
  let sc := scalarInput inp
  if rValid r ∧ rOut r 4 then
    let n := (pathSkips s i pathFuel x y inp).getD 0
    let a := rAllow sc r
    let k := min n 15
    let skew := if n ≤ a then a - n else 0
    let exc := b2n (decide (n > a))
    if sc then setFld (setFld (setFld r 20 4 k) 24 3 skew) 27 1 exc
    else setFld (setFld (setFld r 36 4 k) 40 3 skew) 43 1 exc
  else r

/-! ## Checks of a tile record (Table 9.7) -/

/-- Quadrants that a QUADRANT_OFF record names (R386). -/
def quadOff (s : State) (n q : Nat) : Bool := s.defects.any fun d => decide (d.kind = 6 ∧ d.die = n ∧ d.quad = q)

/-- The tile lies in a quadrant with a QUADRANT_OFF record. -/
def tileOff (s : State) (x y : Nat) : Bool :=
  match locate s.grade s.defects x y with
  | none => false
  | some (n, c, p) => quadOff s n (quadOf c p)

/-- A null record (R386): entry 0 is END with every other field zero, no fills, no local terminal. -/
def nullRecord (s : State) (i : Img) (x y : Nat) : Bool :=
  decide (memNat s.stk.mem (recAddr s i x y) 16 = 5 * 2 ^ 124)
  && decide (fld (recWord s i x y 0x4280) 19 4 = 0)
  && routeInputs.all fun k => !rOut (imgRoute s i x y k) 4

/-- An address generator breaks R155 or has a RSVD bit. -/
def agBad (w : Nat) : Bool :=
  let cur := fld w 0 11
  let base := fld w 11 11
  let lo := fld w 22 11
  let hi := fld w 33 11
  decide (fld w 56 8 ≠ 0) || decide (hi < lo) || decide (base < lo ∨ hi < base) || decide (cur < lo ∨ hi < cur)

/-- RSVD bits or the RSVD code of a window descriptor are set (R14, Table 6.5). -/
def windowRsvd (w : Nat) : Bool := bit w 7 || decide (fld w 34 30 ≠ 0) || decide (fld w 2 2 = 3)

/-- The windows of a record break R164: only the overlap and a LEN of zero ask whether a window is valid. -/
def windowsBad (ws : List Nat) : Bool :=
  let bad := fun w =>
    windowRsvd w || decide (fld w 8 11 + fld w 19 12 > 2048) || (bit w 0 && decide (fld w 19 12 = 0))
      || (bit w 1 && (decide (fld w 2 2 ≠ 0) || bit w 5 || bit w 6))
  let meet := fun a b => bit a 0 && bit b 0 && decide (fld a 8 11 < fld b 8 11 + fld b 19 12)
    && decide (fld b 8 11 < fld a 8 11 + fld a 19 12)
  ws.any bad || (List.range 4).any fun a => (List.range a).any fun b => meet (nth ws a 0) (nth ws b 0)

/-- Semaphores break R171, or an arrival counter breaks reason 5. -/
def semsBad (sems acnts : List Nat) : Bool :=
  sems.any (fun w => decide (fld w 0 16 > fld w 16 16 ∨ fld w 32 16 > fld w 48 16))
  || acnts.any fun w => decide (fld w 0 24 ≠ 0) || decide (fld w 54 10 ≠ 0)
    || (decide (fld w 24 24 ≠ 0) && decide (fld w 48 6 > 47))

/-- A queue configuration outside 1-8 (reason 6). -/
def queueBad (w : Nat) : Bool :=
  decide (fld w 8 56 ≠ 0) || decide (fld w 0 4 = 0 ∨ fld w 0 4 > 8) || decide (fld w 4 4 = 0 ∨ fld w 4 4 > 8)

/-- Valid entries of a fret that deliver locally on a terminal of a kind. -/
def localEntries (s : State) (i : Img) (x y : Nat) (sc : Bool) (term : Nat) : List Nat :=
  ((netInputs sc).map (imgRoute s i x y)).filter fun r => rValid r && rOut r 4 && decide (rTerm sc r = term)

/-- Two of the numbers are equal. -/
def hasTwice : List Nat → Bool
  | [] => false
  | a :: as => as.contains a || hasTwice as

/-- Output port and course of every link output of a fret's valid entries. -/
def sendsOf (s : State) (i : Img) (x y : Nat) (sc : Bool) : List Nat :=
  (netInputs sc).flatMap fun k =>
    let r := imgRoute s i x y k
    if rValid r then ((List.range 4).filter (rOut r)).map fun d => if sc then d else 8 * d + rCourse r else []

/-- RSVD bits or the RSVD code of a route entry are set (R196, Tables 7.5 and 7.6). -/
def routeRsvd (inp r : Nat) : Bool :=
  if scalarInput inp then decide (fld r 36 28 ≠ 0)
  else decide (fld r 52 12 ≠ 0) || (rOut r 4 && decide (rTerm false r = 3))

/-- The conditions of R196 that a record breaks, by number. -/
def routeFails (s : State) (i : Img) (x y : Nat) : List Nat :=
  let r := fun k => imgRoute s i x y k
  let valid := routeInputs.filter fun k => rValid (r k)
  let win := fun w => recWord s i x y (0x4118 + 8 * w)
  let links := fun k => (List.range 4).filter (rOut (r k))
  let c1 := routeInputs.any fun k => routeRsvd k (r k)
  let c2 := valid.any fun k => (links k).any fun d =>
    match neighbour s x y d with
    | none => true
    | some (x2, _) => fencedTo s x x2
  let c3 := valid.any (fun k => !scalarInput k && decide (rCourse (r k) > 4))
    || hasTwice (sendsOf s i x y false) || hasTwice (sendsOf s i x y true)
  let c4 := valid.any fun k => (routeOuts (r k)).isEmpty || (links k).any fun d =>
    match neighbour s x y d with
    | none => false
    | some (x2, y2) => !rValid (imgRoute s i x2 y2 (8 * oppDir d + if scalarInput k then 6 else rCourse (r k)))
  let c5 := valid.any fun k => (pathSkips s i pathFuel x y k).isNone
  let c6 := (localEntries s i x y false 0).any fun e =>
    decide (fld (recWord s i x y (0x4218 + 8 * rQsel e)) 4 4 ≠
      ((localEntries s i x y false 0).filter fun f => decide (rQsel f = rQsel e)).length)
  let c7 := [1, 2].any fun tm => (localEntries s i x y false tm).any fun e =>
    let w := win (rWsel e)
    !bit w 0 || !bit w 4 || decide (fld w 1 1 ≠ tm - 1) || decide (rOfs e ≥ fld w 19 12)
  let c8 := decide (((netInputs false).map fun k => rPad false (r k)).sum > 64)
    || decide (((netInputs true).map fun k => rPad true (r k)).sum > 16)
  let c9 := valid.any fun k => decide (k ≥ 32) && decide (rWindow (scalarInput k) (r k) = 0)
  let c10 := decide ((localEntries s i x y true 0).length > 1) || (localEntries s i x y true 1).any fun e =>
    decide (rSemid e > 47)
      || decide (fld (recWord s i x y (0x4158 + 8 * (rSemid e / 2))) (16 + 32 * (rSemid e % 2)) 16 = 0)
  ([c1, c2, c3, c4, c5, c6, c7, c8, c9, c10].zipIdx.filter (·.1)).map (·.2 + 1)

/-- The reason a record is refused with, and the condition of R196 (Table 9.7). -/
def recordFail (s : State) (i : Img) (x y : Nat) : Option (Nat × Nat) :=
  let w := recWord s i x y
  let h := w 0x4280
  let words := fun off n => (List.range n).map fun k => w (off + 8 * k)
  let nfill := fld h 19 4
  let fill := fun k => memNat s.stk.mem (recAddr s i x y + 0x42A0 + 72 * k) 8
  if fld h 0 10 ≠ x ∨ fld h 10 9 ≠ y ∨ nfill > 12 ∨ fld h 23 41 ≠ 0 ∨ (words 0x4288 3).any (· ≠ 0) then some (2, 0)
  else if (words 0x4108 2).any agBad then some (3, 0)
  else if windowsBad (words 0x4118 4) then some (4, 0)
  else if semsBad (words 0x4158 24) (words 0x4138 4) then some (5, 0)
  else if (words 0x4218 8).any queueBad then some (6, 0)
  else match routeFails s i x y with
    | c :: _ => some (7, c)
    | [] =>
      if (List.range nfill).any fun k => muCmdBad (BitVec.ofNat 64 (fill k)) then some (8, 0)
      else if (words 0x4258 4).any (fun v => fld v 48 16 ≠ 0) ∨ w 0x4278 ≠ 0 then some (11, 0)
      else if tileOff s x y ∧ !nullRecord s i x y then some (12, 0)
      else none

/-! ## Checks of a die image (R256, R258) -/

/-- Fields of the die header (Table 9.2). -/
def dieHeader (s : State) (i : Img) (n : Nat) : Nat := memNat s.stk.mem (dieBase i n) 256
def dhSection (h : Nat) : Nat := fld h 16 16
def dhProgram (h : Nat) : Nat := fld h 32 32
def dhNstream (h : Nat) : Nat := fld h 82 7
def dhNspill (h : Nat) : Nat := fld h 89 9
def dhRphase (h : Nat) : Nat := fld h 98 13
def dhMapkey (h : Nat) : Nat := fld h 128 64

/-- The die header is refused (reason 1). -/
def headerBad (s : State) (i : Img) (n : Nat) : Bool :=
  let q := getPart s i.part
  let h := dieHeader s i n
  let h0 := dieHeader s i (6 * q.lo)
  decide (fld h 0 16 ≠ 1) || decide (fld h 64 4 ≠ q.hi + 1 - q.lo) || decide (fld h 68 6 ≠ n - 6 * q.lo)
  || decide (fld h 74 8 ≠ colWidth s.grade s.defects (n / 6)) || decide (dhNstream h > 64) || decide (dhNspill h > 256)
  || decide (dhRphase h > 7039) || decide (dhSection h ≠ dhSection h0) || decide (dhProgram h ≠ dhProgram h0)
  || decide (fld h 111 17 ≠ 0) || decide (fld h 192 1856 ≠ 0)

/-- A stack stream entry, a spill entry (Tables 9.4, 9.5). -/
def streamWord (s : State) (i : Img) (n k : Nat) : Nat := memNat s.stk.mem (dieBase i n + 0x100 + 32 * k) 32
def spillWord (s : State) (i : Img) (n k : Nat) : Nat := memNat s.stk.mem (dieBase i n + 0x900 + 32 * k) 32

/-- A tile of a die, by logical coordinate. -/
def onDie (s : State) (n x y : Nat) : Bool := tileExists s { x := x, y := y } && decide (tileDie s x y = n)

/-- A stack stream is refused (reason 9), for a RSVD field too (R14). -/
def streamBad (s : State) (i : Img) (n k : Nat) : Bool :=
  let e := streamWord s i n k
  let rsvd := decide (fld e 29 3 ≠ 0) || decide (fld e 56 8 ≠ 0) || decide (fld e 144 112 ≠ 0)
  let x := fld e 64 10
  let y := fld e 74 9
  let w := recWord s i x y (0x4118 + 8 * fld e 83 2)
  rsvd || decide (256 * (fld e 0 29 + fld e 32 24) > visible) || !onDie s n x y || !bit w 0 || bit w 1 || !bit w 5
  || decide (fld e 85 11 ≥ fld w 19 12)

/-- A spill is refused (reason 10), for a RSVD field too (R14). -/
def spillBad (s : State) (i : Img) (n k : Nat) : Bool :=
  let e := spillWord s i n k
  decide (fld e 42 22 ≠ 0) || decide (fld e 95 161 ≠ 0) || decide (fld e 19 11 + fld e 30 12 > 2048) || !onDie s n (fld e 0 10) (fld e 10 9)
  || decide (64 * (fld e 64 31 + fld e 30 12) > visible)

/-- What ends the load of a die: a poisoned chunk at a reserve offset, or a refusal with reason, index, condition, and the
record's tile. -/
inductive LoadFail where
  | poison (ofs : Nat)
  | refused (reason index cond : Nat) (tile : Option (Nat × Nat))
  deriving DecidableEq, Repr

/-- The first poisoned chunk of a range of a die's memory. -/
def poisonIn (s : State) (lo n : Nat) : Option Nat :=
  (s.stk.poison.find? fun (c, _) => decide (lo ≤ 64 * c + 63 ∧ 64 * c < lo + n)).map fun (c, _) => 64 * c

/-- The records of a die in ascending index, the first that fails. -/
def recordsFail (s : State) (i : Img) (n : Nat) : List (Nat × Nat) → Option LoadFail
  | [] => none
  | (x, y) :: rest =>
    match poisonIn s (recAddr s i x y) recSize with
    | some a => some (.poison (a - devAddr n reserveBase))
    | none => match recordFail s i x y with
      | some (reason, c) => some (.refused reason (recIndex s x y) c (some (x, y)))
      | none => recordsFail s i n rest

/-- The checks of a die image in their order (R256). -/
def dieFail (s : State) (i : Img) (n : Nat) : Option LoadFail :=
  match poisonIn s (dieBase i n) 0x3000 with
  | some a => some (.poison (a - devAddr n reserveBase))
  | none =>
    let h := dieHeader s i n
    if headerBad s i n then some (.refused 1 0xFFFF 0 none)
    else match (List.range (dhNstream h)).find? (streamBad s i n) with
      | some k => some (.refused 9 k 0 none)
      | none => match (List.range (dhNspill h)).find? (spillBad s i n) with
        | some k => some (.refused 10 k 0 none)
        | none => recordsFail s i n (dieTiles s n)

/-! ## The tile a record loads (R249, R257, R176) -/

/-- A fret right after Sage or the Array engine has reset it, in an epoch. -/
def freshFret (e : BitVec 4) (forced : Option Nat) : Fret := { epoch := e, forcedAt := forced }

/-- A fret that a load rewrites: the epoch changed before, so whether it has raised STALE_EPOCH since stays (R249, R265). -/
def loadFret (e : BitVec 4) (f : Fret) : Fret := { freshFret e f.forcedAt with staleRaised := f.staleRaised }

/-- The queues of a record: OPEN, empty, in the new epoch. -/
def loadQueue (e : BitVec 4) (w : Nat) : Queue :=
  { st := .open_, msglen := BitVec.ofNat 4 (fld w 0 4), writers := BitVec.ofNat 4 (fld w 4 4), epoch := e }

/-- One fill slot of a record runs to its end (R252). -/
def runFill (core : Nat) (t : Tile) (wp : Nat × Nat) : Tile :=
  let t := muCommand core 6 (BitVec.ofNat 64 wp.1) (some (BitVec.ofNat 512 wp.2, false)) t
  Nat.repeat (fun t => match t.mu.bulk with
    | some b => bulkWrite core t.mu.wUsed .clean b t
    | none => t) (fld wp.1 30 12) t

/-- The tile after its record has been written (R257): fields of the image, computed route fields, the partition epoch,
reset values elsewhere; slots keep what they hold until the fills. -/
def loadTile (s : State) (i : Img) (o : LoadOpts) (x y : Nat) (t : Tile) : Tile :=
  let q := getPart s i.part
  let w := recWord s i x y
  let a := recAddr s i x y
  let routes := routeInputs.map fun k => (k, BitVec.ofNat 64 (loadedRoute s i x y k))
  let local_ := (netInputs false).filter fun k =>
    let r := loadedRoute s i x y k
    rValid r && rOut r 4
  let late := local_.filter fun k => rExcess false (loadedRoute s i x y k) && decide (rTerm false (loadedRoute s i x y k) = 0)
  let skipq := (List.range 8).map fun k => (b2n (late.any fun e => rQsel (loadedRoute s i x y e) = k), 1)
  let place := (locate s.grade s.defects x y).map (·.2)
  let wins := (List.range 8).map (fun c => (c, let r := imgRoute s i x y (32 + c); if rValid r then rWindow false r else 0))
    ++ [(8, let r := imgRoute s i x y 40; if rValid r then rWindow true r else 0)]
  let fr := loadFret q.epoch t.fret
  let sc := dhSection (dieHeader s i (tileDie s x y))
  let p := fun k => fld (w (0x4258 + 8 * k)) 0 48
  let t' : Tile :=
    { tab := { st := .loaded, epoch := q.epoch, wdLimit := BitVec.ofNat 5 q.policy.limit
               mem := msetAll 0 [] ((List.range 1024).map fun k => (k, BitVec.ofNat 128 (memNat s.stk.mem (a + 16 * k) 16)))
               skipq := BitVec.ofNat 8 (packFields skipq), pred := (p 0, p 1, p 2, p 3)
               section_ := BitVec.ofNat 16 sc, seed := o.seed, nextCore := s.cycle }
      mu := { slots := t.mu.slots, ag0 := agOf (w 0x4108), ag1 := agOf (w 0x4110)
              win := msetAll 0 [] ((List.range 4).map fun k => (k, BitVec.ofNat 64 (w (0x4118 + 8 * k))))
              acnt := msetAll {} [] ((List.range 4).map fun k => (k, acntOf (w (0x4138 + 8 * k))))
              sems := msetAll {} [] ((List.range 24).flatMap fun k => semsOf k (w (0x4158 + 8 * k)))
              queues := msetAll {} [] ((List.range 8).map fun k => (k, loadQueue q.epoch (w (0x4218 + 8 * k)))) }
      fret := { fr with
        route := msetAll 0 [] routes, win := msetAll 0 [] wins
        offset := msetAll 0 [] (local_.map fun k => (k, rOfs (imgRoute s i x y k))) }
      ev := t.ev, loaded := true, phys := place }
  ((List.range (fld (w 0x4280) 19 4)).map fun k =>
    (memNat s.stk.mem (a + 0x42A0 + 72 * k) 8, memNat s.stk.mem (a + 0x42A8 + 72 * k) 64)).foldl (runFill s.cycle) t'

/-- The fret of a tile whose quadrant is off takes the entries that forward strings; nothing else is written (R386). -/
def loadOff (s : State) (i : Img) (x y : Nat) (t : Tile) : Tile :=
  let q := getPart s i.part
  let routes := routeInputs.map fun k => (k, BitVec.ofNat 64 (loadedRoute s i x y k))
  { t with fret := { loadFret q.epoch t.fret with route := msetAll 0 [] routes } }

/-- The records of some tiles of a die are written. -/
def loadTiles (i : Img) (o : LoadOpts) (ts : List (Nat × Nat)) (s : State) : State :=
  ts.foldl (fun s (x, y) => modTile s x y (if tileOff s x y then loadOff s i x y else loadTile s i o x y)) s

end Sys2Proof.Machine
end

