-- ==== Sys2Proof/Machine/PacketOps.lean ====
section
/-!
DEFINITION. Machine/PacketOps: packet mode: routes, checks, hops, delivery, discards, issue (R209-R215, R231).
-/
namespace Sys2Proof.Machine

/-! ## Routes -/

/-- Logical columns west of a coordinate. -/
def colIndex (s : State) (x : Nat) : Nat :=
  let w := gradeWidth s.grade
  ((List.range (x / w)).map (colWidth s.grade s.defects)).sum + x % w

/-- A route from a fret to a tile (R210, R212): horizontal first, then vertical; to the fret itself, one hop out and back. -/
def routeTo (s : State) (x y dx dy : Nat) : List (Nat × Nat) :=
  let a := colIndex s x
  let b := colIndex s dx
  let hz := if b < a then [(3, a - b)] else if a < b then [(1, b - a)] else []
  let vt := if dy < y then [(0, y - dy)] else if y < dy then [(2, dy - y)] else []
  if hz ++ vt = [] then (if y < 383 then [(2, 1), (0, 1)] else [(0, 1), (2, 1)]) else hz ++ vt

/-- The vertical hop between two logical rows of a column crosses the spine (R9, R231). -/
def crossesSpine (s : State) (x y y2 : Nat) : Bool :=
  decide (y / 64 = y2 / 64) && (decide (physRow s x y ≤ 32) != decide (physRow s x y2 ≤ 32))

/-- The ends of a column's spine hop in a die: its last logical row above physical row 33 and the next (R231). -/
def tapRow (s : State) (x j : Nat) : Nat :=
  64 * j + (((List.range 64).filter fun l => decide (physRow s x (64 * j + l) ≤ 32)).length - 1)

/-- The return route of a read (R210): to the band's north edge, or to the tap of the tile's own die for a read that a
spine issued. -/
def returnRoute (s : State) (tap : Bool) (dx dy : Nat) : List (Nat × Nat) :=
  if tap then
    let r := tapRow s dx (dy / 64)
    if dy ≤ r then [(2, r - dy + 1)] else [(0, dy - r)]
  else [(0, dy + 1)]

/-! ## Header checks (Table 7.11) -/

/-- A west segment after a segment of another direction. -/
def westLate : Bool → List (Nat × Nat) → Bool
  | _, [] => false
  | other, (d, _) :: rest => (other && decide (d = 3)) || westLate (other || decide (d ≠ 3)) rest

/-- Segments of a header, length included, as (direction, length). -/
def hSegs (h : Unit512) : List (Nat × Nat) := (List.range 8).map fun k => (hSeg h k % 4, hSeg h k / 4)

/-- The checks at the entry fret (Table 7.11, R211). -/
def hdrBad (h : Unit512) : Bool :=
  let w := h.toNat
  let n := hNseg h
  let segs := hSegs h
  decide (fld w 123 5 ≠ 0) || decide (fld w 190 2 ≠ 0) || decide (fld w 360 152 ≠ 0)
  || decide (hKind h = 0 ∨ hKind h ≥ 6) || decide (n = 0 ∨ n > 8)
  || (segs.take n).any (fun (_, l) => decide (l = 0)) || (List.range 8).any (fun k => decide (n ≤ k) && decide (hSeg h k ≠ 0))
  || (if hBcnt h = 0 then decide (hBoff h ≠ 0)
      else decide (hNpay h ≠ 1) || decide (hBcnt h > 64) || decide (hBoff h + hBcnt h > 64))
  || decide (hNpay h > 8) || westLate false (segs.take n)

/-- ISSUER allowed for KIND (Table 7.10). -/
def issuerAllowed (kind issuer : Nat) : Bool :=
  match kind with
  | 1 => decide (1 ≤ issuer ∧ issuer ≤ 5)
  | 2 => decide (1 ≤ issuer ∧ issuer ≤ 6)
  | 3 => decide (1 ≤ issuer ∧ issuer ≤ 6)
  | 4 => decide (issuer = 7)
  | 5 => decide (issuer = 1 ∨ issuer = 6)
  | _ => false

/-- The header with the length of segment k lowered by one (R212). -/
def decSeg (h : Unit512) (k : Nat) : Unit512 := BitVec.ofNat 512 (setFld h.toNat (4 + 12 * k) 12 (hSeg h k - 4))

/-- Hops a header still has to go. -/
def hopsLeft (h : Unit512) : Nat := ((hSegs h).map (·.2)).sum

/-! ## Packets at a fret -/

/-- TAG and SEQ of a packet in an event's DETAIL. -/
def pktDetail (h : Unit512) : Nat := hTag h + (hSeq h) <<< 16

/-- The flit at the head of a port's course 5 leaves it in a device cycle; its hop credit starts back. What is left of its
packet goes the same way. -/
def takePkt (x y port c : Nat) (last : Bool) (w : PktWay) (s : State) : State :=
  let s := modTile s x y fun t =>
    let t := markPkt port c t
    { t with fret := { t.fret with
      pkts := mmod [] t.fret.pkts port List.tail, pktAt := mset 0 t.fret.pktAt port (c + 1)
      way := mset .lost t.fret.way port (if last then .lost else w) } }
  if port < 4 then returnCredit x y (8 * port + 5) c s else s

/-- A packet is discarded: the count and the event of R213. -/
def discardPacket (code : EvCode) (x y c : Nat) (h : Unit512) (s : State) : State :=
  modTile s x y fun t => tileEvent c code (hIssuer h) (pktDetail h) (bump c .discard 1 t)

/-- What a terminal or an edge has of a packet, with one more flit. -/
def gatherPkt (g : PFlit) (a : Packet) : Packet :=
  if g.idx = 0 then { header := g.data, epoch := g.epoch, by_ := g.by_ }
  else { a with payload := a.payload ++ [(g.data, g.poison)] }

/-- A packet of which nothing has come. -/
def noPacket : Packet := { header := 0 }

/-- A flit of a packet has reached the terminal or the edge: with the last of them the packet is whole. -/
def gatherFlit (x y port : Nat) (g : PFlit) (whole : Packet → State → State) (s : State) : State :=
  let p := gatherPkt g (mget noPacket (getTile s x y).fret.asm port)
  let put := fun (p : Packet) => modTile s x y fun t => { t with fret := { t.fret with
    asm := mset noPacket t.fret.asm port p } }
  if g.last then whole p (put noPacket) else put p

/-- A RESP may leave the array here: off the north or south edge, or onto the tap with its last hop (R212, R231). -/
def respLeaves (s : State) (x y d : Nat) (h : Unit512) : Option Nat :=
  if hKind h ≠ 4 then none
  else if (neighbour s x y d).isNone ∧ d % 2 = 0 then some 0
  else if hopsLeft h = 1 ∧ d % 2 = 0 then
    match neighbour s x y d with
    | some (_, y2) => if crossesSpine s x y y2 then some 1 else none
    | none => none
  else none

/-- Where a header goes from a fret (R212, R213), with the event if it is discarded there: the checks of the terminal, the
array's edge, a fence. -/
def headWay (s : State) (x y : Nat) (h : Unit512) : PktWay × Option EvCode :=
  match nextSeg h with
  | none =>
    if hDx h ≠ x ∨ hDy h ≠ y then (.lost, some .packetMisroute)
    else if !issuerAllowed (hKind h) (hIssuer h) then (.lost, some .packetMalformed)
    else if hKind h = 5 ∧ (getTile s x y).tab.st = .running then (.lost, some .packetMalformed)
    else (.here, none)
  | some (_, d) =>
    match respLeaves s x y d h, neighbour s x y d with
    | some extra, _ => (.out d extra, none)
    | none, none => (.lost, some .packetMalformed)
    | none, some (x2, _) => if fencedTo s x x2 then (.lost, some .packetFenced) else (.link d, none)

/-- Where a flit of a packet goes: the header by its route, a payload flit behind it. -/
def flitWay (s : State) (x y port : Nat) (g : PFlit) : PktWay × Option EvCode :=
  if g.idx = 0 then headWay s x y g.data else (mget .lost (getTile s x y).fret.way port, none)

/-- Course 5 of a link output is free for the packet of a port (R199). -/
def mayOwn (t : Tile) (d port : Nat) : Bool := decide (mget 0 t.fret.c5Own d = 0 ∨ mget 0 t.fret.c5Own d = port + 1)

/-- A flit of a packet goes onto a link in the first cycle from c on in which its output grants it (R199, R212): the header
with its segment one hop shorter. -/
def sendPkt (x y port d c : Nat) (g : PFlit) (s : State) : State :=
  let t := getTile s x y
  let c := outFree t false d c
  match linkTo s x y d with
  | none => s
  | some (x2, y2) =>
    if !mayOwn t d port ∨ mget 0 t.fret.used (8 * d + 5) ≥ 8 ∨ (!mget false t.fret.c5Aged d ∧ eligible t d c ≠ []) then s
    else
      let h := hopLat s x y x2 y2
      let lat := linkLat t false d h c
      let g' := { g with
        data := if g.idx = 0 then decSeg g.data (((nextSeg g.data).map (·.1)).getD 0) else g.data, ready := c + lat }
      let s := takePkt x y port c g.last (.link d) (modTile (advanceTo s c) x y (noteStall false d c))
      let s := modTile s x y fun t =>
        let t := noteSent false d c lat h (.pkt g') (bump c (.vOut d) 1 t)
        { t with fret := { t.fret with
            used := mmod 0 t.fret.used (8 * d + 5) (· + 1), c5Own := mset 0 t.fret.c5Own d (if g.last then 0 else port + 1)
            c5Since := mset 0 t.fret.c5Since d (c + 1), c5Aged := mset false t.fret.c5Aged d false } }
      modTile s x2 y2 fun u => { u with fret := { u.fret with pkts := mmod [] u.fret.pkts (oppDir d) (· ++ [g']) } }

/-- The flit at the head of a port's course 5 takes an uncorrectable upset (R302): it goes on poisoned. -/
def upsetNext (x y port : Nat) (s : State) : State :=
  modTile s x y fun t => match mget [] t.fret.pkts port with
    | g :: rest =>
      tileEvent (max s.cycle (max g.ready (mget 0 t.fret.pktAt port))) .spadUncorrected
        (0x20 + (if port < 4 then 8 * port + 5 else 41)) 0
        { t with fret := { t.fret with pkts := mset [] t.fret.pkts port ({ g with poison := true } :: rest) } }
    | [] => t

/-- The flit at the head of a port's course 5 is handled in the first device cycle it can be (R199, R212, R213, R265): dropped
as stale, discarded, delivered, sent off the array, or forwarded. -/
def hopPacket (x y port : Nat) (s : State) : State :=
  let t := getTile s x y
  match mget [] t.fret.pkts port with
  | [] => s
  | g :: _ =>
    let c := max s.cycle (max g.ready (mget 0 t.fret.pktAt port))
    if port < 4 ∧ bit t.fret.failed.toNat port ∧ g.ready ≥ mget 0 t.fret.failAt port then s
    else if g.epoch ≠ t.fret.epoch then
      let s := advanceTo s c
      takePkt x y port c g.last .lost (if g.idx = 0 ∨ mget .lost t.fret.way port ≠ .lost then
        modTile s x y (staleDrop c (hIssuer g.header) (pktDetail g.header) 1) else s)
    else match flitWay s x y port g with
      | (.lost, ev) =>
        let s := advanceTo s c
        takePkt x y port c g.last .lost (match ev with
          | some code => discardPacket code x y c g.data s
          | none => s)
      | (.here, _) =>
        let c := deliverAt s x y c
        let s := modTile (advanceTo s c) x y fun t => bump c (.vOut 4) 1 (noteStall false 4 c t)
        gatherFlit x y port g (fun p s => modTile s x y fun t => { t with fret := { t.fret with
          inbox := t.fret.inbox ++ [{ p with ready := c }] } }) (takePkt x y port c g.last .here s)
      | (.out d extra, _) =>
        let c := outFree t false d c
        let s := modTile (advanceTo s c) x y fun t =>
          let t := bump c (.vOut d) 1 (noteStall false d c t)
          { t with fret := { t.fret with outAt := mset 0 t.fret.outAt d (c + 1) } }
        let g' := { g with data := if g.idx = 0 then decSeg g.data (((nextSeg g.data).map (·.1)).getD 0) else g.data }
        gatherFlit x y port g' (fun p s => { s with resps := s.resps ++ [{ p with ready := c + extra }] })
          (takePkt x y port c g.last (.out d extra) s)
      | (.link d, _) => sendPkt x y port d c g s

/-- A fret at which an issued packet may enter: an edge fret of the destination's band, or an end of the tap's hop
(R209, R231). -/
def mayEnter (s : State) (t : TileId) (tap : Option Nat) (segs : List (Nat × Nat)) (dx : Nat) : Bool :=
  match tap with
  | none => decide (t.y = 0 ∨ t.y = 383) && decide (partOfTile s t.x = partOfTile s dx)
  | some n =>
    decide (dieNum (t.x / gradeWidth s.grade) (t.y / 64) = n)
    && (let r := tapRow s t.x (t.y / 64)
        if segs.head?.map (·.1) = some 2 then decide (t.y = r + 1) else decide (t.y = r))

/-- The header of an issued packet for a fret it enters at: the route is built from there; one that carries a route keeps
it. -/
def entryHeader (s : State) (t : TileId) (h : Unit512) : Unit512 :=
  let segs := routeTo s t.x t.y (hDx h) (hDy h)
  if hNseg h = 0 then BitVec.ofNat 512 (setFld (setFld h.toNat 0 4 segs.length) 4 96 (packSegs segs)) else h

/-- The oldest issued packet that may enter at a fret, and the others. -/
def takeIssued (s : State) (t : TileId) :
    List (Packet × Option Nat) → Option (Packet × Option Nat × List (Packet × Option Nat))
  | [] => none
  | (p, tap) :: rest =>
    if mayEnter s t tap (routeTo s t.x t.y (hDx p.header) (hDy p.header)) (hDx p.header) then some (p, tap, rest)
    else (takeIssued s t rest).map fun (q, tp, r) => (q, tp, (p, tap) :: r)

/-- The oldest issued packet that may enter at a fret enters the array there (R209, R231), and the entry fret checks it. -/
def enterPacket (t : TileId) (s : State) : State :=
  match takeIssued s t s.issued with
  | none => s
  | some (p, tap, rest) =>
    let h := entryHeader s t p.header
    if fretOn s t.x t.y then
      let c := max s.cycle p.ready + b2n tap.isSome
      let s := { advanceTo s c with issued := rest }
      if p.epoch ≠ (getTile s t.x t.y).fret.epoch then
        modTile s t.x t.y (staleDrop c (hIssuer h) (pktDetail h) 1)
      else if hdrBad h then discardPacket .packetMalformed t.x t.y c h s
      else modTile s t.x t.y (placePacket c { p with header := h, ready := c })
    else s

/-! ## Issue -/

/-- The ISSUER code of the stream engine instance of a port (R326, Table 7.9). -/
def streamIssuer (o : Nat) : Nat := 2 + o

/-- The party that issues and a TAG: ISSUER, and the die of a spine that issues at its tap. -/
def seqKey (issuer : Nat) (tap : Option Nat) (tag : Nat) : Nat :=
  (64 * issuer + (tap.map (· + 1)).getD 0) * 65536 + tag % 65536

/-- Distance of two sequence numbers, going up (R214). -/
def seqAhead (a b : Nat) : Nat := (b + 65536 - a % 65536) % 65536

/-- Packets of one TAG that an issuer has outstanding (R214): issued and not in the array, or reads without their response. -/
def seqsOut (s : State) (issuer : Nat) (tap : Option Nat) (tag : Nat) : List Nat :=
  (s.issued.filterMap fun (k, tp) =>
    if hIssuer k.header = issuer ∧ tp = tap ∧ hTag k.header = tag then some (hSeq k.header) else none)
  ++ s.asked.filterMap fun r => if r.issuer = issuer ∧ r.tag = tag then some r.seq else none

/-- An issuer may issue the next packet of a TAG: no outstanding packet of it lies 2^15 or more behind (R214). -/
def mayIssue (s : State) (issuer : Nat) (tap : Option Nat) (tag : Nat) : Bool :=
  let n := mget 0 s.pktSeq (seqKey issuer tap tag)
  (seqsOut s issuer tap tag).all fun q => decide (seqAhead q n < 32768)

/-- A party issues a packet to a tile of a partition (R209, R214, R232): SEQ counts per party and TAG, the sideband carries
the partition epoch; a read is outstanding until its response has come. -/
def issuePacket (p : Nat) (tap : Option Nat) (h : Hdr) (payload : List (Unit512 × Bool)) (s : State) (dest : Nat := 0) : State :=
  let key := seqKey h.issuer tap h.tag
  let seq := mget 0 s.pktSeq key
  let pk : Packet := { header := packHdr { h with seq := seq }
                       payload := payload, epoch := (getPart s p).epoch, ready := s.cycle }
  let r : ReadOut := { issuer := h.issuer, part := p, tap := tap, tag := h.tag, seq := seq, x := h.dx, y := h.dy, offset := h.offset
                       npay := h.npay, dest := dest }
  { s with issued := s.issued ++ [(pk, tap)], pktSeq := mset 0 s.pktSeq key ((seq + 1) % 65536)
           asked := if h.kind = 2 then s.asked ++ [r] else s.asked }

/-- A response answers a read: its issuer, TAG, SEQ and tile (R214). -/
def answers (k : Packet) (r : ReadOut) : Bool :=
  decide (k.by_ = r.issuer ∧ hTag k.header = r.tag ∧ hSeq k.header = r.seq ∧ hDx k.header = r.x ∧ hDy k.header = r.y)

end Sys2Proof.Machine
end

