-- ==== Sys2Proof/Machine/EngineOps.lean ====
section
/-!
DEFINITION. Machine/EngineOps: list queues, entries, completion records (R351-R353, R358-R361).
-/
namespace Sys2Proof.Machine

/-! ## Entries (Tables 12.15 to 12.18) -/

def enOp (e : Unit512) : Nat := fld e.toNat 0 8
def enIrq (e : Unit512) : Bool := bit e.toNat 8
def enVec (e : Unit512) : Nat := fld e.toNat 9 5
def enStop (e : Unit512) : Bool := bit e.toNat 14
def enHaddr (e : Unit512) : Nat := fld e.toNat 64 64
def enSaddr (e : Unit512) : Nat := fld e.toNat 128 64
def enDaddr (e : Unit512) : Nat := fld e.toNat 192 64
def enLen (e : Unit512) : Nat := fld e.toNat 256 32
def enSlots (e : Unit512) : Nat := fld e.toNat 256 12
def enX (e : Unit512) : Nat := fld e.toNat 288 10
def enY (e : Unit512) : Nat := fld e.toNat 298 9
def enWin (e : Unit512) : Nat := fld e.toNat 307 2
def enOffset (e : Unit512) : Nat := fld e.toNat 309 11
def enAcnt (e : Unit512) : Nat := fld e.toNat 320 2
def enConfirm (e : Unit512) : Bool := bit e.toNat 322
def enSnoop (e : Unit512) : Nat := fld e.toNat 324 4

/-- The options of a LOAD entry (Table 12.16). -/
def loadOpts (e : Unit512) : LoadOpts :=
  { imgofs := fld e.toNat 64 32, seed := BitVec.ofNat 64 (fld e.toNat 96 64), ckpt := bit e.toNat 160
    force := bit e.toNat 161, stats := bit e.toNat 162 }

/-- STATS of a LOAD or FINISH entry. -/
def enStats (e : Unit512) : Bool := bit e.toNat 162

/-- An entry that acts on a tile (R356). -/
def tileEntry (e : Unit512) : Bool := decide (0x14 ≤ enOp e ∧ enOp e ≤ 0x18)

/-- What an entry has moved, in the unit of its DETAIL0: bytes, or slots for a tile entry (R355). -/
def enMoved (e : Unit512) (c : Entry) : Nat := if tileEntry e then c.moved / 64 else c.moved

/-! ## The running list -/

/-- Update the queue of an engine of a partition. -/
def modEngine (p eng : Nat) (f : EngineQ → EngineQ) (s : State) : State := modPart s p fun q => modEng q eng f

/-- Update the current entry of an engine. -/
def modCur (p eng : Nat) (f : Entry → Entry) (s : State) : State := modEngine p eng (fun g => { g with cur := f g.cur }) s

/-- The list an engine runs. -/
def runList (g : EngineQ) : Option CmdList := g.lists.head?.filter (·.started)

/-- The current entry of an engine, when it has not ended. -/
def openEntry (s : State) (p eng : Nat) : Option (CmdList × Unit512 × Entry) :=
  let g := getEng (getPart s p) eng
  match runList g, g.cur.ended with
  | some l, none => some (l, nth l.entries l.index 0, g.cur)
  | _, _ => none

/-- The current entry of an engine when it is one of an operation code, and has or has not started. -/
def entryOf (s : State) (p eng op : Nat) (started : Bool) : Option (CmdList × Unit512 × Entry) :=
  (openEntry s p eng).filter fun (_, e, c) => decide (enOp e = op) && (c.started == started)

/-- The current entry ends with a status and its two details (R358). The stream engine waits for no response of it any
more. -/
def endEntry (p eng st d0 d1 : Nat) (s : State) : State :=
  match openEntry s p eng with
  | none => s
  | some _ =>
    let s := modCur p eng (fun c => { c with ended := some (st, d0, d1) }) s
    if eng = 1 then { s with asked := s.asked.filter fun r => !decide (r.part = p ∧ 2 ≤ r.issuer ∧ r.issuer ≤ 5) } else s

/-- What the next entry of a list starts as: with DEP_FAILED, with SKIPPED, or waiting (R352, R353). -/
def beginEntry (l : CmdList) : Entry :=
  if l.depFailed then { ended := some (0x401, 0, 0) }
  else if l.stopped then { ended := some (0x400, 0, 0) }
  else {}

/-! ## Completion (Tables 12.19, 12.20) -/

/-- PSTATE as a completion status. -/
def stateStatus (q : Partition) : Nat := 0x410 + pstateNum q.st

/-- The completion record of the current entry (Table 12.19). -/
def complRecord (s : State) (p eng : Nat) (l : CmdList) (c : Entry) (st d0 d1 : Nat) : BitVec 256 :=
  BitVec.ofNat 256 (packFields
    [(st, 16), (b2n (decide ((getPart s p).restoreSeq ≠ l.seq)), 1), (b2n c.stale, 1), (b2n c.poison, 1), (1, 1), (eng, 2),
     (0, 2), (l.index, 8), (l.tag, 16), (c.section_, 16), (s.cycle, 64), (d0, 64), (d1, 64)])

/-- What a port sends for an MSI-X vector: nothing while the vector is masked (R360). -/
def vecOut (q : Port) (v : Nat) : List HostOut := if bit q.msixMask.toNat v then [] else [.vector v]

/-- The pending bits after a vector: a masked one sets its own (R360). -/
def vecPend (q : Port) (v : Nat) : BitVec 32 :=
  if bit q.msixMask.toNat v then q.msixPend ||| BitVec.ofNat 32 (2 ^ v) else q.msixPend

/-- A vector is sent, or pending while it is masked. -/
def putVector (v : Nat) (q : Port) : Port := { q with out := q.out ++ vecOut q v, msixPend := vecPend q v }

/-- A vector of a port whose link is up. -/
def sendVector (o v : Nat) (s : State) : State := modPort s o fun q => if q.up then putVector v q else q

/-- A completion record goes to the host, and then its vector (R358, R360). -/
def putCompl (k : Completion) (q : Port) : Port :=
  let q := { q with out := q.out ++ [.write k.addr (bytesLE k.record.toNat 32) false] }
  match k.vec with
  | some v => putVector v q
  | none => q

/-- A completion is written, or held while the port's link is down (R358, R364). -/
def writeCompl (p eng : Nat) (k : Completion) (s : State) : State :=
  let o := (getPart s p).port
  if (getPort s o).up then modPort s o (putCompl k)
  else modEngine p eng (fun g => { g with held := g.held ++ [k] }) s

/-- Lists that depend on a completed list learn how it ended (R352). -/
def resolveDeps (eng tag : Nat) (ok : Bool) (q : Partition) : Partition :=
  let fix := fun (l : CmdList) =>
    if l.dep = some (eng, tag) then { l with dep := none, depFailed := !ok } else l
  { q with eng := q.eng.map fun (i, g) => (i, { g with lists := g.lists.map fix }) }

/-- The running list has completed. -/
def completeList (p eng : Nat) (l : CmdList) (s : State) : State :=
  modPart s p fun q => resolveDeps eng l.tag (!l.failed) (modEng q eng fun g =>
    { g with lists := g.lists.tail, cur := {}, kept := ((l.tag, !l.failed) :: g.kept).take 64
             lastTag := BitVec.ofNat 16 l.tag, lastErr := l.failed })

/-- The ended entry of an engine writes its record, and the list goes on to its next entry or completes (R353, R358). -/
def retireEntry (p eng : Nat) (s : State) : State :=
  let g := getEng (getPart s p) eng
  match runList g, g.cur.ended with
  | some l, some (st, d0, d1) =>
    let e := nth l.entries l.index 0
    let k : Completion := { addr := l.cpl + 32 * l.index, record := complRecord s p eng l g.cur st d0 d1
                            vec := if enIrq e then some (enVec e) else none }
    let l' := { l with index := l.index + 1, failed := l.failed || decide (st ≠ 0)
                       stopped := l.stopped || (decide (st ≠ 0) && enStop e) }
    let s := writeCompl p eng k s
    if l'.index ≥ l.entries.length then completeList p eng l' s
    else modEngine p eng (fun g => { g with lists := l' :: g.lists.tail, cur := beginEntry l' }) s
  | _, _ => s

/-- An entry that a flush completes names a section, when the flush gives one (R274). -/
def flushSection (sec : Option Nat) (c : Entry) : Entry := { c with section_ := sec.getD c.section_ }

/-- The head list of a queue is made to run, its current entry ended with a status. -/
def forceEntry (st : Nat) (sec : Option Nat) (g : EngineQ) : EngineQ :=
  match g.lists with
  | [] => g
  | l :: rest =>
    { g with lists := { l with started := true } :: rest, cur := flushSection sec { g.cur with ended := some (st, 0, 0) } }

/-- Entries of a queue that have not completed. -/
def openEntries (g : EngineQ) : Nat := (g.lists.map fun l => l.entries.length - l.index).sum

/-- Every pending entry of an engine completes with a status, and a section index where one is given; an entry that has ended
keeps its own (R274, R295, R362). -/
def flushEngine (p eng st : Nat) (s : State) (sec : Option Nat := none) : State :=
  let n := openEntries (getEng (getPart s p) eng)
  let s := if (openEntry s p eng).isSome then modCur p eng (flushSection sec) s else s
  let first := retireEntry p eng (endEntry p eng st 0 0 s)
  let left := openEntries (getEng (getPart first p) eng)
  if n = 0 then s else Nat.repeat (fun s => retireEntry p eng (modEngine p eng (forceEntry st sec) s)) left first

/-- Every pending entry of the three engines of a partition completes with a status. -/
def flushPart (p st : Nat) (s : State) : State := [0, 1, 2].foldl (fun s e => flushEngine p e st s) s

/-! ## Queue status (R361) -/

/-- ARE_QSTATUS, STE_QSTATUS, CKE_QSTATUS. -/
def regQstatus (g : EngineQ) : Nat :=
  packFields [(g.lists.length, 5), (b2n (runList g).isSome, 1), (g.lastTag.toNat, 16), (b2n g.lastErr, 1)]

end Sys2Proof.Machine
end

