-- ==== Sys2Proof/Machine/TileRegs.lean ====
section
/-!
DEFINITION. Machine/TileRegs: the register set of a tile, its route entries, the registers of a spine, and the stall record
(Tables 1.8 to 1.10, 2.10, 3.11, 4.5, 5.8, 6.12, 6.14, 7.14, 8.6, 9.13).
-/
namespace Sys2Proof.Machine

/-! ## A tile brought up to the present -/

/-- Idle cycles of a delaying tile and landings due by the present device cycle take effect. -/
def catchUp (spans : List (Nat × Nat)) (core x y : Nat) (t : Tile) : Tile :=
  let t := if t.tab.st = .running ∧ t.tab.delaying then idleUntil spans core t else runClock core t
  let t := settle core x y (tileTime core t) t
  settleStep t.tab.tc (settleIssues core x y t.tab.tc t)

/-- The tile at a coordinate, brought up to the present. -/
def tileNow (s : State) (x y : Nat) : Tile :=
  let (n, q) := tilePlace s x y
  catchUp (spansOf s n q) s.cycle x y (getTile s x y)

/-! ## Fields -/

/-- STATE codes (Table 1.9). -/
def tstateNum : TState → Nat
  | .loaded => 0 | .running => 1 | .ended => 2 | .halted => 3

/-- STATE codes of a queue (Table 6.10). -/
def qstateNum : QState → Nat
  | .open_ => 0 | .closed => 1 | .reset => 2

/-- A contribution or a drain flit of the dense array is in flight. -/
def arrInflight (t : Tile) : Bool := t.fly.any fun f => match f.work with
  | .issue .arr _ => true
  | .drain sp _ => !sp
  | _ => false

/-- A contribution, a chunk or a drain flit of the sparse engine is in flight. -/
def spInflight (t : Tile) : Bool := t.fly.any fun f => match f.work with
  | .issue k _ => decide (k ≠ .arr)
  | .drain sp _ => sp
  | _ => false

/-- An entry is in V1-V6. -/
def vecInflight (t : Tile) : Bool := t.fly.any fun f => match f.work with
  | .vec _ _ _ => true
  | _ => false

/-- TAB_STATUS (Table 1.9). -/
def regTabStatus (t : Tile) : Nat :=
  packFields [(tstateNum t.tab.st, 2), (t.tab.pc.toNat, 10), (t.tab.lastCause.toNat, 3), (0, 1), (t.tab.epoch.toNat, 4),
    (b2n t.tab.delaying, 1)]

/-- TAB_ARR_STATUS (Table 2.11). -/
def regArrStatus (t : Tile) : Nat :=
  let a := t.arr
  packFields [(a.mode.toNat, 2), (b2n a.orient, 1), (b2n a.scPoison, 1), (a.ap, 6), (a.dp, 6), (a.lrow, 4), (a.lpart, 2),
    (0, 2), (a.active.fmt.toNat, 4), (b2n a.active.valid, 1), (a.shadow.fmt.toNat, 4), (b2n a.shadow.valid, 1),
    (b2n a.active.poison, 1), (b2n a.shadow.poison, 1), (b2n (arrInflight t), 1)]

/-- TAB_VEC_STATUS (Table 4.6). -/
def regVecStatus (t : Tile) : Nat :=
  let v := t.vshow
  packFields [(t.arr.vaccp, 2), (v.pkg % 8, 3), (b2n (decide (v.pkg ≥ 8)), 1), (v.pkfmt, 4), (v.skp, 7), (v.mkp, 5),
    (v.pend.length, 4), (v.segcnt.toNat, 16), (b2n (v.packPoison || v.scalePoison || v.maskPoison || v.segPoison), 1),
    (b2n (vecInflight t), 1)]

/-- TAB_SP_STATUS (Table 5.9). -/
def regSpStatus (t : Tile) : Nat :=
  let u := t.sp
  let step := match u.step with
    | none => 0
    | some p => if p.fallback then 2 else 1
  let segn := match u.step with
    | none => 0
    | some p => p.segn
  packFields [(step, 2), (b2n u.active.valid, 1), (b2n u.shadow.valid, 1), (u.active.fmt.toNat, 4), (u.shadow.fmt.toNat, 4),
    (u.gfmt.toNat, 4), (u.gk, 9), (u.ap, 6), (u.dp, 6), (u.lcol, 4), (segn, 16), (b2n u.active.poison, 1),
    (b2n u.shadow.poison, 1), (b2n u.gPoison, 1), (b2n (spInflight t), 1)]

/-- TAB_AG0, TAB_AG1 (Table 6.1). -/
def regAg (a : AddrGen) : Nat :=
  packFields [(a.cur.toNat, 11), (a.base.toNat, 11), (a.lo.toNat, 11), (a.hi.toNat, 11), (a.stride.toNat, 12)]

/-- TAB_ACNT (Table 6.6). -/
def regAcnt (a : ArrCtr) : Nat := packFields [(a.count.toNat, 24), (a.quantum.toNat, 24), (a.semid.toNat, 6)]

/-- TAB_SEMk (Table 6.7). -/
def regSem (t : Tile) (k : Nat) : Nat :=
  let a := mget {} t.mu.sems (2 * k)
  let b := mget {} t.mu.sems (2 * k + 1)
  packFields [(a.val.toNat, 16), (a.cap.toNat, 16), (b.val.toNat, 16), (b.cap.toNat, 16)]

/-- TAB_Qk_STATUS (Table 6.10). -/
def regQueue (q : Queue) : Nat :=
  packFields [(qstateNum q.st, 2), (q.flits.length, 6), (qOcc q, 6), (q.msglen.toNat, 4), (q.writers.toNat, 4),
    (q.hwm.toNat, 6), (q.epoch.toNat, 4), (b2n q.openBy.isSome, 1)]

/-- TAB_MU_CMD (Table 6.14). -/
def regMuCmd (t : Tile) : Nat :=
  match t.mu.bulk with
  | none => 0
  | some b => packFields [(bOp b.cmd, 2), (bCount b.cmd - b.done, 12)]

/-- TAB_WDOG (Table 6.11). -/
def regWdog (t : Tile) : Nat :=
  packFields [(min t.tab.wdCount 0xFFFFFFFF, 32), (t.tab.wdLimit.toNat, 5), (b2n t.tab.wdTripped, 1),
    (b2n t.tab.wdProgress, 1), (b2n t.tab.wdHold, 1)]

/-- No flit, word, token or refusal is held in any buffer of the fret, a token at a branch or on its way among them, and no
retry buffer awaits an acknowledgement (Table 7.15). -/
def fretEmpty (core : Nat) (t : Tile) : Bool :=
  let f := t.fret
  f.bufs.all (fun (_, q) => q.isEmpty) && f.pkts.all (fun (_, q) => q.isEmpty) && f.term.isEmpty && f.inbox.isEmpty
  && f.asm.isEmpty && f.refusals.isEmpty && f.ackAt.all (fun (_, c) => decide (c ≤ core))
  && f.outst.all fun o => !(decide (o.got > 0 ∧ o.pending > 0) || decide (o.due > core))

/-- FRT_STATUS (Table 7.15). -/
def regFretStatus (s : State) (x y : Nat) (t : Tile) : Nat :=
  let nb := fun d => neighbour s x y d
  let fen := fun d => match nb d with
    | some (x2, _) => fencedTo s x x2
    | none => false
  let bri := fun d => match nb d with
    | some (x2, y2) => decide ((physPlace s x y).1 ≠ (physPlace s x2 y2).1)
    | none => false
  let bits := fun (k : Nat → Bool) => packFields ((List.range 4).map fun d => (b2n (k d), 1))
  packFields [(bits fun d => (nb d).isSome && !bit t.fret.failed.toNat d, 4), (bits fen, 4), (bits bri, 4),
    (t.fret.failed.toNat, 4), (b2n (fretEmpty s.cycle t), 1), (t.fret.epoch.toNat, 4), (mget 0 t.fret.win 8, 8)]

/-- The register at a byte offset of the register set of a tile (R35). -/
def tileReg (s : State) (x y : Nat) (t : Tile) (off : Nat) : Nat :=
  let slotOf := fun (lo : Nat) => (off - lo) / 8
  if off = 0 then regTabStatus t
  else if off = 0x08 then t.tab.cycle.toNat
  else if off = 0x10 then t.tab.endCycle.toNat
  else if 0x78 ≤ off ∧ off ≤ 0x90 then (mget 0 t.tab.lc (slotOf 0x78)).toNat
  else if off = 0x98 then t.tab.skipq.toNat
  else if off = 0xA0 then packFields [(t.tab.srx.toNat, 32), (b2n t.tab.srxValid, 1)]
  else if off = 0xA8 then regArrStatus t
  else if off = 0xD8 then t.tab.srn.toNat
  else if off = 0xE0 then t.tab.seed.toNat
  else if off = 0xE8 then regVecStatus t
  else if off = 0x128 then t.vshow.pos.toNat
  else if off = 0x130 then regSpStatus t
  else if off = 0x160 then t.sp.maxcnt.toNat
  else if off = 0x1B0 then t.mu.cb.length
  else if off = 0x1B8 then regAg t.mu.ag0
  else if off = 0x1C0 then regAg t.mu.ag1
  else if 0x1C8 ≤ off ∧ off ≤ 0x1E0 then setFld (fld (mget 0 t.mu.win (slotOf 0x1C8)).toNat 0 34) 7 1 0
  else if 0x1E8 ≤ off ∧ off ≤ 0x200 then regAcnt (mget {} t.mu.acnt (slotOf 0x1E8))
  else if 0x208 ≤ off ∧ off ≤ 0x2C0 then regSem t (slotOf 0x208)
  else if 0x2C8 ≤ off ∧ off ≤ 0x300 then regQueue (mget {} t.mu.queues (slotOf 0x2C8))
  else if off = 0x360 then regMuCmd t
  else if off = 0x368 then regWdog t
  else if off = 0x370 then regFretStatus s x y t
  else if off = 0x438 then
    let s := (List.range 32).foldl (fun s i => settleInput x y i s.cycle s) (setTile s x y t)
    ((List.range 4).foldl (fun t p => markPkt p s.cycle t) (getTile s x y)).fret.hwm.toNat
  else if off = 0x440 then packFields ((List.range 8).map fun c => (mget 0 t.fret.win c, 8))
  else if off = 0x460 then t.tab.plan.toNat
  else if 0x3A0 ≤ off ∧ off ≤ 0x3C0 then
    let o := slotOf 0x3A0
    ctrReg (mget 0 (bump s.cycle (.vStall o) (stallsBefore t false o s.cycle) t).ctr off)
  else if 0x3F0 ≤ off ∧ off ≤ 0x410 then
    let o := slotOf 0x3F0
    ctrReg (mget 0 (bump s.cycle (.sStall o) (stallsBefore t true o s.cycle) t).ctr off)
  else ctrReg (mget 0 t.ctr off)

/-- Bytes of the register set, offsets 0x0000-0x0467, as one cycle's image. -/
def tileRegBytes (s : State) (x y : Nat) : List Byte :=
  let t := tileNow s x y
  (List.range 141).flatMap fun k => bytesLE (tileReg s x y t (8 * k)) 8

/-- The input whose route entry stands at an offset in 0x0800-0x0907 (Table 7.4). -/
def routeAt (off : Nat) : Nat :=
  let k := (off - 0x800) / 8
  if k < 20 then 8 * (k / 5) + k % 5
  else if k < 28 then 32 + (k - 20)
  else if k < 32 then 8 * (k - 28) + 6
  else 40

/-- Bytes of the route entries, offsets 0x0800-0x0907. -/
def routeBytes (t : Tile) : List Byte :=
  (List.range 33).flatMap fun k => bytesLE (mget 0 t.fret.route (routeAt (0x800 + 8 * k))).toNat 8

/-! ## Spine registers (Tables 8.6, 8.7) -/

/-- Open merge entries of a spine: those that a later read may still join (R238). -/
def mergeOcc (c : Nat) (sp : Spine) : Nat :=
  (sp.reads.map fun (_, l) => (l.filter fun r => r.entry && r.joinable && decide (c ≤ r.opened + 63)).length).sum

/-- Stack streams not finished: packets still to send, and not stopped. -/
def openStreams (sp : Spine) : Nat := (sp.streams.filter fun (_, t) => !t.stopped && decide (t.sent < t.count)).length

/-- SPN_STATUS. -/
def regSpine (c : Nat) (sp : Spine) : Nat :=
  packFields [(c % 7040, 13), ((c % 7040) / 110, 6), (b2n sp.up0, 1), (b2n sp.up1, 1), (mergeOcc c sp, 11),
    (openStreams sp, 6)]

/-- Bytes of offsets 0x0000-0x005F of a spine. -/
def spineBytes (s : State) (n : Nat) : List Byte :=
  let sp := getSpine s n
  (List.range 12).flatMap fun k => bytesLE (if k = 0 then regSpine s.cycle sp else ctrReg (mget 0 sp.ctr (8 * k))) 8

/-! ## Stall record (R182, Table 6.12) -/

/-- The record of a tile. -/
def stallRecord (x y : Nat) (t : Tile) : BitVec 256 :=
  let e := curEntry t
  let waits := decide (eSemop e = 1 ∨ eSemop e = 4)
  let names := fun k => decide (eSrca e = 8 + k ∨ eSrcb e = 8 + k)
  let qs := fun k => mget {} t.mu.queues k
  let per := fun (f : Nat → Nat) (w : Nat) => (packFields ((List.range 8).map fun k => (f k, w)), 8 * w)
  let wrd := decide (eRdtag e ≠ 0) && decide (eRdop e ≠ 0) && !slotFull t (readSlot t e)
  let wwr := decide (eWrtag e = 2) && !slotEmpty t (writeSlot t e)
  BitVec.ofNat 256 (packFields
    [(x, 10), (y, 9), (tstateNum t.tab.st, 2), (t.tab.pc.toNat, 10), (t.tab.lastCause.toNat, 3),
     (if waits then eSemid e else 63, 6), (if waits then (mget {} t.mu.sems (eSemid e)).val.toNat else 0, 16),
     per (fun k => b2n (names k && decide (queueCount t k = 0))) 1, per (fun c => b2n (decide (credits t c = 0))) 1,
     (min t.tab.wdCount 0xFFFFFFFF, 32), per (fun k => qOcc (qs k)) 6, per (fun k => qstateNum (qs k).st) 2,
     (if wrd then readSlot t e else if wwr then writeSlot t e else 0, 11), (b2n wrd, 1), (b2n wwr, 1),
     (t.tab.epoch.toNat, 4)])

end Sys2Proof.Machine
end

