-- ==== Sys2Proof/Machine/SectionOps.lean ====
section
/-!
DEFINITION. Machine/SectionOps: the parts of a section switch: drain, spills, checkpoints, forced path, restore, section
records (R248-R281), and the band map key (R275, R303, R304).
-/
namespace Sys2Proof.Machine

/-! ## Defect map and band key (R275, R303, R304) -/

/-- A record of the defect map (Table 11.8). -/
def defectWord (d : DefectRec) : Nat :=
  packFields [(d.kind, 4), (d.die, 6), (d.c, 7), (d.p, 7), (d.edge, 2), (d.lane, 7), (d.stack, 1), (d.quad, 2)]

/-- Place of a record in the order of R304. -/
def defectKey (d : DefectRec) : Nat :=
  joinElems 8 [d.quad, d.stack, d.lane, d.edge, d.p, d.c, d.kind, d.die]

/-- Insert a record in order. -/
def insertDefect (d : DefectRec) : List DefectRec → List DefectRec
  | [] => [d]
  | a :: as => if defectKey d ≤ defectKey a then d :: a :: as else a :: insertDefect d as

/-- Records in the order of R304. -/
def sortDefects : List DefectRec → List DefectRec
  | [] => []
  | a :: as => insertDefect a (sortDefects as)

/-- The band map key of a partition: the first 8 bytes of the digest of its records (R275). -/
def bandKey (s : State) (p : Nat) : Nat :=
  let q := getPart s p
  let ds := sortDefects (s.defects.filter fun d => decide (q.lo ≤ d.die / 6 ∧ d.die / 6 ≤ q.hi))
  ofBytesLE ((sha256 (ds.flatMap fun d => bytesLE (defectWord d) 8)).take 8)

/-- The field records of the map: those that the fuses do not hold (R303). -/
def fieldRecs (s : State) : List DefectRec :=
  s.defects.filter fun d => !(s.boot.fuses.defect.take s.boot.fuses.ndefect.toNat).contains d

/-- Both copies of the field defect map are written to flash, with DMREV and the CRC-32C of DMREV and the records (R320). -/
def storeMap (s : State) : State :=
  let recs := fieldRecs s
  let c : MapCopy := { dmrev := s.sage.dmrev, recs := recs
                       crc := BitVec.ofNat 32 (crc32c (bytesLE s.sage.dmrev.toNat 4 ++
                         recs.flatMap fun d => bytesLE (defectWord d) 8)) }
  { s with sage := { s.sage with mapA := c, mapB := c } }

/-- Some records of the map change; DMREV counts it, and flash takes the map (R304, R320). -/
def setDefects (ds : List DefectRec) (s : State) : State :=
  if ds = s.defects then s
  else storeMap { s with defects := ds, sage := { s.sage with dmrev := s.sage.dmrev + 1 } }

/-- A record joins the map. -/
def addDefect (d : DefectRec) (s : State) : State :=
  if s.defects.contains d then s else setDefects (s.defects ++ [d]) s

/-- Bytes of the history region (Table 14.3). -/
abbrev historyBytes : Nat := 444 * 2 ^ 20

/-- Bytes an item of history takes: a record 32, a count of a summary 8; counters are rewritten in place (DESIGN CHOICE,
notes/assumptions/138). -/
def itemBytes : HistItem → Nat
  | .counters _ => 0
  | .summary l => 32 + 8 * l.length
  | _ => 32

/-- Summaries are overwritten, oldest first, until so many bytes are free. -/
def dropSummaries : Nat → List HistItem → List HistItem
  | _, [] => []
  | n, h :: l => match h with
    | .summary _ => if n = 0 then h :: l else dropSummaries (n - itemBytes h) l
    | _ => h :: dropSummaries n l

/-- Nonvolatile history takes an item; when it is full, summaries are overwritten oldest first (R320). -/
def addHistory (h : HistItem) (s : State) : State :=
  let l := s.sage.history ++ [h]
  { s with sage := { s.sage with history := dropSummaries ((l.map itemBytes).sum - historyBytes) l } }

/-- A lifetime counter of Table 11.13 advances; 64 bits, holds at all-ones (R318). -/
def lifeBump (k n : Nat) (s : State) : State :=
  { s with sage := { s.sage with life := mmod 0 s.sage.life k fun v => min (v + n) (2 ^ 64 - 1) } }

/-- Numbers of the lifetime counters (Table 11.13). -/
abbrev lifePowered : Nat := 0
abbrev lifeInsertions : Nat := 1
abbrev lifeResets : Nat := 2
abbrev lifeEnergyIn : Nat := 3
abbrev lifeHeat : Nat := 4
abbrev lifeClass : Nat := 8
abbrev lifeRestores : Nat := 12
abbrev lifeRepairs : Nat := 13
abbrev lifeRetirements : Nat := 14
abbrev lifeLoads : Nat := 15
abbrev lifeThrottle : Nat := 16
abbrev lifeInlet : Nat := 32
abbrev lifeOutlet : Nat := 64
abbrev lifeJunction : Nat := 96
abbrev lifeInput : Nat := 128
abbrev lifeStackErrors : Nat := 160
abbrev lifeIntervals : Nat := 1024

/-! ## The tiles of a band -/

/-- Tiles of a band that carry work: not in a quadrant that a QUADRANT_OFF record names (R386). -/
def workTiles (s : State) (p : Nat) : List (Nat × Nat) := (bandTiles s p).filter fun (x, y) => !tileOff s x y

/-- Tiles of a band in ascending x, then y. -/
def tilesByX (s : State) (p : Nat) : List (Nat × Nat) :=
  let q := getPart s p
  (List.range (q.hi + 1 - q.lo)).flatMap fun c =>
    (List.range (colWidth s.grade s.defects (q.lo + c))).flatMap fun k =>
      (List.range 384).map fun y => (gradeWidth s.grade * (q.lo + c) + k, y)

/-- Every tile of a band is brought up to the present (R30, R260). -/
def catchUpBand (p : Nat) (s : State) : State :=
  (bandTiles s p).foldl (fun s (x, y) => setTile s x y (tileNow s x y)) s

/-! ## Residual tokens (R260, R438, Tables 9.8, 9.15) -/

/-- A residual structure: the tile or the spine's die, SUB, and its count. -/
structure Residual where
  tile : Option (Nat × Nat) := none
  die : Option Nat := none
  sub : Nat
  count : Nat
  deriving DecidableEq, Repr

/-- Residual structures of a tile. -/
def tileResiduals (core : Nat) (t : Tile) : List (Nat × Nat) :=
  let mu := t.mu.ingress.length + t.mu.accq.length + t.mu.reads.length + b2n t.mu.bulk.isSome
  ((List.range 8).filterMap fun k =>
    let n := qOcc (mget {} t.mu.queues k)
    if n = 0 then none else some (k, n))
  ++ (if fretEmpty core t then [] else [(0x10, 0)]) ++ (if t.tab.srxValid then [(0x11, 1)] else [])
  ++ (if t.mu.cb.isEmpty then [] else [(0x12, t.mu.cb.length)]) ++ (if mu = 0 then [] else [(0x13, mu)])

/-- Tile-bound packets outstanding of an issuer, by where it issues, a spine's tap or the ring and the edge: issued and not in
the array, and reads in the array whose response has not come. -/
def issuerCount (s : State) (p : Nat) (die : Option Nat) (issuer : Nat) : Nat :=
  let out := s.issued.filter fun (k, tap) =>
    decide (tap = die ∧ hIssuer k.header = issuer ∧ partOfTile s (hDx k.header) = some p)
  let reads := s.asked.filter fun r => decide (r.issuer = issuer ∧ r.part = p ∧ r.tap = die)
    && !out.any fun (k, _) => hKind k.header = 2 && decide (hTag k.header = r.tag ∧ hSeq k.header = r.seq)
  out.length + reads.length

/-- Residual structures of a band, tiles first; tiles of a quadrant with a QUADRANT_OFF record contribute nothing (R220). -/
def residuals (s : State) (p : Nat) : List Residual :=
  let ts := (workTiles s p).flatMap fun (x, y) =>
    (tileResiduals s.cycle (getTile s x y)).map fun (b, n) => { tile := some (x, y), sub := b, count := n : Residual }
  let dies := none :: (bandDies (getPart s p)).map some
  ts ++ dies.flatMap fun d => (List.range 7).filterMap fun i =>
    let n := issuerCount s p d i
    if n = 0 then none else some { die := d, sub := 0x20 + i, count := n }

/-- RESIDUAL_TOKEN is raised for the first 64 residual structures (R261, R438). -/
def raiseResiduals (p : Nat) (rs : List Residual) (s : State) : State :=
  (rs.take 64).foldl (fun s r =>
    sageEvent s .residualToken r.sub (packFields [(rs.length, 32), (r.count, 32)]) (some p) r.die r.tile) s

/-! ## The pending command of a partition -/

/-- The Array engine's current entry, when it has started, ends with a status. -/
def endStarted (p st d0 d1 : Nat) (s : State) : State :=
  if (getEng (getPart s p) 0).cur.started then endEntry p 0 st d0 d1 s else s

/-- What waits behind an automatic restore, and the loads still to replay, are given up; so is a repair whose restore it was.
Ballast stops (R380). -/
def dropPending (q : Partition) : Partition :=
  { q with sw := none, replaying := [], behind := none, autoPending := false, bunits := 0
           repair := q.repair.filter fun r => decide (r.step ≠ .committed) }

/-- The switch in progress ends, and its command with the code of an event; an automatic restore that it makes ends with it. -/
def failSwitch (p : Nat) (c : EvCode) (st : PState) (s : State) : State :=
  modPart (endStarted p (evNum c) 0 0 s) p fun q =>
    { dropPending q with st := st }

/-! ## Section records (R280, R319) -/

/-- Offsets of the tile counters. -/
def ctrOffsets : List Nat :=
  [0x18, 0x20, 0x28, 0x30, 0x38, 0x40, 0x48, 0x50, 0x58, 0x60, 0x68, 0x70, 0xB0, 0xB8, 0xC0, 0xC8, 0xD0, 0xF0, 0xF8, 0x100,
   0x108, 0x110, 0x118, 0x120, 0x138, 0x140, 0x148, 0x150, 0x158, 0x168, 0x170, 0x178, 0x180, 0x188, 0x190, 0x198, 0x1A0,
   0x1A8] ++ (List.range 11).map (0x308 + 8 * ·) ++ (List.range 24).map (0x378 + 8 * ·) ++ [0x448, 0x450, 0x458]

/-- Sum of a counter over tiles. -/
def bandSum (s : State) (ts : List (Nat × Nat)) (off : Nat) : Nat :=
  (ts.map fun (x, y) => mget 0 (getTile s x y).ctr off).sum

/-- A counter of some tile is saturated. -/
def bandSat (s : State) (ts : List (Nat × Nat)) (off : Nat) : Bool :=
  ts.any fun (x, y) => decide (mget 0 (getTile s x y).ctr off = ctrMax)

/-- Counters of the spines of a band, by 256 * die + register offset. -/
def spineCtrs (s : State) (p : Nat) : SMap Nat :=
  msetAll 0 [] ((bandDies (getPart s p)).flatMap fun n =>
    ((List.range 12).drop 1).map fun k => (256 * n + 8 * k, mget 0 (getSpine s n).ctr (8 * k)))

/-- A comparison of TAB_PLAN fails (R279); a tile whose logic does not answer contributes nothing (R220). -/
def planBad (t : Tile) : Bool := decide (t.missed = 0) && bit t.tab.plan.toNat 0 && decide (fld t.tab.plan.toNat 1 3 ≠ 7)

/-- Slips departed from the prediction (R279). -/
def slipBad (t : Tile) : Bool := bit t.tab.plan.toNat 0 && !bit t.tab.plan.toNat 4

/-- Register sets of a band's tiles are copied into the diagnostic area (R280, Table 11.14). -/
def copyStats (p : Nat) (s : State) : State :=
  (bandTiles s p).foldl (fun s (x, y) =>
    let da := devAddr (tileDie s x y) (reserveBase + diagOfs + 0x800 * recIndex s x y)
    (List.range 32).foldl (fun s k => putTags (da + 64 * k) (((tileRegBytes s x y).drop (64 * k)).take 64) s) s) s

/-- The END device cycle of a section: that of the last END, or the present when a forced path ends it before every tile has
ended (DEDUCED, notes/assumptions/136). -/
def endOf (s : State) (ts : List (Nat × Nat)) : Nat :=
  if ts.all fun (x, y) => decide ((getTile s x y).tab.st = .ended) then
    (ts.map fun (x, y) => (getTile s x y).tab.lastCore).foldl max 0
  else s.cycle

/-- The numbers of a section record (R280). -/
def recordNumbers (r : SectionRec) : List Nat :=
  [r.section_, r.epoch, r.release, r.endCycle, r.fires, r.idles] ++ r.slips
  ++ [r.planBad, r.slipBad, b2n r.stale, b2n r.restored, r.tokens]

/-- The 64 bytes of a section record. -/
def recordBytes (r : SectionRec) : List Byte := bytesLE (Config.sectionRecord (recordNumbers r)).toNat 64

/-- The section record of the loaded section (R280). -/
def sectionRec (s : State) (p tokens : Nat) : SectionRec :=
  let q := getPart s p
  let ts := workTiles s p
  let base := spineCtrs s p
  { section_ := q.section_.toNat, epoch := q.epoch.toNat, release := q.released, endCycle := endOf s ts
    fires := bandSum s ts 0x18, idles := bandSum s ts 0x20, slips := (List.range 7).map fun k => bandSum s ts (0x30 + 8 * k)
    planBad := (ts.filter fun (x, y) => planBad (getTile s x y)).length
    slipBad := (ts.filter fun (x, y) => slipBad (getTile s x y)).length
    stale := q.stale, restored := q.restoredRun, tokens := tokens
    spines := msetAll 0 [] (base.map fun (k, v) => (k, v - mget 0 q.spineBase k)) }

/-- The loaded section has ended: its record, in the diagnostic area of the band's first die too, its STATS copy, its share of
the partition totals, to which the frets of a quadrant that is off contribute (R280, R319). -/
def closeSection (p tokens : Nat) (stats : Bool) (s : State) : State :=
  let q := getPart s p
  if q.opts.isNone then s
  else
    let ts := workTiles s p
    let r := sectionRec s p tokens
    let all := bandTiles s p
    let from_ := fun (o : Nat) => if 0x370 ≤ o then all else ts
    let tot := ctrOffsets.foldl (fun m o => mmod 0 m o fun v => min (v + bandSum s (from_ o) o) (2 ^ 64 - 1)) q.totals
    let inx := ctrOffsets.foldl (fun m o => if bandSat s (from_ o) o then mset false m o true else m) q.inexact
    let s := if stats then copyStats p s else s
    let s := putDiag (6 * q.lo) (0x1040000 + 64 * q.recNo) (recordBytes r) s
    modPart s p fun q => { q with records := (r :: q.records).take 256, recNo := (q.recNo + 1) % 256
                                  totals := tot, inexact := inx, opts := none }

/-! ## Jobs (R391) -/

/-- Registers of a job: TEL_JOB_ENERGY to TEL_FLOOR_SHORT, by offset in the block. -/
def jobReg (off : Nat) : Bool := decide (0x18 ≤ off ∧ off < 0x88)

/-- A job begins: its registers clear (R391). -/
def startJob (q : Partition) : Partition :=
  { q with job := true, tel := q.tel.filter fun (o, _) => !jobReg o }

/-- A job ends: its summary joins the last 64 (R391). -/
def endJob (q : Partition) : Partition :=
  if q.job then
    let j : JobSum := { ticks := mget 0 q.tel 0x20, energy := mget 0 q.tel 0x18 / 2000, ballast := mget 0 q.tel 0x70 / 2000
                        thr := (List.range 6).map fun k => mget 0 q.tel (0x28 + 8 * k) }
    { q with job := false, jobs := (j :: q.jobs).take 64 }
  else q

/-! ## Resets of a band (R20, R249, R264) -/

/-- A fret reset by Sage or the Array engine: buffers empty, the new epoch, its route entries and failed ports kept. -/
def clearFret (e : BitVec 4) (forced : Option Nat) (f : Fret) : Fret :=
  { freshFret e forced with route := f.route, failed := f.failed, failAt := f.failAt, hwm := f.hwm }

/-- A tile as a normal switch leaves it before its record is written: fret reset, new epoch (R249). -/
def switchTile (e : BitVec 4) (t : Tile) : Tile :=
  { t with tab := { t.tab with epoch := e }, fret := clearFret e t.fret.forcedAt t.fret
           mu := { t.mu with queues := (List.range 8).foldl (fun m k => mmod {} m k fun q => { q with epoch := e }) t.mu.queues } }

/-- A tile as the forced path leaves it: tokens discarded (R264). -/
def forceTile (e : BitVec 4) (core : Nat) (t : Tile) : Tile :=
  { t with
    tab := { t.tab with epoch := e }, fret := clearFret e (some core) t.fret
    mu := { t.mu with
      ingress := [], accq := [], reads := [], bulk := none, bulkWait := [], cb := [], marks := []
      queues := (List.range 8).foldl (fun m k => mmod {} m k fun q =>
        { q with flits := [], held := [], reserved := 0, openBy := none, epoch := e }) t.mu.queues } }

/-- A tile that Sage resets outside a load or a restore (R20): HALTED, PC 0, queues in RESET, counters kept as they stand; work
in flight is lost. -/
def resetTile (t : Tile) : Tile :=
  { t with
    tab := { t.tab with st := .halted, pc := 0, delaying := false, delayLeft := 0, srxValid := false, srxWord := none }
    fly := [], loaded := false
    mu := { t.mu with ingress := [], accq := [], reads := [], bulk := none, bulkWait := [], cb := [], marks := [], queues := [] }
    fret := clearFret t.fret.epoch t.fret.forcedAt t.fret }

/-- A tile of a partition that becomes IDLE at a FINISH: R20 has the tiles of an IDLE partition HALTED (DEDUCED,
notes/assumptions/137). -/
def idleTile (t : Tile) : Tile := if t.tab.st = .ended then { t with tab := { t.tab with st := .halted } } else t

/-! ## Loads -/

/-- The replay log takes a load (R274). -/
def logLoad (o : LoadOpts) (q : Partition) : Partition :=
  if q.replay.length ≥ 63 then { q with replayLost := true } else { q with replay := q.replay ++ [o] }

/-- The image of a load. -/
def imgOf (p : Nat) (o : LoadOpts) : Img := { part := p, ofs := o.imgofs }

/-- Cycles of 30 days (R301). -/
abbrev month : Nat := 30 * 86400 * 1800000000

/-- Number of a physical tile in Sage's tables. -/
def physNum (n c p : Nat) : Nat := (n * 128 + c) * 66 + p

/-- Physical tiles of a band that raised TILE_SUSPECT three times within 30 days (R301). -/
def suspectRecs (s : State) (p : Nat) : List DefectRec :=
  let q := getPart s p
  s.sage.suspectAt.filterMap fun (k, l) =>
    let n := k / 66 / 128
    if q.lo ≤ n / 6 ∧ n / 6 ≤ q.hi ∧ (l.filter fun c => decide (s.cycle ≤ c + month)).length ≥ 3 then
      some { kind := 1, die := n, c := k / 66 % 128, p := k % 66 }
    else none

/-- A field record: a unit that fails again after its return stays marked for life (R317). -/
def fieldDefect (d : DefectRec) (s : State) : State :=
  let g := s.sage
  let bar := if g.hadReturned.contains d ∧ !g.barred.contains d then g.barred ++ [d] else g.barred
  addDefect d { s with sage := { g with returned := g.returned.filter (fun a => a != d), barred := bar } }

/-- Die columns whose retired count takes them out of service (R305, R310). -/
def markDead (s : State) : State :=
  let out := (List.range 8).filter fun i => s.boot.dead.contains i || decide (retiredMax s.defects i ≥ 3)
  { s with boot := { s.boot with dead := out } }

/-- A physical column retires: its record, the retirement in history, COLUMN_RETIRED or DIECOL_OUT (R305, R310, R320). -/
def retireColumn (n c : Nat) (s : State) : State :=
  let d : DefectRec := { kind := 3, die := n, c := c }
  if s.defects.contains d then s
  else
    let s := lifeBump lifeRetirements 1 (fieldDefect d (addHistory (.retirement n c) s))
    let out := decide (retiredMax s.defects (n / 6) ≥ 3)
    markDead (sageEvent s (if out then .diecolOut else .columnRetired) (c % 256) 0 (partOfDie s n) (some n))

/-- A tile is recorded dead outside a repair; Sage retires a column that it leaves with three dead tiles (R305, R309). -/
def deadTile (n c p : Nat) (s : State) : State :=
  let s := fieldDefect { kind := 1, die := n, c := c, p := p } s
  if (deadRows s.defects n c).dedup.length ≥ 3 then retireColumn n c s else s

/-- What a load into an IDLE partition changes in the defect map: returned units of the band join, tiles suspect three
times leave (R301, R317). A STACK_OUT record stays. -/
def refreshMap (p : Nat) (s : State) : State :=
  let q := getPart s p
  let back := s.sage.returned.filter fun d => decide (d.kind ≠ 5 ∧ q.lo ≤ d.die / 6 ∧ d.die / 6 ≤ q.hi)
  let s := setDefects (s.defects.filter fun d => !back.contains d) s
  let s := { s with sage := { s.sage with returned := s.sage.returned.filter fun d => !back.contains d } }
  (suspectRecs s p).foldl (fun s d => deadTile d.die d.c d.p s) s

/-- PLACEMENT_CHANGED (R311): a load into an IDLE partition of the PROGRAM last loaded so, with another retired count. -/
def checkPlacement (p : Nat) (o : LoadOpts) (s : State) : State :=
  let q := getPart s p
  let prog := BitVec.ofNat 32 (dhProgram (dieHeader s (imgOf p o) (6 * q.lo)))
  let now := (List.range (q.hi + 1 - q.lo)).map fun c => retiredMax s.defects (q.lo + c)
  let s := match q.lastPlace with
    | some (pr, old) =>
      if pr = prog ∧ old ≠ now then
        sageEvent s .placementChanged 0 (packFields [(joinElems 4 old, 32), (joinElems 4 now, 32)]) (some p)
      else s
    | none => s
  modPart s p fun q => { q with lastPlace := some (prog, now) }

/-- Frets reset, the epoch advances, and the image begins to be read (R249, R262). -/
def beginImage (p : Nat) (k : SwitchKind) (s : State) : State :=
  let e := (getPart s p).epoch + 1
  let s := overTiles s (bandTiles s p) fun _ _ => switchTile e
  modPart s p fun q => { q with epoch := e, st := .loading, sw := some { kind := k, phase := .image }
                                stallMap := [], mapping := false }

/-- The options of the load a switch makes. -/
def switchOpts : SwitchKind → Option LoadOpts
  | .load o => some o
  | .replay o => some o
  | _ => none

/-- STATS of a switch. -/
def switchStats : SwitchKind → Bool
  | .load o => o.stats
  | .replay o => o.stats
  | .finish b => b
  | .restore _ => false

/-! ## Forced path (R264) -/

/-- The forced path begins: halt wave, tile-bound issue suspended, running stream engine entries on tiles ABORTED. -/
def forcePath (p : Nat) (k : SwitchKind) (s : State) : State :=
  let s := startWave s p
  let s := match openEntry s p 1 with
    | some (_, e, c) => if tileEntry e ∧ c.started then endEntry p 1 0x402 (enMoved e c) c.poisoned s else s
    | none => s
  modPart s p fun q => { q with suspended := true, st := .halted, bunits := 0, sw := some { kind := k, phase := .inflight } }

/-- The last landing of anything in flight in a tile, as a device cycle. -/
def lastLanding (t : Tile) : Nat := (t.fly.map fun f => dueCore t f.vis).foldl max 0

/-! ## Checkpoints (R269-R273) -/

/-- Device addresses of a checkpoint buffer in a die (Table 9.10): data, tags, header. -/
def ckData (n b : Nat) : Nat := devAddr n (reserveBase + b * 0x40000000)
def ckTags (n b : Nat) : Nat := devAddr n (reserveBase + 0x80000000 + b * 0x4000000)
def ckHead (n b : Nat) : Nat := devAddr n (reserveBase + 0x82000000 + b * 0x4000000)

/-- The die checkpoint header. -/
def ckHeader (s : State) (n b : Nat) : Nat := memNat s.stk.mem (ckHead n b) 64

/-- SEQ of the checkpoint a buffer holds, when it is complete (R270). -/
def ckComplete (s : State) (p b : Nat) : Option Nat :=
  let q := getPart s p
  let seq := fld (ckHeader s (6 * q.lo) b) 0 64
  if (bandDies q).all fun n => bit (ckHeader s n b) 288 && decide (fld (ckHeader s n b) 0 64 = seq) then some seq else none

/-- The buffer of the latest complete checkpoint, with its SEQ. -/
def ckLatest (s : State) (p : Nat) : Option (Nat × Nat) :=
  match ckComplete s p 0, ckComplete s p 1 with
  | some a, some b => if a ≥ b then some (0, a) else some (1, b)
  | some a, none => some (0, a)
  | none, some b => some (1, b)
  | none, none => none

/-- Tag bitmap of a tile (Table 9.6). -/
def tagBits (t : Tile) : Nat := joinElems 1 ((List.range 2048).map fun k => b2n (mget {} t.mu.slots k).full)

/-- The buffer a capture goes to: the one that does not hold the latest complete checkpoint (R269). -/
def ckTarget (s : State) (p : Nat) : Nat :=
  match ckLatest s p with
  | some (0, _) => 1
  | _ => 0

/-- One tile is captured: its slots as whole chunks, its tags (R270). -/
def captureTile (b : Nat) (xy : Nat × Nat) (s : State) : State :=
  let (x, y) := xy
  let n := tileDie s x y
  let r := recIndex s x y
  let base := ckData n b + 0x20000 * r
  let t := getTile s x y
  let s := clearRange base (base + 0x20000) (spineBump n 0x28 2052 s)
  let s := t.mu.slots.foldl (fun s (k, o) => writeChunk (base + 64 * k) o.data o.poison s) s
  let tags := bytesLE (tagBits t) 256
  (List.range 4).foldl (fun s k => putTags (ckTags n b + 256 * r + 64 * k) ((tags.drop (64 * k)).take 64) s) s

/-- The header of a die's checkpoint with VALID = 0 (R270). -/
def clearValid (n b : Nat) (s : State) : State :=
  putChunk (ckHead n b) (BitVec.ofNat 512 (setFld (ckHeader s n b) 288 1 0)) false s

/-- The quadrant of a domain number has a QUADRANT_OFF record or has tripped. -/
def quadOut (s : State) (d : Nat) : Bool :=
  quadOff s (d / 8) (d % 8) || decide (mget 0 s.power.quads.tripped (4 * (d / 8) + d % 8) ≠ 0)

/-- The clock root of a quadrant has reached /1: a load may write its tiles, a test may run in it (R370). -/
def quadRuns (s : State) (n q : Nat) : Bool := decide ((mget {} s.power.dom (8 * n + q)).st = .run)

/-- Every quadrant of a band that is in service runs (R370, R386). -/
def bandRuns (s : State) (p : Nat) : Bool :=
  (bandDies (getPart s p)).all fun n => (List.range 4).all fun q => quadOut s (8 * n + q) || quadRuns s n q

/-- A capture begins: VALID = 0 in the target buffer of every die (R270). -/
def beginCapture (p : Nat) (s : State) : State :=
  let b := ckTarget s p
  let s := (bandDies (getPart s p)).foldl (fun s n => clearValid n b s) s
  modPart s p fun q => { q with st := .checkpointing, sw := q.sw.map fun w => { w with phase := .capture } }

/-- A self-test waits for the next boundary (R314). -/
def testWaits (q : Partition) : Bool := q.tickets.any fun t => decide (t.state = 1)

/-- A load into an IDLE partition starts at once: no drain and no spill; a checkpoint for CKPT or for a test that waits, then
the image (R259, R269, R314). -/
def idleLoad (p : Nat) (o : LoadOpts) (s : State) : State :=
  let s := modPart (checkPlacement p o (refreshMap p s)) p fun q =>
    { startJob (logLoad o q) with suspended := true, endSeen := none, gap := false, bunits := 0 }
  if o.ckpt ∨ testWaits (getPart s p) then
    beginCapture p (modPart s p fun q => { q with sw := some { kind := .load o, phase := .capture } })
  else beginImage p (.load o) s

/-- The bytes of the checkpoint's data area reach the channels armed on the checkpoint writer, in their order (R357). -/
def foldCapture (p : Nat) (s : State) : State :=
  if (getPart s p).chan.any fun (_, c) => c.armed && decide (c.src = 4) then
    (bandTiles s p).foldl (fun s (x, y) => (List.range 2048).foldl (fun s k =>
      foldChannels p (fun _ c => decide (c.src = 4)) (bytesLE (mget {} (getTile s x y).mu.slots k).data.toNat 64) s) s) s
  else s

/-- The header of a die's checkpoint (Table 9.10). -/
def ckHeaderOf (s : State) (p n seq : Nat) (o : LoadOpts) : Nat :=
  let q := getPart s p
  let h := dieHeader s (imgOf p o) n
  packFields [(seq, 64), (dhSection h, 16), (dhProgram h, 32), (q.hi + 1 - q.lo, 4), (n - 6 * q.lo, 6),
    (colWidth s.grade s.defects (n / 6), 8), (0, 62), (o.seed.toNat, 64), (o.imgofs, 32), (1, 1)]

/-- A checkpoint of the band is captured into the buffer that does not hold the latest one (R269, R270): the tiles that the
spines have not read yet, then the headers with VALID = 1. -/
def capture (p : Nat) (o : LoadOpts) (s : State) : State :=
  let b := ckTarget s p
  let seq := (((ckLatest s p).map (·.2)).getD 0) + 1
  let dies := bandDies (getPart s p)
  let left := dies.flatMap fun n => (dieTiles s n).drop ((getSpine s n).asks / 256)
  let s := foldCapture p (left.foldl (fun s t => captureTile b t s) s)
  let s := dies.foldl (fun s n => putChunk (ckHead n b) (BitVec.ofNat 512 (ckHeaderOf s p n seq o)) false s) s
  modPart s p fun q => { q with ckvalid := true, ckseq := BitVec.ofNat 64 seq, tileio := false, replayLost := false
                                restores := 0, ckptAt := s.cycle }

/-- The image a checkpoint resumes with, as the options of its load. -/
def resumeOpts (s : State) (p b : Nat) : LoadOpts :=
  let h := ckHeader s (6 * (getPart s p).lo) b
  { imgofs := fld h 256 32, seed := BitVec.ofNat 64 (fld h 192 64), ckpt := false, force := false, stats := false }

/-- The checks of a restore in every die (R273). -/
def ckMatches (s : State) (p b : Nat) : Bool :=
  let q := getPart s p
  let o := resumeOpts s p b
  (bandDies q).all fun n =>
    let h := ckHeader s n b
    let d := dieHeader s (imgOf p o) n
    decide (fld h 112 4 = q.hi + 1 - q.lo) && decide (fld h 116 6 = n - 6 * q.lo)
    && decide (fld h 122 8 = colWidth s.grade s.defects (n / 6)) && decide (fld h 80 32 = dhProgram d)
    && decide (fld h 64 16 = dhSection d)

/-- One tile takes back its slots, tags and poison (R273); a tile of a quadrant that is off is skipped (R386). -/
def restoreTile (b : Nat) (xy : Nat × Nat) (s : State) : State :=
  let (x, y) := xy
  let n := tileDie s x y
  let base := ckData n b + 0x20000 * recIndex s x y
  let tags := memNat s.stk.mem (ckTags n b + 256 * recIndex s x y) 256
  let slot := fun k =>
    let (d, m) := readChunk s (base + 64 * k)
    { data := d, full := bit tags k, poison := m : Slot }
  let marked := ((List.range 2048).filter fun k => mget false s.stk.poison ((base + 64 * k) / 64)).length
  if tileOff s x y then s
  else modTile (noteReads n 513 marked s) x y fun t =>
    { t with mu := { t.mu with slots := msetAll {} [] ((List.range 2048).map fun k => (k, slot k)) } }

/-- A refused restore (R273, R309). -/
def refuseRestore (p : Nat) (s : State) : State :=
  let s := sageEvent s .checkpointMismatch 0 0 (some p)
  modPart (endStarted p (evNum .checkpointMismatch) 0 0 s) p fun q =>
    { q with sw := none, st := .halted, autoPending := false, repair := none, behind := none }

/-- The checkpoint of a restore is chosen, checked and read back, and its image begins to be read (R273). -/
def readCheckpoint (p : Nat) (k : SwitchKind) (s : State) : State :=
  match ckLatest s p with
  | none => refuseRestore p s
  | some (b, _) =>
    if ckMatches s p b then
      let s := (bandTiles s p).foldl (fun s t => restoreTile b t s) s
      modPart s p fun q => { q with st := .restoring, sw := some { kind := k, phase := .image } }
    else refuseRestore p s

/-! ## Automatic restore (R300, R301, R307, R309) -/

/-- What a switch that a fault interrupts leaves to be done after the restore: a switch that still waited, or a FINISH,
runs again; a load that had begun is in the replay log (R309). -/
def leftOver (q : Partition) : Option SwitchKind :=
  match q.sw with
  | some { kind := .load o, phase := .ended } => some (.load o)
  | some { kind := .finish b, phase := _ } => some (.finish b)
  | _ => q.behind

/-- Sage restores a partition on its own: the forced path begins. -/
def autoRestore (p : Nat) (s : State) : State :=
  let s := modPart s p fun q => { q with behind := leftOver q, autoPending := true }
  let s := lifeBump lifeRestores 1 s
  forcePath p (.restore true) s

end Sys2Proof.Machine
end

