-- ==== Sys2Proof/Machine/ArrayTraffic.lean ====
section
/-!
DEFINITION. Machine/ArrayTraffic: the packets that spines issue for the Array engine in spills, captures and loads, and the
responses to them (R209, R231, R232, R255, R267, R270).
-/
namespace Sys2Proof.Machine

/-- The phase of the switch of a partition. -/
def switchAt (s : State) (p : Nat) : Option SwitchPhase := (getPart s p).sw.map (·.phase)

/-- Spill entries of a band: die, source tile, first slot, count, first destination chunk (Table 9.5). -/
def bandSpills (s : State) (p : Nat) : List (Nat × Nat × Nat × Nat × Nat × Nat) :=
  match (getPart s p).opts with
  | none => []
  | some o =>
    let i := imgOf p o
    (bandDies (getPart s p)).flatMap fun n =>
      (List.range (dhNspill (dieHeader s i n))).map fun k =>
        let e := spillWord s i n k
        (n, fld e 0 10, fld e 10 9, fld e 19 11, fld e 30 12, fld e 64 31)

/-- A run of at most eight slots that a spine reads: the tile, the first slot, the number, where its chunks go. -/
structure SlotRun where
  x : Nat
  y : Nat
  first : Nat
  count : Nat
  dest : Nat
  deriving DecidableEq, Repr

/-- The reads of a die's spill entries, in table order (R267). -/
def spillRuns (s : State) (p n : Nat) : List SlotRun :=
  ((bandSpills s p).filter fun e => decide (e.1 = n)).flatMap fun (_, x, y, first, count, chunk) =>
    (List.range ((count + 7) / 8)).map fun g =>
      { x := x, y := y, first := first + 8 * g, count := min 8 (count - 8 * g), dest := devAddr n (64 * (chunk + 8 * g)) }

/-- The k-th read of a die's capture into a buffer: eight slots of a tile (R270). -/
def captureRun (s : State) (n b k : Nat) : Option SlotRun :=
  ((dieTiles s n)[k / 256]?).map fun (x, y) =>
    { x := x, y := y, first := 8 * (k % 256), count := 8, dest := ckData n b + 0x20000 * recIndex s x y + 512 * (k % 256) }

/-- CFGW packets of a tile record: 266 flits of 64 B, eight to a packet (R255). -/
abbrev recPackets : Nat := 34

/-- A word of a tile record as the load writes it: computed route fields in their places (R193, R257). -/
def loadedWord (s : State) (i : Img) (x y off : Nat) : Nat :=
  match routeInputs.find? fun k => decide (routeOfs k = off) with
  | some k => loadedRoute s i x y k
  | none => recWord s i x y off

/-- The records of a die that pass their checks before one fails (R256). -/
def passed (s : State) (i : Img) (n : Nat) : Nat :=
  match dieFail s i n with
  | none => (dieTiles s n).length
  | some (.refused _ ix _ (some _)) => ix
  | some (.refused _ _ _ none) => 0
  | some (.poison a) => if a - i.ofs < 0x3000 then 0 else (a - i.ofs - 0x3000) / recSize

/-- The options of the image a switch loads: of its load, or of the latest checkpoint's resume section (R273). -/
def imageOpts (s : State) (p : Nat) (k : SwitchKind) : LoadOpts :=
  match switchOpts k with
  | some o => o
  | none => match ckLatest s p with
    | some (b, _) => resumeOpts s p b
    | none => { imgofs := 0, seed := 0, ckpt := false, force := false, stats := false }

/-- The k-th CFGW packet of a die's image: destination, address, payload. -/
def imagePacket (s : State) (i : Img) (n k : Nat) : Option (Nat × Nat × Nat × List (Unit512 × Bool)) :=
  if k / recPackets < passed s i n then
    ((dieTiles s n)[k / recPackets]?).map fun (x, y) =>
      let g := k % recPackets
      let pay := (List.range (min 8 (266 - 8 * g))).map fun m =>
        let off := 64 * (8 * g + m)
        (BitVec.ofNat 512 (joinElems 64 ((List.range 8).map fun j => loadedWord s i x y (off + 8 * j))), false)
      (x, y, 0x10000 + 512 * g, pay)
  else none

/-- The spine of a die has issued one packet more for the Array engine. -/
def askedOne (n : Nat) (s : State) : State := modSpine s n fun sp => { sp with asks := sp.asks + 1 }

/-- The spines of a band begin a piece of work of the Array engine. -/
def clearAsks (p : Nat) (s : State) : State :=
  (bandDies (getPart s p)).foldl (fun s n => modSpine s n fun sp => { sp with asks := 0 }) s

/-- A spine issues an MREAD for a run of slots, with ISSUER 6 and the route back to its tap (R232). -/
def readRun6 (p n : Nat) (r : SlotRun) (s : State) : State :=
  issuePacket p (some n) { kind := 2, dx := r.x, dy := r.y, tag := p, npay := r.count, offset := r.first, issuer := 6
                           rsegs := returnRoute s true r.x r.y } [] s r.dest

/-- The spine of a die issues the next packet of the Array engine's work: a spill's read once no host holds the lines it
goes to (R331), a capture's read, or a packet of the image. -/
def arrayPacket (p n : Nat) (s : State) : State :=
  let q := getPart s p
  let k := (getSpine s n).asks
  if !mayIssue s 6 (some n) p then s
  else match q.sw with
  | some { kind := _, phase := .spill } =>
    match (spillRuns s p n)[k]? with
    | none => s
    | some r =>
      match trackedLines s p (daToPa q r.dest) (64 * r.count) with
      | [] => askedOne n (readRun6 p n r s)
      | held => snoopLines q.port held s
  | some { kind := _, phase := .capture } =>
    match captureRun s n (ckTarget s p) k with
    | none => s
    | some r => askedOne n (readRun6 p n r s)
  | some { kind := w, phase := .image } =>
    match imagePacket s (imgOf p (imageOpts s p w)) n k with
    | none => s
    | some (x, y, a, pay) =>
      askedOne n (issuePacket p (some n) { kind := 5, dx := x, dy := y, tag := p, npay := pay.length, issuer := 6, cmd := a }
        pay s)
  | _ => s

/-- A response to a read for the Array engine is written: each slot as one whole chunk with its poison as the marker, and in a
capture the tags of the slots (R267, R270). -/
def respArray (p : Nat) (k : Packet) (r : ReadOut) (s : State) : State :=
  let s := k.payload.zipIdx.foldl (fun s ((d, bad), m) => putChunk (r.dest + 64 * m) d bad s) s
  if switchAt s p = some .capture then
    let n := tileDie s r.x r.y
    let da := ckTags n (ckTarget s p) + 256 * recIndex s r.x r.y + r.offset / 8
    putTags da [BitVec.ofNat 8 (hCmd k.header)] s
  else s

/-- A packet of the Array engine for a partition is on its way, or a read of it has not been answered. -/
def arrayBusy (s : State) (p : Nat) : Bool :=
  let mine := fun (h : Unit512) => decide (hIssuer h = 6)
  s.issued.any (fun (k, _) => mine k.header && decide (partOfTile s (hDx k.header) = some p))
  || s.asked.any (fun r => decide (r.issuer = 6 ∧ r.part = p))
  || (bandTiles s p).any fun (x, y) =>
    let f := (getTile s x y).fret
    f.pkts.any (fun (_, l) => l.any fun g => mine g.header) || f.asm.any (fun (_, k) => mine k.header)
      || f.inbox.any fun k => mine k.header

end Sys2Proof.Machine
end

