-- ==== Sys2Proof/Machine/FaultOps.lean ====
section
/-!
DEFINITION. Machine/FaultOps: event records and the response of their class (R292-R301), dead tiles, repair (R306-R312).
-/
namespace Sys2Proof.Machine

/-! ## Where an event comes from -/

/-- Key of a die among spines and tiles: the die of a logical tile. -/
def dieOfTile (s : State) (x y : Nat) : Nat := (physPlace s x y).1

/-- What a record names: partition, die, tile with its physical column and row. -/
structure Place where
  part : Option Nat := none
  die : Option Nat := none
  tile : Option (Nat × Nat) := none
  phys : Nat × Nat := (0, 0)
  deriving DecidableEq, Repr

/-- The place a tile names. -/
def tilePlaceOf (s : State) (x y : Nat) : Place :=
  let (n, c, p) := physPlace s x y
  { part := partOfTile s x, die := some n, tile := some (x, y), phys := (c, p) }

/-- The place of an event of a source. -/
def evPlace (s : State) (src : EvSrc) (e : Ev) : Place :=
  match src with
  | .tile t => tilePlaceOf s t.x t.y
  | .spine d => { part := partOfDie s d.val, die := some d.val }
  | .sage => match e.tile with
    | some (x, y) => { tilePlaceOf s x y with part := (e.part <|> partOfTile s x) }
    | none => { part := e.part, die := e.die }

/-! ## The record (Table 11.3) -/

/-- Codes for which no rule says what SUB holds. -/
def subOpen (c : EvCode) : Bool :=
  match c with
  | .arrayFormat | .vecPack | .sparseState | .tabMalformed | .counterSaturated | .sectionDeadlock | .tileFault | .tileSuspect | .muCmd | .spadCorrected
  | .restoreLimit | .checkpointMismatch | .reportStale | .reportMismatch | .repairDone | .placementChanged | .imageRefused
  | .imagePoison | .selftestOverdue | .reportLost | .coolantLow | .supplyFault | .fuseError | .fwRejected | .sageLockstep
  | .ringFail | .sageSramCorrected => true
  | _ => false

/-- Codes for which no rule says what DETAIL holds. -/
def detailOpen (c : EvCode) : Bool :=
  match c with
  | .arrayFormat | .vecPack | .sparseState | .sectionDeadlock | .tileSuspect | .linkDegraded | .linkFail | .routeMissing | .stackFail | .restoreLimit
  | .checkpointMismatch | .reportStale | .columnRetired | .diecolOut | .thermalTrip | .quadrantOff | .hostLinkDown | .ringFail
  | .sageSramCorrected => true
  | _ => false

/-- SUB and DETAIL of a record: what the event gives, or free where its code has none stated. -/
def recordSub (e : Ev) (seq : Nat) : Nat := if subOpen e.code then (Config.openSub (evNum e.code) seq).toNat else e.sub
def recordDetail (e : Ev) (seq : Nat) : Nat :=
  if detailOpen e.code then (Config.openDetail (evNum e.code) seq).toNat else e.detail

/-- The 32 bytes of a record. -/
def packRecord (pl : Place) (e : Ev) (seq : Nat) : BitVec 256 :=
  BitVec.ofNat 256 (packFields
    [(evNum e.code, 10), (classNum e.cls, 2), (originNum e.org, 2), (pl.part.getD 4, 3), (b2n pl.tile.isSome, 1),
     (pl.die.getD 63, 6), (pl.phys.1, 7), (pl.phys.2, 7), ((pl.tile.getD (0, 0)).1, 10), ((pl.tile.getD (0, 0)).2, 9),
     (0, 7), (e.cycle, 64), (seq, 32), (e.supp, 16), (recordSub e seq, 8), (0, 8),
     (recordDetail e seq, 64)])

/-- Fields of a record. -/
def recCode (r : BitVec 256) : Nat := fld r.toNat 0 10
def recClass (r : BitVec 256) : Nat := fld r.toNat 10 2
def recPart (r : BitVec 256) : Nat := fld r.toNat 14 3
def recSeq (r : BitVec 256) : Nat := fld r.toNat 128 32

/-- The oldest record of a source, and the source without it (R297). -/
def takeEvent (s : State) (src : EvSrc) : Option (Ev × State) :=
  match src with
  | .tile t =>
    let tl := getTile s t.x t.y
    match tl.ev.q with
    | [] => none
    | e :: rest => some (e, setTile s t.x t.y { tl with ev := { tl.ev with q := rest } })
  | .spine d =>
    let sp := getSpine s d.val
    match sp.ev.q with
    | [] => none
    | e :: rest => some (e, modSpine s d.val fun sp => { sp with ev := { sp.ev with q := rest } })
  | .sage =>
    match s.sage.ev.q with
    | [] => none
    | e :: rest => some (e, { s with sage := { s.sage with ev := { s.sage.ev with q := rest } } })

/-- The next sequence number: 1 follows 0xFFFF_FFFF (R297). -/
def nextSeqNo (n : BitVec 32) : BitVec 32 := if n = 0xFFFFFFFF then 1 else n + 1

/-- A record enters the event ring of a partition (R322). -/
def ringPut (r : BitVec 256) (q : Partition) : Partition :=
  let q := { q with ringNo := (q.ringNo + 1) % 65536 }
  match q.ring[65535]? with
  | some old => { q with ring := r :: q.ring.take 65535, ringLost := recSeq old }
  | none => { q with ring := r :: q.ring }

/-- The event ring of a partition takes a record, in the diagnostic area of the band's first die too (R322, Table 11.14). -/
def ringStore (p : Nat) (r : BitVec 256) (s : State) : State :=
  let q := getPart s p
  putDiag (6 * q.lo) (0x1100000 + 32 * q.ringNo) (bytesLE r.toNat 32) (modPart s p (ringPut r))

/-- A port learns of a record that its host receives (R323). -/
def portLearns (o : Nat) (seq : Nat) (s : State) : State :=
  modPort s o fun q => { q with lastseq := BitVec.ofNat 32 seq, evNew := true }

/-! ## Syslog and the management port (R323-R325) -/

/-- Severity of a syslog message by class (R325). -/
def severity : EvClass → Nat
  | .fatal => 2 | .uncorrected => 3 | .deferred => 4 | .corrected => 5

/-- The management port sends something. -/
def mgmtSend (a : MgmtOut) (s : State) : State := { s with mgmt := s.mgmt ++ [a] }

/-- A message joins the store of messages held while the collector is unreachable: a full store gives up a CORRECTED summary,
the new message if it is one, then a DEFERRED record, then a record that history holds (R325; notes/assumptions/140). -/
def holdMessage (m : SyslogMsg) (g : Sage) : Sage :=
  let l := g.heldMsgs
  if l.length < 8192 then { g with heldMsgs := l ++ [m] }
  else
    let g := { g with discarded := g.discarded + 1 }
    if l.any fun a => decide (a.severity = 5) then { g with heldMsgs := l.eraseP (fun a => decide (a.severity = 5)) ++ [m] }
    else if m.severity = 5 then g
    else if l.any fun a => decide (a.severity = 4) then { g with heldMsgs := l.eraseP (fun a => decide (a.severity = 4)) ++ [m] }
    else { g with heldMsgs := l.eraseP (fun a => g.history.contains (.record a.record)) ++ [m] }

/-- A message goes to the collector, or is held while it cannot be reached (R325). -/
def syslogSend (m : SyslogMsg) (s : State) : State :=
  if s.sage.collector then mgmtSend (.syslog m) s else { s with sage := holdMessage m s.sage }

/-- Number of the source of a record among those of one code: Sage 63, a die, a tile. -/
def sourceNum (pl : Place) : Nat :=
  match pl.tile with
  | some (x, y) => 64 + 1024 * y + x
  | none => pl.die.getD 63

/-- One more CORRECTED record of a code and a source waits for the summary of the minute (R325). -/
def noteMinute (c : EvCode) (src n : Nat) : List (EvCode × Nat × Nat) → List (EvCode × Nat × Nat)
  | [] => [(c, src, n)]
  | (a, b, m) :: l => if a = c ∧ b = src then (a, b, m + n) :: l else (a, b, m) :: noteMinute c src n l

/-- The operator gets a record: subscriptions of the EventService at once, under its MessageId, and syslog, where CORRECTED
records wait for their summary (R323-R325). -/
def tellOperator (pl : Place) (e : Ev) (r : BitVec 256) (s : State) : State :=
  let s := mgmtSend (.event ("DreliaEvents.1.0." ++ evName e.code) r) s
  if e.cls = .corrected then
    { s with sage := { s.sage with minute := noteMinute e.code (sourceNum pl) (1 + e.supp) s.sage.minute } }
  else syslogSend { msgid := evName e.code, severity := severity e.cls, record := r } s

/-! ## Filing a record (R297, R320-R325) -/

/-- Bins of Table 11.13: the power of a base that a number reaches, held at the last of n bins. -/
def powBin (base n v : Nat) : Nat :=
  ((List.range n).filter fun k => decide (base ^ (k + 1) ≤ v)).length.min (n - 1)

/-- The states in which an event may lead to an automatic restore (R300). -/
def restorable (st : PState) : Bool :=
  match st with
  | .running | .loading | .draining | .checkpointing | .restoring => true
  | _ => false

/-- Codes of DEFERRED events that lead to a restore under RESTORE (R300). -/
def deferredRestores (e : Ev) : Bool :=
  match e.code with
  | .arrayResidue | .vectorResidue | .sparseResidue | .spadUncorrected | .routeMissing => true
  | .stackUncorrected => decide (0x20 ≤ fld e.detail 48 8 ∧ fld e.detail 48 8 < 0x60)
  | _ => false

/-- An event interrupts a job (Table 11.7): a FATAL event any job, an UNCORRECTED event of HARDWARE or DEVICE origin the job of
its partition, a DEFERRED one the job that it makes Sage restore (notes/assumptions/139). -/
def interruptsJob (pl : Place) (e : Ev) (s : State) : Bool :=
  match e.cls, pl.part with
  | .fatal, _ => (List.range 4).any fun p => (getPart s p).job
  | .uncorrected, some p =>
    let q := getPart s p
    q.job && restorable q.st && decide (e.org = .hardware ∨ e.org = .device)
  | .deferred, some p =>
    let q := getPart s p
    q.job && restorable q.st && !q.policy.poison && deferredRestores e
  | _, _ => false

/-- The histograms that an event feeds (R321): corrected errors of a stack, the interval between events that interrupt a
job. -/
def noteLifetime (pl : Place) (e : Ev) (s : State) : State :=
  let s :=
    if interruptsJob pl e s then
      let min := (s.cycle - s.sage.lastStop.getD 0) / (60 * 1800000000)
      let s := if s.sage.lastStop.isSome then lifeBump (lifeIntervals + powBin 2 12 min) 1 s else s
      { s with sage := { s.sage with lastStop := some s.cycle } }
    else s
  if e.code = .stackCorrected then
    let k := 2 * pl.die.getD 0 + e.sub / 32
    { s with sage := { s.sage with stackErr := mmod 0 s.sage.stackErr k fun v => v + 1 + e.supp } }
  else s

/-- Sage files a record: the device log, the operator's channel, the rings, the ports, history, the counts of summaries (R297,
R320-R325). -/
def fileRecord (pl : Place) (e : Ev) (r : BitVec 256) (s : State) : State :=
  let seq := recSeq r
  let s := { s with sage := { s.sage with log := s.sage.log ++ [r], nextSeq := nextSeqNo s.sage.nextSeq } }
  let s := tellOperator pl e r s
  let s := noteLifetime pl e (lifeBump (lifeClass + classNum e.cls) 1 s)
  let fatal := decide (e.cls = .fatal)
  let s := (List.range 4).foldl (fun s p =>
    if (getPart s p).set_ ∧ (fatal ∨ pl.part = some p ∨ pl.part = none) then ringStore p r s else s) s
  let s := (List.range 4).foldl (fun s o =>
    if fatal ∨ (pl.part.isSome ∧ partOfPort s o = pl.part) then portLearns o seq s else s) s
  match e.cls with
  | .corrected | .deferred =>
    let k := 64 * evNum e.code + pl.die.getD 63
    { s with sage := { s.sage with counts := mmod 0 s.sage.counts k (fun v => v + 1) } }
  | _ =>
    let s := addHistory (.counters s.sage.life) s
    if e.code = .tileFault then s else addHistory (.record r) s

/-! ## Suspect tiles (R301) -/

/-- Cycles of 1,000 ticks (R301). -/
abbrev suspectSpan : Nat := 1000 * tickCycles

/-- A tile's event makes it suspect (R301); Sage's tables take the event. -/
def noteSuspicion (p : Nat) (pl : Place) (e : Ev) (s : State) : State × Bool :=
  let k := physNum (pl.die.getD 0) pl.phys.1 pl.phys.2
  let q := getPart s p
  let near := fun (l : List Nat) => l.any fun c => decide (e.cycle ≤ c + suspectSpan)
  let replaying := decide (q.restores > 0) && q.restoredRun
  match e.code with
  | .arrayResidue | .vectorResidue | .sparseResidue =>
    let l := mget [] s.sage.residueAt k
    ({ s with sage := { s.sage with residueAt := mset [] s.sage.residueAt k (e.cycle :: l) } },
     near l || (replaying && l.any fun c => decide (c ≥ q.ckptAt)))
  | .tabParity =>
    let l := mget [] s.sage.parityAt k
    ({ s with sage := { s.sage with parityAt := mset [] s.sage.parityAt k (e.cycle :: l) } }, near l)
  | .spadUncorrected =>
    let l := mget [] s.sage.upsetAt k
    ({ s with sage := { s.sage with upsetAt := mset [] s.sage.upsetAt k (e.detail :: l) } },
     e.fresh && l.contains e.detail)
  | _ => (s, false)

/-- A suspect tile waits for its targeted test, whatever the policy of its partition: the next restore comes after it (R301). -/
def suspicion (pl : Place) (e : Ev) (s : State) : State :=
  match pl.part, pl.tile with
  | some p, some _ =>
    let (t, suspect) := noteSuspicion p pl e s
    let k := physNum (pl.die.getD 0) pl.phys.1 pl.phys.2
    if suspect then modPart t p fun q => { q with suspects := if q.suspects.contains k then q.suspects else q.suspects ++ [k] }
    else t
  | _, _ => s

/-! ## The response of a class (R293-R295, R300, R301) -/

/-- A restore starts once every test of the partition has ended and its repair has committed the map (R301, R307). -/
def mustWait (q : Partition) : Bool :=
  !q.suspects.isEmpty || !q.links.isEmpty || q.repair.any fun r => decide (r.step ≠ .committed)

/-- An event calls for a restore (R300, R301): it joins one that the partition waits for; the third of a checkpoint interval
makes the partition FAULTED. -/
def callRestore (p : Nat) (s : State) : State :=
  let q := getPart s p
  if q.autoPending ∧ q.st = .halted then
    if mustWait q then modPart s p fun q => { q with behind := leftOver q, sw := none } else s
  else if q.restores ≥ 2 then
    let s := sageEvent (startWave s p) .restoreLimit 0 0 (some p)
    modPart s p fun q => { dropPending q with st := .faulted }
  else
    let s := modPart s p fun q => { q with restores := q.restores + 1 }
    if mustWait q then
      modPart (startWave s p) p fun q => { q with behind := leftOver q, autoPending := true, st := .halted, sw := none, bunits := 0 }
    else autoRestore p s

/-- The state of a partition that an UNCORRECTED event halts (R293 and the rules that raise it). -/
def haltState (e : Ev) : PState :=
  match e.code with
  | .sectionDeadlock => .halted
  | .imagePoison | .reportMismatch | .restoreLimit | .columnRetired | .diecolOut | .quadrantOff => .faulted
  | _ => match e.org with
    | .program | .host => .faulted
    | .hardware | .device => .halted

/-- The LINK_FAIL is on a bridge lane (R312). -/
def bridgeFail (s : State) (x y d : Nat) : Bool :=
  match neighbour s x y d with
  | some (x2, y2) => decide (dieOfTile s x y ≠ dieOfTile s x2 y2)
  | none => false

/-- An UNCORRECTED event halts a partition: halt wave, PSTATE, the pending load or command completes with its code, and an
automatic restore that was pending or under way is given up (R293, R294); ballast stops (R380). A partition that is FAULTED
stays so. -/
def haltPart (p : Nat) (e : Ev) (s : State) : State :=
  let s := endStarted p (evNum e.code) 0 0 (startWave s p)
  modPart s p fun q => { dropPending q with st := if q.st = .faulted then .faulted else haltState e }

/-- An event may lead to a restore of a partition: it runs, loads, drains, captures or restores, or already waits for one
(R300). -/
def mayRestore (q : Partition) : Bool := restorable q.st || (q.autoPending && decide (q.st = .halted))

/-- An UNCORRECTED HARDWARE event that leads to a restore, or halts a partition in any other state (R293, R300). -/
def hardwareEvent (p : Nat) (e : Ev) (s : State) : State :=
  if mayRestore (getPart s p) then callRestore p s else haltPart p e s

/-- The forced path of a restore is under way: PSTATE is HALTED, and a TILE_FAULT ends the restore (R309). -/
def restoreForced (q : Partition) : Bool :=
  match q.sw with
  | some { kind := .restore _, phase := .inflight } => true
  | _ => false

/-- The halt wave of a repair goes out: step 2 of Table 11.9 (R307). -/
def repairHalts (q : Partition) : Partition :=
  { q with repair := q.repair.map fun r => if r.step = .detected then { r with step := .halted } else r }

/-- The tiles at the ends of a failed link within a die wait for their tests (R306, R312). -/
def testLink (p : Nat) (pl : Place) (d : Nat) (s : State) : State :=
  let (x, y) := pl.tile.getD (0, 0)
  match neighbour s x y d with
  | some (x2, y2) =>
    let l : LinkTest := { x := x, y := y, x2 := x2, y2 := y2 }
    modPart s p fun q => { q with links := if q.links.contains l then q.links else q.links ++ [l] }
  | none => s

/-- The response to an UNCORRECTED event of a partition. -/
def uncorrected (p : Nat) (pl : Place) (e : Ev) (s : State) : State :=
  match e.code with
  | .tabParity => hardwareEvent p e s
  | .tileFault =>
    let s := modPart s p repairHalts
    let q := getPart s p
    if q.st = .idle then s
    else if restoreForced q then callRestore p s
    else hardwareEvent p e s
  | .linkFail =>
    let (x, y) := pl.tile.getD (0, 0)
    if bridgeFail s x y e.sub then
      let lane := if e.sub % 2 = 0 then x % gradeWidth s.grade else y % 64
      let s := fieldDefect { kind := 4, die := pl.die.getD 0, edge := e.sub, lane := lane } (haltPart p e s)
      modPart s p fun q => { q with st := .faulted }
    else hardwareEvent p e (testLink p pl e.sub s)
  | _ => haltPart p e s

/-- A FATAL event (R295): every partition FAULTED, every pending command completes with the code; the record is held in the
event latch. -/
def fatalAll (e : Ev) (r : BitVec 256) (s : State) : State :=
  let s := { s with boot := { s.boot with event := some r }, module_ := { s.module_ with alert := true } }
  (List.range 4).foldl (fun s p =>
    if (getPart s p).set_ then
      let s := flushPart p (evNum e.code) (startWave s p)
      modPart s p fun q => { dropPending q with repair := none, links := [], suspects := [], st := .faulted }
    else s) s

/-- A refused write or MU command of the stream engine ends the tile entry that sent it, when it still runs (R356). -/
def refuseEntry (p : Nat) (pl : Place) (e : Ev) (s : State) : State :=
  match openEntry s p 1 with
  | some (_, en, c) =>
    if c.started ∧ tileEntry en ∧ pl.tile = some (enX en, enY en)
        ∧ (e.code = .muCmd ∨ (e.code = .windowViolation ∧ e.org = .host)) then
      endEntry p 1 (evNum e.code) (enMoved en c) c.poisoned s
    else s
  | none => s

/-- A die column goes out of service (R310, R312). -/
def columnOut (n : Nat) (s : State) : State :=
  let dead := if s.boot.dead.contains (n / 6) then s.boot.dead else s.boot.dead ++ [n / 6]
  let s := sageEvent { s with boot := { s.boot with dead := dead } } .diecolOut (n / 6) 0 (partOfDie s n) (some n)
  match partOfDie s n with
  | some p => modPart (startWave s p) p fun q => { dropPending q with st := .faulted }
  | none => s

/-- A stack has failed, and history holds its record: STACK_OUT joins the map, and its die column goes out of service
(R312). -/
def stackLost (pl : Place) (k : Nat) (s : State) : State :=
  match pl.die with
  | some n => columnOut n (fieldDefect { kind := 5, die := n, stack := k } s)
  | none => s

/-- The response that an event's class calls for. -/
def respond (pl : Place) (e : Ev) (r : BitVec 256) (s : State) : State :=
  let s := suspicion pl e s
  match e.cls, pl.part with
  | .fatal, _ => fatalAll e r s
  | .uncorrected, part =>
    let s := match part with
      | some p => if (getPart s p).set_ then uncorrected p pl e (refuseEntry p pl e s) else s
      | none => s
    if e.code = .stackFail then stackLost pl e.sub s else s
  | .deferred, some p =>
    let s := refuseEntry p pl e s
    let q := getPart s p
    if deferredRestores e ∧ q.policy.poison = false ∧ mayRestore q then callRestore p s else s
  | .corrected, _ =>
    if e.code = .tileSuspect ∧ pl.tile.isSome then
      let k := physNum (pl.die.getD 0) pl.phys.1 pl.phys.2
      { s with sage := { s.sage with suspectAt := mmod [] s.sage.suspectAt k (e.cycle :: ·) } }
    else s
  | _, _ => s

/-! ## Dead tiles and repair (R306-R310) -/

/-- Dead rows of a column, units returned to service left out (R317). -/
def deadCount (s : State) (n c : Nat) : Nat :=
  (s.defects.filter fun d => decide (d.kind = 1 ∧ d.die = n ∧ d.c = c) && !s.sage.returned.contains d).dedup.length

/-- A repair with one tile more: it runs its steps again from the halt wave on (R309); `full` when the tile's column, with the
tiles that the repair already holds, has no spare left (R307, R310). -/
def joinRepair (now n c p dead : Nat) (r : Option Repair) : Repair :=
  let old := (r.map (·.tiles)).getD []
  let tiles := if old.contains (n, c, p) then old else old ++ [(n, c, p)]
  let taken := (tiles.filter fun (a, b, _) => decide (a = n ∧ b = c)).length
  { tiles := tiles, since := (r.map (·.since)).getD now, retire := (r.any (·.retire)) || decide (dead + taken > 2) }

/-- TILE_FAULT of a logical tile (R306, R307, R309): the event, and the repair it starts or joins. A tile of an unassigned
die column is recorded at once. -/
def faultTile (x y trig : Nat) (s : State) : State :=
  let (n, c, p) := physPlace s x y
  let last := ((getTile s x y).lastAnswer).getD 0
  let part := partOfTile s x
  let s := sageEvent s .tileFault 0 (packFields [(trig, 4), (last, 60)]) part none (some (x, y))
  match part with
  | none => deadTile n c p (addHistory (.repair n c p) s)
  | some k => modPart s k fun q => { q with repair := some (joinRepair s.cycle n c p (deadCount s n c) q.repair) }

/-- The logical tile a physical tile holds, as the map in force has it. -/
def logicalAt (s : State) (n c p : Nat) : Option (Nat × Nat) :=
  (dieTiles s n).find? fun (x, y) => decide (physPlace s x y = (n, c, p))

/-- A unit that holds no logical tile dies: recorded with no halt (R309). -/
def faultSpare (n c p : Nat) (s : State) : State := deadTile n c p (addHistory (.repair n c p) s)

/-- A physical tile fails a test (R313): SELFTEST_FAIL, and TILE_FAULT or a record of the spare. -/
def testFails (test n c p trig : Nat) (s : State) : State :=
  match logicalAt s n c p with
  | some (x, y) => faultTile x y trig (sageEvent s .selftestFail test 0 (partOfTile s x) none (some (x, y)))
  | none => faultSpare n c p (sageEvent s .selftestFail test (packFields [(c, 7), (p, 7)]) (partOfDie s n) (some n))

/-- A tile of a repair is recorded: DEAD_TILE while its column has a spare left, else the column retires (R307, R310). -/
def recordDead (s : State) (t : Nat × Nat × Nat) : State :=
  let (n, c, p) := t
  if deadCount s n c < 2 then fieldDefect { kind := 1, die := n, c := c, p := p } s else retireColumn n c s

/-! ## What a test leaves behind (R313, Table 11.11) -/

/-- Rows of a memory that a test has destroyed. -/
def lostRows {w : Nat} (key from_ n : Nat) : SMap (BitVec w) :=
  msetAll 0 [] ((List.range n).map fun k => (k, (Config.testLeft key (from_ + k)).setWidth w))

/-- Accumulator rows that a test has destroyed. -/
def lostAcc (key from_ n : Nat) : SMap AccRow :=
  msetAll {} [] ((List.range n).map fun k => (k, { bits := Config.testLeft key (from_ + k) : AccRow }))

/-- A compressor's buffers after CU BIST. -/
def lostBuf (key : Nat) (v : VBuf) : VBuf :=
  { v with pack := (Config.testLeft key 400).setWidth 512, scale := (Config.testLeft key 401).setWidth 512
           mask := (Config.testLeft key 402).setWidth 512 }

/-- CU BIST destroys accumulators, banks, gather store and vector buffers (Table 11.11): what they hold afterwards is
unspecified. -/
def bistTile (key : Nat) (t : Tile) : Tile :=
  let a := t.arr
  let e := t.sp
  { t with
    arr := { a with acc := lostAcc key 0 64, active := { a.active with rows := lostRows key 64 64 }
                    shadow := { a.shadow with rows := lostRows key 128 64 } }
    sp := { e with acc := lostAcc key 192 64, gather := lostRows key 256 64
                   active := { e.active with cols := lostRows key 320 16, masks := lostRows key 336 16 }
                   shadow := { e.shadow with cols := lostRows key 352 16, masks := lostRows key 368 16 } }
    vshow := lostBuf key t.vshow, vfire := lostBuf key t.vfire }

/-- MU march destroys slot data, tags and poison. -/
def marchTile (key : Nat) (t : Tile) : Tile :=
  { t with mu := { t.mu with slots := msetAll {} [] ((List.range 2048).map fun k =>
      let v := Config.testLeft key (512 + k)
      (k, { data := v.setWidth 512, full := v.getLsbD 512, poison := v.getLsbD 513 : Slot })) } }

/-- Fret loopback destroys what the fret's buffers hold. -/
def loopTile (t : Tile) : Tile := { t with fret := { t.fret with bufs := [], pkts := [] } }

/-- A tile after a test. -/
def testTile (test key : Nat) (t : Tile) : Tile :=
  match test with
  | 0 => bistTile key t
  | 2 => marchTile key t
  | 3 => loopTile t
  | _ => t

/-- A test writes its results into the diagnostic area of its die, in a unit of 64 bytes of the self-test area (R313,
Table 11.14). -/
def putResult (n unit : Nat) (what : List Nat) (s : State) : State :=
  putDiag n (0x1300000 + 64 * (unit % 16384)) (bytesLE (Config.testResult what).toNat 64) s

end Sys2Proof.Machine
end

