-- ==== Sys2Proof/Machine/BootOps.lean ====
section
/-!
DEFINITION. Machine/BootOps: fuses, the verifier, the boot record, the boot ROM, identity and reports, the device reset
(R395-R413).
-/
namespace Sys2Proof.Machine

/-! ## Bytes -/

/-- Bytes [lo, lo + n) of a list. -/
def slice (bs : List Byte) (lo n : Nat) : List Byte := (bs.drop lo).take n

/-- A field of n bits at bit lo of a structure held as bytes (R12). -/
def byteField (bs : List Byte) (lo n : Nat) : Nat := fld (ofBytesLE (slice bs (lo / 8) ((n + 14) / 8))) (lo % 8) n

/-- Exactly n bytes: cut, or followed by zeros. -/
def fixBytes (n : Nat) (bs : List Byte) : List Byte := (bs ++ List.replicate n 0#8).take n

/-! ## Fuses (Table 14.1) -/

/-- The fused count: anti-rollback bits blown (R395, R410). -/
def fusedCount (s : State) : Nat := popcount s.boot.fuses.svnfuse.toNat 64

/-- IDSEED as the key block holds it at start-up; every other reader sees zero once it is locked (R400). -/
def idseedRead (s : State) : BitVec 256 := if s.boot.fuses.seedLocked then 0 else s.boot.fuses.idseed

/-- The bytes of the TRIM and DEFECT fields (R401). -/
def trimDefectBytes (f : Fuses) : List Byte :=
  ((List.range 390).flatMap fun d => bytesLE (mget 0 f.trim d).toNat 4)
  ++ (List.range 1024).flatMap fun m => bytesLE (if m < f.ndefect.toNat then ((f.defect[m]?).map defectWord).getD 0 else 0) 8

/-- What an uncorrectable fuse word does (R396). -/
inductive FuseLoss where
  | hold
  | none_
  | trim (dom : Nat)
  | record (m : Nat)
  deriving DecidableEq, Repr

/-- The field that a fuse word holds part of. A word of TRIM holds two domains, which both lose their trims. -/
def fuseLoss (w : Nat) : List FuseLoss :=
  if w < 10 then [.hold]
  else if w = 10 then [.none_]
  else if w < 206 then [.trim (2 * (w - 11)), .trim (2 * (w - 11) + 1)]
  else [.record (w - 206)]

/-! ## Firmware image (R397, R398) -/

def imMagic (i : List Byte) : Nat := byteField i 0 32
def imFormat (i : List Byte) : Nat := byteField i 32 16
def imSvn (i : List Byte) : Nat := byteField i 48 8
def imVersion (i : List Byte) : Nat := byteField i 64 64
def imBodylen (i : List Byte) : Nat := byteField i 128 32
def imPk (i : List Byte) : List Byte := slice i 32 32
def imBodyhash (i : List Byte) : List Byte := slice i 64 32
def imSig (i : List Byte) : List Byte := slice i 0x1000 7856
def imBody (i : List Byte) : List Byte := slice i 0x3000 (imBodylen i)

/-- The verifier (R398): 0 on acceptance, else the reason of the first check that fails. -/
def verifyImage (pkhash : BitVec 256) (fused : Nat) (i : List Byte) : Nat :=
  let zero := fun lo n => (slice i lo n).all fun b => decide (b = 0)
  if i.length < 0x3000 ∨ imMagic i ≠ 0x46575244 ∨ imFormat i ≠ 1 ∨ byteField i 56 8 ≠ 0
      ∨ !zero 20 12 ∨ !zero 96 4000 ∨ !zero 11952 336 then 1
  else if imBodylen i % 4096 ≠ 0 ∨ imBodylen i < 4096 ∨ imBodylen i > 0x01FFD000 then 2
  else if shaWord (imPk i) ≠ pkhash then 3
  else if !Config.slhDsaVerify (imPk i) (slice i 0 0x1000) (imSig i) then 4
  else if (imBody i).length ≠ imBodylen i ∨ sha256 (imBody i) ≠ imBodyhash i then 5
  else if imSvn i < fused then 6
  else 0

/-- The verifier with this part's fuses. -/
def verify (s : State) (i : List Byte) : Nat := verifyImage s.boot.fuses.pkhash (fusedCount s) i

/-! ## Boot record (Table 14.4) -/

/-- The copy that is the boot record. -/
def bootCopy (b : Boot) : Option Bool :=
  if b.rec0.valid ∧ (b.rec1.valid = false ∨ b.rec1.seq ≤ b.rec0.seq) then some false
  else if b.rec1.valid then some true
  else none

/-- The boot record; with neither copy valid, ACTIVE = 0 with no trial. -/
def bootRec (b : Boot) : BootRec :=
  match bootCopy b with
  | some false => b.rec0
  | some true => b.rec1
  | none => {}

/-- Writers overwrite the other copy (R399). -/
def writeBoot (f : BootRec → BootRec) (b : Boot) : Boot :=
  let r := bootRec b
  let n := { f r with valid := true, seq := r.seq + 1 }
  if bootCopy b = some false then { b with rec1 := n } else { b with rec0 := n }

/-- A slot of flash. -/
def slotOf (b : Boot) (second : Bool) : List Byte := if second then b.slotB else b.slotA

/-- A slot is written. -/
def putSlot (second : Bool) (i : List Byte) (b : Boot) : Boot :=
  if second then { b with slotB := i } else { b with slotA := i }

/-! ## Events of start-up (R407) -/

/-- An event latched during start-up is reported and written to history at release: it has a record and no response, since no
partition runs yet. -/
def startEvent (c : EvCode) (sub detail : Nat) (pl : Place) (s : State) : State :=
  let e := mkEv c sub detail s.cycle
  fileRecord pl e (packRecord pl e s.sage.nextSeq.toNat) s

/-- The event latch takes a FATAL record of a unit that cannot report: SEQ is 0 until history takes it (R295, R408). -/
def latchEvent (c : EvCode) (detail : Nat) (s : State) : State :=
  let r := packRecord {} (mkEv c 0 detail s.cycle) 0
  { s with boot := { s.boot with event := some r } }

/-- At step 5 the latched event reaches history (R295, R408). -/
def fileLatched (s : State) : State :=
  match s.boot.event with
  | none => s
  | some r =>
    let s := { s with boot := { s.boot with event := none } }
    if recSeq r ≠ 0 then (if s.sage.history.contains (.record r) then s else addHistory (.record r) s)
    else
      let r := BitVec.ofNat 256 (setFld r.toNat 128 32 s.sage.nextSeq.toNat)
      addHistory (.record r)
        { s with sage := { s.sage with log := s.sage.log ++ [r], nextSeq := nextSeqNo s.sage.nextSeq } }

/-! ## Boot ROM (R396, R400, R401, R406, R408) -/

/-- Die columns the defect map takes out of service (R305, R312). -/
def mapDead (s : State) : List Nat :=
  (List.range 8).filter fun i =>
    decide (retiredMax s.defects i ≥ 3) || s.defects.any fun d => decide (d.kind = 5 ∧ d.die / 6 = i)

/-- Step 2 finds a fuse word uncorrectable (R396): the device holds in ROM, or a domain or a die column stays out. -/
def loseWord (readable : Bool) (w : Nat) (s : State) : State × Bool :=
  (fuseLoss w).foldl (fun (s, hold) l =>
    let b := s.boot
    match l with
    | .hold => (s, true)
    | .none_ => (s, hold)
    | .trim d =>
      let dead := if d < 384 then b.fuseDead ++ [d / 8 / 6] else b.fuseDead
      ({ s with boot := { b with offDoms := b.offDoms ++ [d], fuseDead := dead } }, hold)
    | .record m =>
      match b.fuses.defect[m]? with
      | none => (s, hold)
      | some d => if readable then ({ s with boot := { b with fuseDead := b.fuseDead ++ [d.die / 6] } }, hold) else (s, true))
    (s, false)

/-- Sense of the fuse array; whether the device holds in ROM. -/
def senseFuses (f : FuseSense) (s : State) : State × Bool :=
  let s := { s with boot := { s.boot with fuseBad := f.bad.filter fun w => decide (w ≠ 10 ∧ w < 1230)
                                          fuseDead := [], offDoms := [] } }
  let (s, hold) := s.boot.fuseBad.foldl (fun (s, hold) w =>
    let (s, h) := loseWord f.dieReadable w s
    (s, hold || h)) (s, false)
  ({ s with boot := { s.boot with dead := (mapDead s ++ s.boot.fuseDead).dedup } }, hold)

/-- What the boot ROM latches for the running image (R401). -/
def latchOf (s : State) (slot trial : Bool) (st : BootState) : Latch :=
  let i := slotOf s.boot slot
  { fwhash := shaWord (slice i 0 0x1000), svn := imSvn i, version := BitVec.ofNat 64 (imVersion i), slot := slot
    trial := trial, boot := st, fusehash := shaWord (trimDefectBytes s.boot.fuses) }

/-- What the boot ROM latches when it enters recovery. -/
def latchRecovery (s : State) : Latch := { boot := .recovery, fusehash := shaWord (trimDefectBytes s.boot.fuses) }

/-- The slots in the order in which they are tried; the trial start writes the boot record first (R408). -/
def bootOrder (s : State) : State × List Bool × Bool :=
  let r := bootRec s.boot
  if r.pending ∧ r.tries = 1 then
    ({ s with boot := writeBoot (fun r => { r with tries := 0 }) s.boot }, [!r.active, r.active], true)
  else (s, [r.active, !r.active], false)

/-- Reason codes of a slot. -/
def setReason (slot : Bool) (r : Nat) (b : Boot) : Boot := if slot then { b with reasonB := r } else { b with reasonA := r }

/-- Steps 3 to 6 (R400, R401, R407, R408): identity, the choice of the image, its measurements, history read; or recovery. -/
def bootImage (f : FuseSense) (s : State) : State :=
  let s := { s with boot := { s.boot with fuses := { s.boot.fuses with seedLocked := true }, reasonA := 0, reasonB := 0 } }
  let (s, order, trial) := bootOrder s
  let first := nth order 0 false
  let second := nth order 1 true
  let r1 := verify s (slotOf s.boot first)
  let s := { s with boot := setReason first r1 s.boot }
  let run := fun (slot tr : Bool) (st : BootState) (s : State) =>
    let l := latchOf s slot tr st
    let ds := s.defects ++ (s.boot.fuses.defect.take s.boot.fuses.ndefect.toNat).filter fun d => !s.defects.contains d
    let s := { s with defects := ds, boot := { s.boot with latch := l, phase := .waitMain }
                      module_ := { s.module_ with wantMain := true } }
    let s := { s with boot := { s.boot with dead := (mapDead s ++ s.boot.fuseDead).dedup } }
    f.corrected.foldl (fun s w => addHistory (.corrected w) s) (fileLatched s)
  if r1 = 0 then run first trial .normal s
  else
    let r2 := verify s (slotOf s.boot second)
    let s := { s with boot := setReason second r2 s.boot }
    if r2 = 0 then run second false .fallback s
    else
      let s := latchEvent .fwRejected (s.boot.reasonA + s.boot.reasonB <<< 8) s
      { s with boot := { s.boot with latch := latchRecovery s, phase := .recovery } }

/-- Steps 2 to 6 of Table 14.5. -/
def bootRom (f : FuseSense) (s : State) : State :=
  let (s, hold) := senseFuses f s
  if hold then
    let s := latchEvent .fuseError (s.boot.fuseBad.headD 0) s
    { s with boot := { s.boot with phase := .romHold } }
  else bootImage f s

/-! ## Reports (R349, R413, Table 14.7) -/

/-- BOOTSTATE. -/
def bootNum : BootState → Nat
  | .normal => 0 | .recovery => 1 | .fallback => 2

/-- The device identity (R400). -/
def deviceId (s : State) : BitVec 256 := shaWord (fixBytes 1312 (Config.devidPk s.boot.fuses.idseed))

/-- The configuration that CONFHASH covers: partition set, the partition's policies, capo settings. -/
def confOf (s : State) (p : Nat) : List Nat :=
  let q := (getPart s p).policy
  let c := s.power.capo
  ((List.range 4).flatMap fun i => let q := getPart s i; [b2n q.set_, q.lo, q.hi, q.port])
  ++ [p, q.limit, q.dlticks, b2n q.poison, b2n q.maint, q.maintms, q.hplim]
  ++ [c.cap, c.ramp, c.floor, b2n c.ballast, c.cpv]

/-- Header of the report: the fields below EK. -/
def reportHead (s : State) (o : Nat) (nonce : Nat) : Nat :=
  let b := s.boot
  let l := b.latch
  let rec_ := decide (b.phase = .recovery)
  let p := if rec_ then 4 else (partOfPort s o).getD 4
  let conf := if rec_ then Config.recoveryConf nonce else Config.confHash (confOf s p)
  let rev := if rec_ then (Config.recoveryRev nonce).toNat else s.sage.dmrev.toNat
  packFields
    [(1, 16), (3860, 16), (o, 2), (p, 3), (b2n (decide (s.grade = .b)), 1), (bootNum l.boot, 2), (b2n l.slot, 1),
     (b2n l.trial, 1), (0, 6), (l.svn, 8), (fusedCount s, 7), (0, 1), (l.version.toNat, 64), (nonce, 256),
     ((deviceId s).toNat, 256), (b.fuses.serial.toNat, 64), (l.fwhash.toNat, 256), (b.fuses.pkhash.toNat, 256),
     (l.fusehash.toNat, 256), (conf.toNat, 256), (if p = 4 then 0 else bandKey s p, 64), (rev, 32),
     (if rec_ then 0 else s.cycle, 64), (0, 160)]

/-- The report of 3,860 bytes, signed by the key block over its bytes 0x000 to 0x59F. -/
def reportBytes (s : State) (o pair : Nat) (nonce : Nat) : List Byte :=
  let ek := if s.boot.phase = .recovery then List.replicate 1184 0#8 else fixBytes 1184 (Config.mlkemEk pair)
  let body := bytesLE (reportHead s o nonce) 256 ++ ek
  body ++ fixBytes 2420 (Config.mldsaSign s.boot.fuses.idseed body)

/-! ## Device reset and loss of power (R404, R409, R417) -/

/-- What a partition keeps through a reset: its band and port, policies and lock, totals, jobs (R319, R336, R391). -/
def keepPart (q : Partition) : Partition :=
  if q.set_ then
    { set_ := true, lo := q.lo, hi := q.hi, port := q.port, policy := q.policy, plock := q.plock, totals := q.totals
      inexact := q.inexact, jobs := (endJob q).jobs, nextTicket := q.nextTicket }
  else {}

/-- What the capo keeps: its settings (R373). -/
def keepCapo (c : Capo) : Capo :=
  { cap := c.cap, ramp := c.ramp, floor := c.floor, ballast := c.ballast, cpv := c.cpv, capE := c.cap * 160000
    floorE := c.floor * 160000 }

/-- Everything that does not survive a device reset or a power cycle is lost: tiles, frets, spines, stacks, ports, sections,
levels; fuses, flash, history, the defect map and the settings stay (R404, R435). -/
def loseVolatile (s : State) : State :=
  { s with
    tiles := [], spines := [], stk := {}, issued := [], resps := [], asked := [], pktSeq := [], afterDetach := none
    ports := msetAll {} [] ((List.range 4).map fun o => (o, { out := (getPort s o).out }))
    power := { capo := keepCapo s.power.capo }
    parts := msetAll {} [] ((List.range 4).map fun p => (p, keepPart (getPart s p)))
    sage := { s.sage with ev := {}, nextSeq := 1 }
    boot := { s.boot with latch := {}, rcv := none, fuseBad := [], reasonA := 0, reasonB := 0
                          fuses := { s.boot.fuses with seedLocked := false } } }

/-- A device reset (R409): Table 14.5 runs again from step 2, with the auxiliary supply kept. -/
def deviceReset (s : State) : State :=
  let s := lifeBump lifeResets 1 (loseVolatile s)
  let m := s.module_
  { s with
    boot := { s.boot with phase := .aux }
    module_ := { m with mainOn := false, wantMain := false, safe := false, alert := false, flowLatched := false
                        epoLatched := false } }

/-- Device reset into recovery (R412). -/
def resetToRecovery (s : State) : State :=
  let s := deviceReset s
  { s with boot := { s.boot with latch := latchRecovery s, phase := .recovery
                                 fuses := { s.boot.fuses with seedLocked := true } } }

/-- Counters as history last holds them (R320, R436). -/
def historyLife (s : State) : SMap Nat :=
  (s.sage.history.reverse.findSome? fun h => match h with
    | .counters l => some l
    | _ => none).getD []

/-- Both input paths open (R417): all power is lost; the lifetime counters fall back to history. -/
def losePower (s : State) : State :=
  let s := loseVolatile s
  { s with
    sage := { s.sage with life := historyLife s }
    boot := { s.boot with phase := .off, lockAt := [] }
    module_ := { s.module_ with present := false, auxOn := false, mainOn := false, wantMain := false, safe := false
                                alert := false, flowOk := false, flowLatched := false, epoLatched := false } }

/-- A stop of the main path (R422, R425, R435): every domain that main power feeds loses power. -/
def loseMain (s : State) : State :=
  let off := s.power.dom.filter fun (d, _) => decide (d = 384 ∨ d = 389)
  let s := [1, 2, 3].foldl (fun s o => modPort s o fun q => { q with up := false }) s
  let s := [0, 1, 2, 3].foldl (fun s o => modPort s o fun q => { q with filter := [], snoops := [], heldReads := [] }) s
  { s with
    tiles := [], spines := [], stk := {}, issued := [], resps := [], asked := []
    power := { s.power with dom := off, quads := {} }
    module_ := { s.module_ with mainOn := false } }

/-! ## Commits and updates (R408-R412) -/

/-- Anti-rollback bits are blown from the lowest upward until the count equals a value (R410). -/
def blowTo (n : Nat) (w : Reg64) : Reg64 :=
  Nat.repeat (fun w =>
    if popcount w.toNat 64 ≥ n then w
    else match (List.range 64).find? fun i => !bit w.toNat i with
      | some i => w ||| BitVec.ofNat 64 (2 ^ i)
      | none => w) 64 w

/-- The image is written to both slots, the boot record names slot A with no trial, and the device resets (R412). -/
def installRecovery (i : List Byte) (s : State) : State :=
  let b := putSlot true i (putSlot false i s.boot)
  let b := writeBoot (fun r => { r with active := false, pending := false, tries := 0 }) b
  deviceReset { s with boot := { b with rcv := none } }

end Sys2Proof.Machine
end

