-- ==== Sys2Proof/Machine/PowerOps.lean ====
section
/-!
DEFINITION. Machine/PowerOps: the gate tree, ramps, droop spans, the capo, coolant and telemetry (R365-R393).
-/
namespace Sys2Proof.Machine

/-! ## The gate tree (Tables 13.1, 13.2, R367, R368) -/

/-- Parent of a domain. -/
def domParent (d : Nat) : Option Nat :=
  if d < 384 then
    let n := d / 8
    match d % 8 with
    | 4 => some 388
    | 5 => some (8 * n + 4)
    | 6 | 7 => some (8 * n + 5)
    | _ => some (8 * n + 4)
  else if d < 389 then some 389
  else none

/-- A domain with a clock root of its own (R369). -/
def hasRoot (d : Nat) : Bool := if d < 384 then decide (d % 8 < 6) else decide (d < 388)

/-- A domain's node. -/
def getDom (s : State) (d : Nat) : Domain := mget {} s.power.dom d

/-- Update a domain's node. -/
def modDom (d : Nat) (f : Domain → Domain) (s : State) : State :=
  { s with power := { s.power with dom := mmod {} s.power.dom d f } }

/-- A node is in use (Table 13.2). -/
def domInUse (s : State) (d : Nat) : Bool :=
  if s.boot.offDoms.contains d then false
  else if d ≥ 389 then true
  else if d ≥ 384 then s.module_.mainOn || decide (d = 384 ∧ s.boot.phase ≠ .romHold)
  else s.module_.mainOn && (partOfDie s (d / 8)).isSome && (decide (d % 8 ≥ 4) || !quadOut s d)

/-- A child of a node is not OFF. -/
def childOn (s : State) (d : Nat) : Bool :=
  (List.range 390).any fun c => decide (domParent c = some d) && decide ((getDom s c).st ≠ .off)

/-- Ramps that run (R370). -/
def rampsRunning (s : State) : Nat :=
  (s.power.dom.filter fun (_, x) => match x.ramp with
    | .switch _ | .divider _ _ _ => true
    | _ => false).length

/-- Cycles of the power-switch ramp, and of one step of a divider ramp (R370). -/
abbrev switchCycles : Nat := 360000
abbrev stepCycles : Nat := 18432

/-- A node starts on its way up, when its parent runs and a ramp is free; none does while a FATAL condition stands (R388,
R389). -/
def startUp (d : Nat) (s : State) : State :=
  let x := getDom s d
  let parent := match domParent d with
    | some q => decide ((getDom s q).st = .run)
    | none => true
  if x.st ≠ .off ∨ !(x.ramp == .none || x.ramp == .queued true) ∨ !domInUse s d ∨ !parent ∨ s.module_.alert then s
  else if rampsRunning s < 8 then modDom d (fun x => { x with ramp := .switch (s.cycle + switchCycles) }) s
  else modDom d (fun x => { x with ramp := .queued true }) s

/-- What a quadrant that loses power holds is lost; its frets stay (R385). -/
def wipeQuad (n q : Nat) (s : State) : State :=
  (dieTiles s n).foldl (fun s (x, y) =>
    if tilePlace s x y = (n, q) then modTile s x y fun t => { fret := t.fret, phys := t.phys } else s) s

/-- What a stack that loses power holds is lost. -/
def wipeStack (n k : Nat) (s : State) : State :=
  let gone := fun (a : Nat) => decide (a / 2 ^ 37 = n ∧ sliceOf (a % 2 ^ 37) / 32 = k)
  let s := { s with stk := { mem := s.stk.mem.filter fun (a, _) => !gone a
                             poison := s.stk.poison.filter fun (c, _) => !gone (64 * c)
                             corrected := s.stk.corrected.filter fun (c, _) => !gone (64 * c) } }
  modSpine s n fun sp => if k = 0 then { sp with up0 := false } else { sp with up1 := false }

/-- A node is OFF, with what it held. -/
def nodeOff (d : Nat) (s : State) : State :=
  let s := modDom d (fun x => { x with st := .off, ramp := .none }) s
  if d ≥ 384 then s
  else
    let n := d / 8
    match d % 8 with
    | 4 => (dieTiles s n).foldl (fun s (x, y) => modTile s x y fun _ => {}) s
    | 5 => modSpine s n fun _ => {}
    | 6 => wipeStack n 0 s
    | 7 => wipeStack n 1 s
    | q => wipeQuad n q s

/-- A node that is not in use starts on its way down, when no child is powered (R368). -/
def startDown (d : Nat) (s : State) : State :=
  let x := getDom s d
  if x.st ≠ .run ∨ !(x.ramp == .none || x.ramp == .queued false) ∨ domInUse s d ∨ childOn s d then s
  else if !hasRoot d then nodeOff d s
  else if rampsRunning s < 8 then modDom d (fun x => { x with ramp := .divider false 4 (s.cycle + stepCycles) }) s
  else modDom d (fun x => { x with ramp := .queued false }) s

/-- Domains, parents first. -/
def domOrder : List Nat :=
  [389, 384, 385, 386, 387, 388] ++ (List.range 48).map (8 * · + 4) ++ (List.range 48).map (8 * · + 5)
  ++ (List.range 48).flatMap fun n => [8 * n + 6, 8 * n + 7, 8 * n, 8 * n + 1, 8 * n + 2, 8 * n + 3]

/-- Sage moves the nodes that are to move: children down first, parents up first, eight ramps at a time (R367-R370). -/
def gateAdvance (s : State) : State :=
  let s := domOrder.reverse.foldl (fun s d => startDown d s) s
  domOrder.foldl (fun s d => startUp d s) s

/-- Every node that is in use runs, every other is OFF: the end of start-up steps 7 to 11. -/
def gateSettled (s : State) : State :=
  { s with power := { s.power with dom := msetAll {} [] (domOrder.map fun d =>
      (d, if domInUse s d then { getDom s d with st := .run, ramp := .none } else {})) } }

/-! ## Droop (R371, R378) -/

/-- Stretched tile cycles, and all tile cycles, of a quadrant in the device cycles [lo, hi): a run of stretched core cycles
holds half as many tile cycles. -/
def stretchCount (spans : List (Nat × Nat)) (lo hi : Nat) : Nat × Nat :=
  let runs := (mergeSpans (sortSpans spans)).map fun (a, b) => (min hi (b + 1)) - max a lo
  let core := runs.sum
  let tile := (runs.map fun n => (n + 1) / 2).sum
  (tile, (hi - lo) - core + tile)

/-! ## Thermal levels (R383, R384) -/

/-- kt of a temperature in 0.01 degrees C. -/
def thermalLevel (t : Nat) : Nat := min 16 (16 * (10500 - t) / 1000)

/-- kt of a quadrant from the sensors of its die. -/
def quadThermal (temps : SMap Nat) (n q : Nat) : Nat :=
  let own := mget 0 temps (8 * n + q)
  let hot := [5, 6, 7].filterMap fun k =>
    let t := mget 0 temps (8 * n + k)
    if t > 8500 then some (t + 1000) else none
  thermalLevel (hot.foldl max own)

/-! ## The capo (R373-R380) -/

/-- Power in units of 1/16000 W. -/
abbrev wattUnit : Nat := 16000
abbrev s0Power : Nat := 2000 * wattUnit
abbrev ballastUnit : Nat := 76800

/-- Width of a band in die columns. -/
def bandW (q : Partition) : Nat := q.hi + 1 - q.lo

/-- The ramp step d of R374. -/
def rampStep (c : Capo) (q : Partition) : Nat := c.ramp * bandW q

/-- B_cap and FL of R374. -/
def capShare (c : Capo) (q : Partition) : Nat := (c.capE - s0Power) * bandW q / 8
def floorShare (c : Capo) (q : Partition) : Nat := (c.floorE - s0Power) * bandW q / 8

/-- Volumetric heat capacity in force, J/(L K): CPV, or that of water at the mean of inlet and outlet (R387). -/
def heatCap (c : Capo) (tin tout : Nat) : Nat := if c.cpv = 0 then Config.waterHeat ((tin + tout) / 2) else c.cpv

/-- The coolant limit (R387). -/
def coolantLimit (cv flow tin : Nat) : Nat := min (40000 * wattUnit) (flow * cv * (7200 - tin) * 2 / 75)

/-- A value moves toward a goal by at most a step. -/
def approach (goal step v : Nat) : Nat := if v < goal then min goal (v + step) else max goal (v - step)

/-- The effective host limit of a partition after a tick (R374). -/
def nextHost (c : Capo) (q : Partition) : Option Nat :=
  if q.policy.hplim = 0 then none
  else some (approach (q.policy.hplim * 100 * wattUnit) (rampStep c q) (q.hostE.getD q.u))

/-- The candidates of R377 with their reason codes (Table 13.4). -/
def candidates (c : Capo) (pcool lv : Nat) (hostE : Option Nat) (q : Partition) : List (Nat × Nat) :=
  [(4, (pcool - s0Power) * bandW q / 8)] ++ (hostE.toList.map fun h => (6, h))
  ++ [(1, capShare c q), (2, lv + rampStep c q)]

/-- The first candidate that equals the least. -/
def bindingOf (l : List (Nat × Nat)) : Nat × Nat :=
  let u := (l.map (·.2)).foldl min ((l.head?.map (·.2)).getD 0)
  ((l.find? fun x => decide (x.2 = u)).getD (0, u))

/-- lv after a tick (R377). -/
def nextLv (c : Capo) (pb : Nat) (gap : Bool) (q : Partition) : Nat :=
  let d := rampStep c q
  if q.kp < 16 ∧ !gap then min (q.lv + d) q.u else min (max pb (q.lv - d)) (q.lv + d)

/-- k_p after a tick, under the new ceiling (R377). -/
def nextKp (u pb kp : Nat) : Nat :=
  if pb > u then min (kp - 1) (kp * u / pb) else if 100 * pb < 99 * u then min 16 (kp + 1) else kp

/-- The update of R377 for a partition: band power, gap and coolant limit of the tick just ended. -/
def capoUpdate (c : Capo) (pcool pb : Nat) (gap : Bool) (q : Partition) : Partition :=
  let d := rampStep c q
  let hostE := nextHost c q
  let lv := nextLv c pb gap q
  let (reason, u) := bindingOf (candidates c pcool lv hostE q)
  { q with lv := lv, u := u, reason := reason, hostE := hostE
           f := min u (min (max (floorShare c q) (lv - d)) (lv + d)), kp := nextKp u pb q.kp, gap := gap, pband := pb }

/-- A partition is created at the end of a tick, or at release, with a band power (R377). -/
def capoStart (c : Capo) (pb : Nat) (q : Partition) : Partition :=
  let d := rampStep c q
  { q with lv := pb, kp := 16, u := pb + d, f := min (pb + d) (max (floorShare c q) (pb - d)), reason := 0, hostE := none
           bunits := 0, pband := pb }

/-- A gap (R315): every tile of the band ENDED, or the partition IDLE, and no load started. -/
def inGap (q : Partition) : Bool :=
  q.set_ && (decide (q.st = .idle) || (decide (q.st = .running) && q.endSeen.isSome))

/-- Ballast units after a tick (R380): f and u of the tick just ended. -/
def nextBallast (on : Bool) (limit pb : Nat) (gap : Bool) (q : Partition) : Nat :=
  if !on ∨ !gap ∨ q.st = .halted ∨ q.st = .faulted then 0
  else
    let up := (q.f - pb + ballastUnit / 2) / ballastUnit
    let down := (pb - q.f + ballastUnit / 2) / ballastUnit
    let room := (q.u - pb) / ballastUnit
    min limit (q.bunits + min up room - down)

/-- Band power of a partition from its domains, in W (R366). -/
def bandWatts (s : State) (q : Partition) : Nat :=
  ((bandDies q).map fun n => ((List.range 8).map fun k => (getDom s (8 * n + k)).watts).sum).sum

/-! ## Telemetry (R379, R390-R393) -/

/-- A telemetry counter of a partition advances; the limit of a joule counter is in joules (R393). -/
def telAdd (off n : Nat) (q : Partition) : Partition :=
  let top := if off = 0x18 ∨ off = 0x70 ∨ off = 0x88 then ctrMax * 2000 else ctrMax
  { q with tel := mmod 0 q.tel off fun v => min (v + n) top }

/-- Offsets of a partition's counters that a tick has saturated. -/
def telSat (old new : Partition) : List Nat :=
  ([0x18, 0x20, 0x28, 0x30, 0x38, 0x40, 0x48, 0x50, 0x58, 0x60, 0x68, 0x70, 0x78, 0x80, 0x88] : List Nat).filter fun o =>
    let top := if o = 0x18 ∨ o = 0x70 ∨ o = 0x88 then ctrMax * 2000 else ctrMax
    decide (mget 0 old.tel o < top ∧ mget 0 new.tel o = top)

/-- Issue level of a quadrant under a partition level. -/
def levelOf (s : State) (kp k : Nat) : Nat := min kp (min (mget 16 s.power.quads.kt k) (mget 16 s.power.quads.kd k))

/-- Reasons that throttled a quadrant in a tick (R379). -/
def throttleReasons (s : State) (q : Partition) (stretched : Bool) (k : Nat) : List Nat :=
  let lv := levelOf s q.kp k
  (if lv < 16 then
    [if mget 16 s.power.quads.kt k = lv then 3 else if mget 16 s.power.quads.kd k = lv then 5 else q.reason] else [])
  ++ (if stretched then [5] else [])

/-- Quadrants of a band, as 4n + q. -/
def bandQuads (q : Partition) : List Nat := (bandDies q).flatMap fun n => (List.range 4).map (4 * n + ·)

end Sys2Proof.Machine
end

