-- ==== Sys2Proof/Machine/HostOps.lean ====
section
/-!
DEFINITION. Machine/HostOps: ports, registers of the ports, partition sets, DETACH, the operator's forced requests
(R330-R345, R360-R364, R392, R435).
-/
namespace Sys2Proof.Machine

/-! ## Ports -/

/-- What a port sends to its host, when its link is up. -/
def hostSend (o : Nat) (x : HostOut) (s : State) : State :=
  modPort s o fun q => if q.up then { q with out := q.out ++ [x] } else q

/-- PORTSTATE codes (Table 12.5). -/
def portNum : PortState → Nat
  | .attached => 0 | .detaching => 1 | .detached => 2

/-- The mailboxes and Redfish serve: the device has been released (R407). -/
def inService (s : State) : Bool := decide (s.boot.phase = .released ∨ s.boot.phase = .prepared)

/-! ## Registers of BAR0 (Tables 12.4 to 12.7, 12.22, 13.6) -/

/-- ARE_PSTATUS (Table 9.14). -/
def regPstatus (q : Partition) : Nat :=
  packFields [(pstateNum q.st, 3), (q.epoch.toNat, 4), (q.section_.toNat, 16), (b2n q.stale, 1), (b2n q.tileio, 1),
    (b2n q.ckvalid, 1), (q.replay.length, 6), (q.ckseq.toNat, 16), (q.discards.toNat, 16)]

/-- SGM_CMD, SGM_STS, SGM_CAP. -/
def regSgmCmd (q : Port) : Nat :=
  packFields [(q.opcode.toNat, 16), (q.len.toNat, 13), (b2n q.irq, 1), (0, 33), (b2n q.go, 1)]
def regSgmSts (q : Port) : Nat := packFields [(q.status.toNat, 16), (q.rlen.toNat, 13), (0, 3), (q.dones.toNat, 32)]
def regSgmCap (s : State) (o : Nat) : Nat :=
  packFields [(o, 2), ((partOfPort s o).getD 4, 3), (portNum (getPort s o).st, 2), (b2n (decide (s.grade = .b)), 1)]

/-- CKE_STATn. -/
def regCkeStat (c : Chan) : Nat := packFields [(c.alg.toNat, 2), (b2n c.armed, 1), (c.src.toNat, 3)]

/-- Smallest k_q of a band. -/
def kminOf (s : State) (q : Partition) : Nat := ((bandQuads q).map fun k => levelOf s q.kp k).foldl min 16

/-- A telemetry register of a partition, by offset in the block (Tables 13.6, 13.7); powers in W. -/
def regTelPart (q : Partition) (off : Nat) : Nat :=
  let joule := fun v => ctrReg (v / 2000)
  if off = 0 then packFields [(q.kp, 5), (if q.kp = 16 then 0 else q.reason, 3), (b2n q.gap, 1), (q.bunits, 13), (q.kmin, 5)]
  else if off = 0x08 then packFields [(q.pband / wattUnit, 32), (q.lv / wattUnit, 32)]
  else if off = 0x10 then packFields [(q.u / wattUnit, 32), (q.f / wattUnit, 32)]
  else if off = 0x18 ∨ off = 0x70 ∨ off = 0x88 then joule (mget 0 q.tel off)
  else if off ≤ 0x88 then ctrReg (mget 0 q.tel off)
  else 0

/-- Heat and input of the last second, as means of its ticks, W (R390). -/
def heatMean (t : Tele) : Nat × Nat :=
  let n := max 1 t.heat.length
  ((t.heat.map (·.1)).sum / n, (t.heat.map (·.2)).sum / n)

/-- A telemetry register of the device (Tables 13.6, 13.8, 13.9). -/
def regTelDev (w : Power) (off : Nat) : Nat :=
  let t := w.tele
  let c := w.capo
  if off = 0x100 then packFields [(t.pin, 32), (t.shared, 32)]
  else if off = 0x108 then packFields [(t.tin, 16), (t.tout, 16), (t.flow, 16), (t.pcool / 160000, 16)]
  else if off = 0x110 then
    let (h, i) := heatMean t
    packFields [(h, 32), (if i = 0 then 0 else 10000 * h / i, 14)]
  else if off = 0x118 then ctrReg (t.heatE / 2000)
  else if off = 0x120 then ctrReg (t.inE / 2000)
  else if off = 0x128 then packFields [(t.tj, 16), (t.tjDom, 9)]
  else if off = 0x130 then packFields [(c.capE / 160000, 16), (c.floorE / 160000, 16), (c.ramp, 16), (b2n c.ballast, 1)]
  else 0

/-- What a host reads at an aligned offset of BAR0 (Table 12.4); offsets not listed read as zero (R13). -/
def portReg (s : State) (o off : Nat) : Nat :=
  let q := getPort s o
  let p := (partOfPort s o).map (getPart s)
  let part := fun (f : Partition → Nat) => (p.map f).getD 0
  if off < 0x10000 then (mget 0 q.regs off).toNat
  else if off = 0x10000 then regSgmCmd q
  else if off = 0x10008 then regSgmSts q
  else if off = 0x10010 then q.lastseq.toNat
  else if off = 0x10018 then regSgmCap s o
  else if 0x11000 ≤ off ∧ off < 0x12000 then ofBytesLE (slice q.req (off - 0x11000) 8)
  else if 0x12000 ≤ off ∧ off < 0x13000 then ofBytesLE (slice q.rsp (off - 0x12000) 8)
  else if off = 0x13000 then part regPstatus
  else if off = 0x13008 then part fun q => regQstatus (getEng q 0)
  else if off = 0x14000 then part fun q => regQstatus (getEng q 1)
  else if off = 0x14008 then ctrReg q.rd
  else if off = 0x14010 then ctrReg q.wr
  else if off = 0x15000 then part fun q => regQstatus (getEng q 2)
  else if 0x15008 ≤ off ∧ off < 0x15048 then
    let n := (off - 0x15008) / 16
    part fun q => if off % 16 = 8 then regCkeStat (mget {} q.chan n) else chanResult (mget {} q.chan n)
  else if 0x16000 ≤ off ∧ off < 0x16100 then part fun q => regTelPart q (off - 0x16000)
  else if 0x16100 ≤ off ∧ off < 0x16138 then regTelDev s.power (off - 0x16000)
  else if 0x18000 ≤ off ∧ off < 0x18200 then
    (mget 0 q.regs off).toNat + (if off % 16 = 8 then 2 ^ 32 * b2n (bit q.msixMask.toNat ((off - 0x18000) / 16)) else 0)
  else if off = 0x19000 then q.msixPend.toNat
  else 0

/-! ## Clearing and partition sets (R336, R339, R340) -/

/-- The band and the port that a die column belongs to, if any. -/
def columnOwner (s : State) (i : Nat) : Option (Nat × Nat × Nat) :=
  ((List.range 4).find? fun p => let q := getPart s p; q.set_ && decide (q.lo ≤ i ∧ i ≤ q.hi)).map fun p =>
    let q := getPart s p
    (q.lo, q.hi, q.port)

/-- A tile of a die column that is cleared: reset, its slots, tags and poison cleared, its route entries invalid; tab memory and
counters stay as they stood, with TAB_CYCLE and TAB_END_CYCLE among them (R18, R20, R37, R340). -/
def clearTile (t : Tile) : Tile :=
  let r := resetTile t
  { r with mu := { r.mu with slots := [] }, fret := { r.fret with route := [] } }

/-- A die column is cleared: stacks, slots, tags and poison (R340); its tiles are reset and their queues in RESET (R339). -/
def clearColumn (i : Nat) (s : State) : State :=
  (List.range 6).foldl (fun s j =>
    let n := dieNum i j
    let s := clearRange (devAddr n 0) (devAddr (n + 1) 0) s
    let s := modSpine s n fun sp => { sp with reads := [], streams := [] }
    (dieTiles s n).foldl (fun s (x, y) =>
      setTile s x y (clearTile (tileNow s x y))) s) s

/-- Policies and lock of a partition after a set (R339): kept with the port and the index, else those of the Reset column. -/
def setPolicies (old : Partition) (d : PartDef) : Policies × Bool :=
  if old.set_ ∧ old.port = d.port.val then (old.policy, old.plock) else ({}, false)

/-- A partition that a set defines and that is not as it was. -/
def definePart (c : Capo) (old : Partition) (watts : Nat) (d : PartDef) : Partition :=
  let (pol, lock) := setPolicies old d
  capoStart c (watts * wattUnit) { set_ := true, lo := d.lo, hi := d.hi, port := d.port.val, policy := pol, plock := lock }

/-- A set leaves a partition as it is. -/
def samePart (q : Partition) (d : Option PartDef) : Bool :=
  match d with
  | some d => q.set_ && decide (q.lo = d.lo ∧ q.hi = d.hi ∧ q.port = d.port.val)
  | none => !q.set_

/-- A set of partitions is one that the device can hold (R336). -/
def setValid (ps : List PartDef) : Bool :=
  ps.all (fun d => decide (d.lo ≤ d.hi ∧ d.hi ≤ 7)) && decide (ps.length ≤ 4)
  && !hasTwice (ps.map (·.index.val)) && !hasTwice (ps.map (·.port.val))
  && !hasTwice (ps.flatMap fun d => (List.range (d.hi + 1 - d.lo)).map (d.lo + ·))

/-- Stacks that have returned to service leave the map when partitions are set (R317). -/
def returnStacks (s : State) : State :=
  let back := s.sage.returned.filter fun d => decide (d.kind = 5)
  let s := setDefects (s.defects.filter fun d => !back.contains d) s
  let s := { s with sage := { s.sage with returned := s.sage.returned.filter fun d => !back.contains d } }
  let s := back.foldl (fun s d => modSpine s d.die fun sp =>
    if d.stack = 0 then { sp with up0 := true } else { sp with up1 := true }) s
  { s with boot := { s.boot with dead := (mapDead s ++ s.boot.fuseDead).dedup } }

/-- A new set of partitions takes effect (R339, R340, R391). -/
def applyPartitions (ps : List PartDef) (s : State) : State :=
  let find := fun (p : Nat) => ps.find? fun d => decide (d.index.val = p)
  let changed := (List.range 4).filter fun p => !samePart (getPart s p) (find p)
  let before := (List.range 8).map (columnOwner s)
  let oldPorts := (changed.filter fun p => (getPart s p).set_).map fun p => (getPart s p).port
  let s := changed.foldl (fun s p => modPart s p fun q => match find p with
    | some d =>
      let w := bandWatts s { q with lo := d.lo, hi := d.hi }
      definePart s.power.capo q w d
    | none => {}) s
  let after := (List.range 8).map (columnOwner s)
  let cols := (List.range 8).filter fun i => decide (nth before i none ≠ nth after i none)
  let s := cols.foldl (fun s i => clearColumn i s) s
  let ports := (oldPorts ++ changed.filterMap fun p => (find p).map (·.port.val)).dedup
  let s := ports.foldl (fun s o => modPort s o fun q =>
    { q with st := .detached, committed := false, filter := [], snoops := [], heldReads := []
             memActive := (partOfPort s o).isSome }) s
  let s := addHistory (.partitions ps) s
  let s := changed.foldl (fun s p => if (getPart s p).set_ then addHistory (.policies p (getPart s p).policy) s else s) s
  gateAdvance (returnStacks s)

/-! ## The operator's requests -/

/-- Every partition is IDLE and every port DETACHED or down (R409, R435). -/
def deviceQuiet (s : State) : Bool :=
  (List.range 4).all fun k =>
    let q := getPart s k
    let o := getPort s k
    (!q.set_ || decide (q.st = .idle)) && (decide (o.st = .detached) || !o.up)

/-- Partitions that a set removes, or whose band or port it changes, are IDLE with their port DETACHED or down (R339). -/
def setAllowed (s : State) (ps : List PartDef) : Bool :=
  (List.range 4).all fun p =>
    let q := getPart s p
    let o := getPort s q.port
    !q.set_ || samePart q (ps.find? fun d => decide (d.index.val = p))
      || (decide (q.st = .idle) && (decide (o.st = .detached) || !o.up))

/-- Removal is prepared (R435). -/
def doRemoval (s : State) : State :=
  let s := loseMain (addHistory (.counters s.sage.life) s)
  { s with boot := { s.boot with phase := .prepared }, module_ := { s.module_ with safe := true, wantMain := false } }

/-- The management port answers. -/
def mgmtAnswer (a : MgmtOut) (s : State) : State := { s with mgmt := s.mgmt ++ [a] }

/-- An operator's request that had to wait runs, and Redfish answers it. -/
def runOperator (r : OperatorReq) (s : State) : State :=
  let s := mgmtAnswer .done { s with afterDetach := none }
  match r with
  | .partitions ps => applyPartitions ps s
  | .reset => deviceReset s
  | .removal => doRemoval s

/-! ## Mailbox completion (R342) -/

/-- A mailbox command completes: response, status, GO clear, vector 0. -/
def endMail (o st : Nat) (rsp : List Byte) (s : State) : State :=
  let irq := (getPort s o).irq
  let s := modPort s o fun q =>
    { q with status := BitVec.ofNat 16 st, rlen := BitVec.ofNat 13 rsp.length, rsp := rsp, dones := q.dones + 1, go := false }
  if irq then sendVector o 0 s else s

/-! ## DETACH (R362) -/

/-- Steps 3 and 4: halt wave, entries ABORTED, the band's tiles reset, the partition IDLE. -/
def sweepBand (p : Nat) (abort : Bool) (s : State) : State :=
  let s := if abort then flushPart p 0x402 (if (getPart s p).st = .running then startWave s p else s) else s
  let s := overTiles (catchUpBand p s) (bandTiles s p) fun _ _ => resetTile
  let s := (bandDies (getPart s p)).foldl (fun s n => modSpine s n fun sp => { sp with streams := [] }) s
  modPart s p fun q =>
    { endJob q with st := .idle, sw := none, replaying := [], behind := none, autoPending := false, repair := none
                    suspects := [], links := [], suspended := false, opts := none, endSeen := none, stallMap := [], mapping := false }

/-- Every list queue of a partition is empty. -/
def queuesEmpty (q : Partition) : Bool := (List.range 3).all fun e => (getEng q e).lists.isEmpty

/-- Steps 3 to 5, once the queues are empty or the mode is ABORT: the sweep, and a snoop of every line the host holds. -/
def detachSweep (o : Nat) (s : State) : State :=
  match (getPort s o).detach, partOfPort s o with
  | some d, some p =>
    if d.swept ∨ !(d.abort ∨ queuesEmpty (getPart s p)) then s
    else
      let s := sweepBand p d.abort s
      let s := modPort s o fun q => { q with detach := some { d with swept := true } }
      if (getPort s o).up then snoopLines o (getPort s o).filter s
      else modPort s o fun q => { q with filter := [], snoops := [] }
  | _, _ => s

/-- Step 6, once every response has come: DETACHED, or ATTACHED again after a function level reset (R335). -/
def detachEnd (o : Nat) (s : State) : State :=
  match (getPort s o).detach with
  | none => s
  | some d =>
    if d.swept ∧ (getPort s o).filter = [] then
      let s := modPort s o fun q => { q with detach := none, st := if d.reattach ∧ q.up then .attached else .detached }
      if d.irq.isSome then endMail o 0 [] s else s
    else s

/-- Every DETACH goes as far as it can; then an operator's request that waits for them runs (R339, R409, R435). -/
def detachAll (s : State) : State :=
  let s := (List.range 4).foldl (fun s o => detachEnd o (detachSweep o s)) s
  match s.afterDetach with
  | none => s
  | some r => if (List.range 4).any fun o => (getPort s o).detach.isSome then s else runOperator r s

/-- A DETACH begins on a port; an ABORT overtakes a DRAIN in progress. -/
def beginDetach (o : Nat) (d : Detach) (s : State) : State :=
  modPort s o fun q =>
    match q.detach with
    | some old => { q with detach := some { old with abort := old.abort || d.abort, reattach := d.reattach } }
    | none => { q with st := .detaching, detach := some d }

/-- DETACH in ABORT mode for a port that serves a partition, as Sage performs it. -/
def abortPort (reattach : Bool) (o : Nat) (s : State) : State :=
  if (partOfPort s o).isNone then modPort s o fun q => { q with st := if reattach ∧ q.up then .attached else .detached }
  else beginDetach o { abort := true, deadline := s.cycle, reattach := reattach } s

/-- An operator's forced request: DETACH in ABORT mode on ports, then the request when all have completed. -/
def forceRequest (os : List Nat) (r : OperatorReq) (s : State) : State :=
  detachAll (os.foldl (fun s o => abortPort false o s) { s with afterDetach := some r })

end Sys2Proof.Machine
end

