-- ==== Sys2Proof/Machine/StreamOps.lean ====
section
/-!
DEFINITION. Machine/StreamOps: how the stream engine carries out an entry, a line or a packet at a time (R333, R355-R357).
-/
namespace Sys2Proof.Machine

/-! ## Counters and check channels -/

/-- Bytes the stream engine instance of a port has read or written (Table 12.22). -/
def steCount (o : Nat) (wr : Bool) (n : Nat) (s : State) : State :=
  let q := getPort s o
  let old := if wr then q.wr else q.rd
  let new := min (old + n) ctrMax
  let s := modPort s o fun q => if wr then { q with wr := new } else { q with rd := new }
  if old < ctrMax ∧ new = ctrMax then
    sageEvent s .counterSaturated 0 (if wr then 0x14010 else 0x14008) (partOfPort s o)
  else s

/-- Channels that an entry names in SNOOP and that are armed on a source fold bytes (R357). -/
def foldSnoop (p : Nat) (e : Unit512) (src : Nat) (bs : List Byte) (s : State) : State :=
  foldChannels p (fun k c => bit (enSnoop e) k && decide (c.src.toNat = src)) bs s

/-- The engine reads bytes. -/
def steReads (p : Nat) (e : Unit512) (bs : List Byte) (s : State) : State :=
  foldSnoop p e 2 bs (steCount (getPart s p).port false bs.length s)

/-- The engine writes bytes. -/
def steWrites (p : Nat) (e : Unit512) (bs : List Byte) (s : State) : State :=
  foldSnoop p e 3 bs (steCount (getPart s p).port true bs.length s)

/-! ## Stack memory -/

/-- Pieces of a run of n bytes at an address, none crossing a 64-byte boundary: offset and length. -/
def piecesOf : Nat → Nat → Nat → Nat → List (Nat × Nat)
  | 0, _, _, _ => []
  | fuel + 1, a, ofs, n =>
    if n = 0 then []
    else
      let k := min (64 - a % 64) n
      (ofs, k) :: piecesOf fuel (a + k) (ofs + k) (n - k)

/-- Pieces of a run. -/
def pieces (a n : Nat) : List (Nat × Nat) := piecesOf (n / 64 + 2) a 0 n

/-- The die of a device address answers: its column is in service and the stack of its slice is up. -/
def stackServes (s : State) (da : Nat) : Bool :=
  !s.boot.dead.contains (da / 2 ^ 37 / 6) && sliceUp (getSpine s (da / 2 ^ 37)) (sliceOf (da % 2 ^ 37))

/-- Bytes of one chunk or less are written at a device address. -/
def writePiece (o da : Nat) (bs : List Byte) (poison : Bool) (e : Ecc) (s : State) : State :=
  if stackServes s da then
    writeBytes da bs poison e (streamIssuer o)
      (serveWrite da (ringArrival s (da / 2 ^ 37)) (decide (da % 64 = 0 ∧ bs.length = 64)) s)
  else s

/-- Bytes are written over a run of device addresses of one die. -/
def writeRun (o da : Nat) (bs : List Byte) (poison : Bool) (e : Ecc) (s : State) : State :=
  (pieces da bs.length).foldl (fun s (ofs, m) => writePiece o (da + ofs) (slice bs ofs m) poison e s) s

/-- Bytes are written over a run of partition addresses. -/
def writePa (p pa : Nat) (bs : List Byte) (poison : Bool) (e : Ecc) (s : State) : State :=
  let o := (getPart s p).port
  (pieces pa bs.length).foldl (fun s (ofs, m) =>
    writePiece o (paToDa (getPart s p) (pa + ofs)) (slice bs ofs m) poison e s) s

/-- The host holds no line of a run; else the port snoops the lines and the access waits (R331). -/
def untracked (p pa n : Nat) (s : State) : State × Bool :=
  match trackedLines s p pa n with
  | [] => (s, true)
  | ls => (snoopLines (getPart s p).port ls s, false)

/-! ## The current entry -/

/-- The bytes of a run of partition addresses come, a chunk or part of one at a time, once no host holds their lines (R237,
R331); true when all are there. A die out of service gives zero with poison (R332). -/
def fetchRun (p pa n : Nat) : Nat → State → State × Bool
  | 0, s => (s, false)
  | fuel + 1, s =>
    match openEntry s p 1 with
    | none => (s, false)
    | some (_, _, c) =>
      let got := (c.rbuf.map (·.1.length)).sum
      if got ≥ n then (s, true)
      else if c.reading.isSome then (s, false)
      else
        let (s, free) := untracked p (pa + got) (n - got) s
        if !free then (s, false)
        else
          let a := pa + got
          let m := min (64 - a % 64) (n - got)
          let da := paToDa (getPart s p) a
          if stackServes s da then
            let no := (getPart s p).steNo + 1
            let s := modCur p 1 (fun c => { c with reading := some no }) (modPart s p fun q => { q with steNo := no })
            let d := da / 2 ^ 37
            (arriveRead d (da % 2 ^ 37 / 256) (ringArrival s d) (.engine p no (da % 256) m) s, false)
          else fetchRun p pa n fuel (modCur p 1 (fun c => { c with rbuf := c.rbuf ++ [(List.replicate m 0#8, true)] }) s)

/-- The pieces of a run have all come. -/
def fetched (p pa n : Nat) (s : State) : State × Bool := fetchRun p pa n (n / 64 + 3) s

/-- Bytes of the pieces that have come. -/
def rbufBytes (c : Entry) : List Byte := c.rbuf.flatMap (·.1)

/-- Poisoned pieces. -/
def rbufBad (c : Entry) : Nat := (c.rbuf.filter (·.2)).length

/-- Some of m bytes at an offset of the pieces is poisoned. -/
def badAt (ofs m : Nat) : Nat → List (List Byte × Bool) → Bool
  | _, [] => false
  | at_, (bs, bad) :: rest =>
    (bad && decide (at_ < ofs + m ∧ ofs < at_ + bs.length)) || badAt ofs m (at_ + bs.length) rest

/-- The entry ends OK, with what it moved (R355). -/
def endMoved (p st : Nat) (e : Unit512) (c : Entry) (s : State) : State := endEntry p 1 st (enMoved e c) c.poisoned s

/-- Bytes an entry takes from host memory or brings to it. -/
def hostTotal (e : Unit512) : Nat :=
  if enOp e = 0x18 then 64 else if tileEntry e then 64 * enSlots e else enLen e

/-- A CXL.cache request goes out for the bytes of a host line (R333), or the entry ends because the link is down (R364). -/
def askHost (p ofs : Nat) (e : Unit512) (c : Entry) (s : State) : State :=
  let o := (getPart s p).port
  let a := enHaddr e + ofs
  let n := min (64 - a % 64) (hostTotal e - ofs)
  if (getPort s o).up then
    hostSend o (.readReq a n) (modCur p 1 (fun c => { c with asked := some s.cycle, reqAddr := a, reqLen := n }) s)
  else endMoved p (evNum .hostLinkDown) e c s

/-- Bytes go to host memory at an offset of the entry, as one line or part of it. -/
def giveHost (p ofs : Nat) (bs : List Byte) (e : Unit512) (c : Entry) (s : State) : State :=
  let o := (getPart s p).port
  let a := enHaddr e + ofs
  if (getPort s o).up then
    hostSend o (.write a bs (decide (bs.length = 64)))
      (modCur p 1 (fun c => { c with asked := some s.cycle, reqAddr := a, reqLen := bs.length }) s)
  else endMoved p (evNum .hostLinkDown) e c s

/-! ## Entries between host and stacks -/

/-- Device address of a byte of an IMG entry: the reserve of its die (R355). -/
def imgAddr (s : State) (p : Nat) (e : Unit512) (ofs : Nat) : Nat :=
  devAddr (6 * (getPart s p).lo + fld (enSaddr e) 32 6) (reserveBase + fld (enSaddr e) 0 32 + ofs)

/-- H2S and IMG: bytes that have come are written once no host holds their lines; then the next line is asked for. -/
def pullGo (p : Nat) (e : Unit512) (c : Entry) (s : State) : State :=
  let img := decide (enOp e = 0x13)
  let pa := enSaddr e + c.moved
  let (s, free) := if img ∨ c.buf = [] then (s, true) else untracked p pa c.buf.length s
  if !free then s
  else
    let s := if c.buf = [] then s
      else if img then writeRun (getPart s p).port (imgAddr s p e c.moved) c.buf c.bufPoison c.wecc s
      else writePa p pa c.buf c.bufPoison c.wecc s
    let s := steWrites p e c.buf s
    let c := { c with moved := c.moved + c.buf.length, poisoned := c.poisoned + b2n (c.bufPoison && decide (c.buf ≠ []))
                      buf := [], bufPoison := false }
    let s := modCur p 1 (fun _ => c) s
    if c.moved ≥ enLen e then endMoved p 0 e c s else askHost p c.moved e c s

/-- S2H: the next bytes are read once no host holds their lines, and go to the host. -/
def pushGo (p : Nat) (e : Unit512) (c : Entry) (s : State) : State :=
  if c.moved ≥ enLen e then endMoved p 0 e c s
  else
    let a := enHaddr e + c.moved
    let n := min (64 - a % 64) (enLen e - c.moved)
    match fetched p (enSaddr e + c.moved) n s with
    | (s, false) => s
    | (s, true) => match openEntry s p 1 with
      | none => s
      | some (_, _, c) =>
        let bs := rbufBytes c
        let s := steReads p e bs s
        let c := { c with buf := bs, rbuf := [], poison := c.poison || decide (rbufBad c > 0)
                          poisoned := c.poisoned + rbufBad c }
        giveHost p c.moved bs e c (modCur p 1 (fun _ => c) s)

/-- S2S: the whole run is read into a buffer, and then written, once no host holds a line of either run. -/
def copyGo (p : Nat) (e : Unit512) (s : State) : State :=
  let n := enLen e
  let dst := enDaddr e
  match fetched p (enSaddr e) n s with
  | (s, false) => s
  | (s, true) => match openEntry s p 1 with
    | none => s
    | some (_, _, c) =>
      let (s, free) := untracked p dst n s
      if !free then s
      else
        let bs := rbufBytes c
        let s := steReads p e bs s
        let o := (getPart s p).port
        let s := (pieces dst n).foldl (fun s (ofs, m) =>
          writePiece o (paToDa (getPart s p) (dst + ofs)) (slice bs ofs m) (badAt ofs m 0 c.rbuf) c.wecc s) s
        let s := steWrites p e bs s
        let c := { c with moved := n, poisoned := rbufBad c, poison := decide (rbufBad c > 0), rbuf := [] }
        endMoved p 0 e c (modCur p 1 (fun _ => c) s)

/-! ## Entries on tiles (R356) -/

/-- What the partition's state lets a tile entry do: run, wait, or complete with a status. -/
inductive TileGate where
  | go
  | wait
  | stop (st : Nat)
  deriving DecidableEq, Repr

/-- The gate of R356 and R260. -/
def tileGate (q : Partition) : TileGate :=
  match q.st with
  | .running | .halted => if q.suspended then .wait else .go
  | .idle | .faulted => .stop (stateStatus q)
  | _ => .wait

/-- The gate for the next packet of an entry: it also waits while its SEQ would lie too far ahead (R214). -/
def entryGate (s : State) (p : Nat) (tap : Option Nat) : TileGate :=
  match tileGate (getPart s p) with
  | .go => if mayIssue s (streamIssuer (getPart s p).port) tap p then .go else .wait
  | g => g

/-- A packet goes to the entry's tile; a write of the stream engine is noted (R274). -/
def sendTile (p : Nat) (tap : Option Nat) (kind npay ofs cmd : Nat) (rsegs : List (Nat × Nat)) (pay : List (Unit512 × Bool))
    (e : Unit512) (s : State) : State :=
  let h : Hdr := { kind := kind, dx := enX e, dy := enY e, tag := p, npay := npay, win := if kind = 1 then enWin e else 0
                   offset := ofs, issuer := streamIssuer (getPart s p).port, rsegs := rsegs, cmd := cmd }
  let s := issuePacket p tap h pay s
  let s := modCur p 1 (fun c => { c with packets := c.packets + 1, lastSent := some s.cycle }) s
  if kind = 2 then s else modPart s p fun q => { q with tileio := true }

/-- The last packet has left: the entry completes, or waits for its counter (R356). -/
def sentAll (p : Nat) (e : Unit512) (s : State) : State :=
  if enConfirm e then modCur p 1 (fun c => { c with polled := s.cycle }) s
  else match openEntry s p 1 with
    | some (_, _, c) => endMoved p 0 e c s
    | none => s

/-- Slots gathered from bytes, oldest first, with the bytes of the slot that is not whole. -/
def gather : Nat → List Byte → Bool → List (Unit512 × Bool) → List (Unit512 × Bool) × List Byte
  | 0, bs, _, l => (l, bs)
  | fuel + 1, bs, bad, l =>
    if bs.length < 64 then (l, bs)
    else gather fuel (bs.drop 64) bad (l ++ [(BitVec.ofNat 512 (ofBytesLE (bs.take 64)), bad)])

/-- Window writes of the slots that are ready. -/
def sendSlots (p : Nat) (tap : Option Nat) (e : Unit512) (c : Entry) (s : State) : State :=
  let n := c.ready.length
  let s := steWrites p e (c.ready.flatMap fun (d, _) => bytesLE d.toNat 64) s
  let s := sendTile p tap 1 n ((enOffset e + c.sent) % 2048) 0 [] c.ready e s
  modCur p 1 (fun c => { c with
    sent := c.sent + n, moved := c.moved + 64 * n, ready := []
    poisoned := c.poisoned + (c.ready.filter (·.2)).length }) s

/-- H2T: eight slots, or the last of them, make a packet; then the next line is asked for. -/
def h2tGo (p : Nat) (e : Unit512) (c : Entry) (s : State) : State :=
  let full := decide (c.ready.length = 8 ∨ c.sent + c.ready.length ≥ enSlots e)
  match entryGate s p none with
  | .stop st => endMoved p st e c s
  | .wait => s
  | .go =>
    let s := if full ∧ c.ready ≠ [] then sendSlots p none e c s else s
    match openEntry s p 1 with
    | none => s
    | some (_, _, c) =>
      if c.sent ≥ enSlots e then sentAll p e s
      else askHost p (64 * (c.sent + c.ready.length) + c.buf.length) e c s

/-- The spine that issues the packets of an entry between stacks and tiles: that of the tile's die (R232). -/
def tileTap (s : State) (e : Unit512) : Option Nat := some (tileDie s (enX e) (enY e))

/-- One packet of an S2T: up to eight slots read once no host holds their lines, issued by the spine of the tile's die. -/
def s2tOne (p : Nat) (e : Unit512) (s : State) : State :=
  match openEntry s p 1 with
  | none => s
  | some (_, _, c) =>
    let n := min 8 (enSlots e - c.sent)
    match n, entryGate s p (tileTap s e) with
    | 0, _ => s
    | _, .go =>
      match fetched p (enSaddr e + 64 * c.sent) (64 * n) s with
      | (s, false) => s
      | (s, true) => match openEntry s p 1 with
        | none => s
        | some (_, _, c) =>
          let bs := rbufBytes c
          let slots := (List.range n).map fun k =>
            (BitVec.ofNat 512 (ofBytesLE (slice bs (64 * k) 64)), badAt (64 * k) 64 0 c.rbuf)
          let c := { c with ready := slots, rbuf := [], poison := c.poison || slots.any (·.2) }
          sendSlots p (tileTap s e) e c (modCur p 1 (fun _ => c) (steReads p e bs s))
    | _, _ => s

/-- S2T: packet after packet, as the data come. -/
def s2tGo (p : Nat) (e : Unit512) (c : Entry) (s : State) : State :=
  match tileGate (getPart s p) with
  | .stop st => endMoved p st e c s
  | .wait => s
  | .go =>
    let s := Nat.repeat (s2tOne p e) 256 s
    match openEntry s p 1 with
    | some (_, _, c) => if c.sent ≥ enSlots e then sentAll p e s else s
    | none => s

/-- The next MREAD of a T2H or T2S: up to eight slots (R211). The spine of the tile's die reads for a T2S (R232). -/
def readTile (p : Nat) (e : Unit512) (c : Entry) (s : State) : State :=
  let n := min 8 (enSlots e - c.sent)
  let tap := if enOp e = 0x17 then tileTap s e else none
  match entryGate s p tap with
  | .stop st => endMoved p st e c s
  | .wait => s
  | .go =>
    let s := sendTile p tap 2 n ((enOffset e + c.sent) % 2048) 0 (returnRoute s tap.isSome (enX e) (enY e)) [] e s
    modCur p 1 (fun c => { c with sent := c.sent + n }) s

/-- T2H and T2S: slots that have come go to their destination; then the next slots are read. -/
def t2xGo (p : Nat) (e : Unit512) (c : Entry) (s : State) : State :=
  if c.moved ≥ 64 * enSlots e then endMoved p 0 e c s
  else if c.buf ≠ [] then
    if enOp e = 0x16 then
      let a := enHaddr e + c.place
      giveHost p c.place (c.buf.take (64 - a % 64)) e c s
    else
      let pa := enSaddr e + c.place
      let (s, free) := untracked p pa c.buf.length s
      if !free then s
      else
        let s := (c.ready.zipIdx).foldl (fun s ((d, bad), k) => writePa p (pa + 64 * k) (bytesLE d.toNat 64) bad c.wecc s) s
        let s := steWrites p e c.buf s
        let c := { c with moved := c.moved + c.buf.length, buf := [], ready := [] }
        let s := modCur p 1 (fun _ => c) s
        if c.moved ≥ 64 * enSlots e then endMoved p 0 e c s else readTile p e c s
  else if 64 * c.sent > c.moved then s
  else readTile p e c s

/-- TCMD: a FILL first takes its pattern from the host; then the command goes out (R356). -/
def tcmdGo (p : Nat) (e : Unit512) (c : Entry) (s : State) : State :=
  let fill := decide (bOp (BitVec.ofNat 64 (enDaddr e)) = 1)
  match entryGate s p none with
  | .stop st => endMoved p st e c s
  | .wait => s
  | .go =>
    if c.packets > 0 then s
    else if fill ∧ c.buf.length < 64 then askHost p c.buf.length e c s
    else
      let pay := if fill then [(BitVec.ofNat 512 (ofBytesLE (c.buf.take 64)), c.bufPoison)] else []
      let s := steWrites p e (if fill then c.buf.take 64 else []) s
      sentAll p e (sendTile p none 3 pay.length 0 (enDaddr e) [] pay e s)

/-- The open, started entry of the stream engine goes on, unless it waits for a response of the host. -/
def streamGo (p : Nat) (s : State) : State :=
  match openEntry s p 1 with
  | none => s
  | some (_, e, c) =>
    if !c.started ∨ c.asked.isSome then s
    else match enOp e with
      | 0x10 | 0x13 => pullGo p e c s
      | 0x11 => pushGo p e c s
      | 0x12 => copyGo p e s
      | 0x14 => if c.sent ≥ enSlots e then s else h2tGo p e c s
      | 0x15 => if c.sent ≥ enSlots e then s else s2tGo p e c s
      | 0x16 | 0x17 => t2xGo p e c s
      | 0x18 => tcmdGo p e c s
      | _ => s

/-- A piece of stack memory that the stream engine reads has come. -/
def engineData (p no : Nat) (bs : List Byte) (bad : Bool) (s : State) : State :=
  match openEntry s p 1 with
  | some (_, _, c) =>
    if c.reading = some no then
      streamGo p (modCur p 1 (fun c => { c with reading := none, rbuf := c.rbuf ++ [(bs, bad)] }) s)
    else s
  | none => s

/-- The open entry of the stream engine goes on, with what the code finds in the read step of the partial writes that this lets
happen (R243). -/
def streamWith (e : Ecc) (p : Nat) (s : State) : State :=
  modCur p 1 (fun c => { c with wecc := .clean }) (streamGo p (modCur p 1 (fun c => { c with wecc := e }) s))

/-- COUNT of the arrival counter a CONFIRM entry names, or none when the counter is linked (R170, R356). -/
def confirmCount (s : State) (e : Unit512) : Option Nat :=
  let a := mget {} (tileNow s (enX e) (enY e)).mu.acnt (enAcnt e)
  if a.quantum = 0 then some a.count.toNat else none

/-- An entry of an operation code starts, or goes on where it had to wait: a tile entry under its gate, a CONFIRM entry after
the first read of its counter. -/
def streamEntry (op p : Nat) (s : State) : Out :=
  match openEntry s p 1 with
  | none => .next s
  | some (_, e, c) =>
    if enOp e ≠ op then .next s
    else if c.started then .next (streamGo p s)
    else
      let begin_ := fun (s : State) =>
        let conf := enConfirm e && decide (op = 0x14 ∨ op = 0x15 ∨ op = 0x18)
        let s := modCur p 1 (fun c => { c with started := true, base := if conf then confirmCount s e else none }) s
        if conf ∧ (confirmCount s e).isNone then endMoved p 0x404 e c s else streamGo p s
      if tileEntry e then
        match tileGate (getPart s p) with
        | .stop st => .next (endMoved p st e c s)
        | .wait => .next s
        | .go => .next (begin_ s)
      else .next (begin_ s)

end Sys2Proof.Machine
end

