-- ==== Sys2Proof/Machine/Stack.lean ====
section
/-!
DEFINITION. Machine/Stack: the meanings of the commands of stack memory and the spine (R223-R246, R331, R332).
-/
namespace Sys2Proof.Machine

/-! ## CXL.mem (R330-R332) -/

/-- The partition address a host address reaches through a port's committed decoder (R330). -/
def hostAddr (s : State) (o hpa : Nat) : Option (Nat × Nat) :=
  let q := getPort s o
  match partOfPort s o with
  | none => none
  | some p => if q.committed ∧ q.memActive ∧ q.hdmBase ≤ hpa ∧ hpa < q.hdmBase + q.hdmSize then some (p, hpa - q.hdmBase)
              else none

/-- STACK_RANGE of a request outside the port's window (R332). -/
def portRange (s : State) (o hpa : Nat) : State := sageEvent s .stackRange o hpa (partOfPort s o)

/-- A port answers its host. -/
def portOut (o : Nat) (x : HostOut) (s : State) : State := modPort s o fun q => { q with out := q.out ++ [x] }

/-- The die of a device address answers: its die column is in service and the stack of its slice is up (R332). -/
def dieServes (s : State) (da : Nat) : Bool :=
  let n := da / 2 ^ 37
  !s.boot.dead.contains (n / 6) && sliceUp (getSpine s n) (sliceOf (da % 2 ^ 37))

/-- A host's read of the line at a host address goes to the spine, its line into the filter when a copy is granted. A full
filter first gives up its oldest line, and the read waits (R331). -/
def hostRead (o hpa : Nat) (cached : Bool) (s : State) : State :=
  let line := hpa - hpa % 64
  match hostAddr s o hpa with
  | none => portOut o (.memData line 0 true) (portRange s o hpa)
  | some (p, pa) =>
    let da := paToDa (getPart s p) (pa - pa % 64)
    let n := da / 2 ^ 37
    let q := getPort s o
    let new := cached && !q.filter.contains (pa / 64)
    if !dieServes s da then portOut o (.memData line 0 true) s
    else if new ∧ q.filter.length ≥ 2 ^ 21 then
      snoopLines o (q.filter.take 1) (modPort s o fun q => { q with heldReads := q.heldReads ++ [hpa] })
    else
      let s := if new then modPort s o fun q => { q with filter := q.filter ++ [pa / 64] } else s
      arriveRead n ((da % 2 ^ 37) / 256) (ringArrival s n) (.host o line cached (da % 256)) s

/-- CXL_MEM_READ (R230, R237, R238, R331, R332): a host reads the line at a host address, with or without a cached copy. -/
def execCxlMemRead (port : Fin 4) (hpa : Nat) (cached : Bool) (s : State) : Out := .next (hostRead port.val hpa cached s)

/-- The bytes of a line selected by a mask, as runs from the lowest. -/
def maskedBytes (old new : Unit512) (mask : Nat) : Unit512 :=
  BitVec.ofNat 512 (joinElems 8 ((List.range 64).map fun i =>
    if bit mask i then elem new.toNat 8 i else elem old.toNat 8 i))

/-- CXL_MEM_WRITE (R236, R243, R244, R332): a host writes a line, or bytes of it. -/
def execCxlMemWrite (port : Fin 4) (w : HostWrite) (s : State) : Out :=
  let o := port.val
  let line := w.hpa - w.hpa % 64
  match hostAddr s o w.hpa with
  | none => .next (portOut o (.memDone line) (portRange s o w.hpa))
  | some (p, pa) =>
    let pa := pa - pa % 64
    let da := paToDa (getPart s p) pa
    let n := da / 2 ^ 37
    if !dieServes s da then .next (portOut o (.memDone line) s)
    else
      let full := decide (w.mask = BitVec.allOnes 64)
      let s := foldLine p 0 pa w.data (serveWrite da (ringArrival s n) full s)
      let s := if full then writeChunk da w.data w.poison s
        else
          let (old, marked) := readChunk s da
          let s := writePart da 0 [] (w.poison || marked) w.e (0x10 + o) s
          if !marked && decide (w.e = .double) then s
          else { s with stk := { s.stk with
            mem := memPut s.stk.mem da (bytesLE (maskedBytes old w.data w.mask.toNat).toNat 64) } }
      .next (portOut o (.memDone line) s)

/-! ## DRAM reads -/

/-- The first read of a slice that has not returned, and the rest of the list with it marked returned. -/
def takeRead : List DramRead → Option (DramRead × List DramRead)
  | [] => none
  | r :: rest => if r.returned then (takeRead rest).map fun (a, b) => (a, r :: b)
    else some (r, { r with returned := true } :: rest)

/-- What the code finds in chunk k of a granule. -/
def eccAt (e : ChunkEcc) (k : Nat) : Ecc :=
  match k with
  | 0 => e.c0 | 1 => e.c1 | 2 => e.c2 | _ => e.c3

/-- A number for a requester in the DETAIL of an event: 0x10 + port for a host, 0x20 + k for a stack stream, the ISSUER code of
a stream engine. -/
def readerCode (s : State) : Reader → Nat
  | .host o _ _ _ => 0x10 + o
  | .stream k _ => 0x20 + k
  | .engine p _ _ _ => streamIssuer (getPart s p).port

/-- A stack stream of a section reads. -/
def sectionReads : Reader → Bool
  | .stream _ _ => true
  | _ => false

/-- The requester an event names: a section's stream when one has joined the read (R300), else the first. -/
def namedReader (r : DramRead) : Option Reader := (r.joins.find? sectionReads).or r.joins.head?

/-- A chunk of a returning read is checked (R242, R243): the state, and whether the chunk is poisoned. -/
def checkChunk (n sl : Nat) (r : DramRead) (e : ChunkEcc) (k : Nat) (s : State) : State × Bool :=
  let da := devAddr n (256 * r.granule + 64 * k)
  if bit r.poison.toNat k then (spineBump n 0x48 1 s, true)
  else match eccAt e k with
    | .clean => (s, false)
    | .single =>
      let again := mget false s.stk.corrected (da / 64)
      let s := spineEvent n .stackCorrected sl da (spineBump n 0x38 1 s)
      let s := if again then spineEvent n .stackRepeat sl da s else s
      (if r.joinable then { s with stk := { s.stk with corrected := mset false s.stk.corrected (da / 64) true } } else s,
       false)
    | .double =>
      let who := ((namedReader r).map (readerCode s)).getD 0
      let s := spineEvent n .stackUncorrected sl (da + who <<< 48) (spineBump n 0x40 1 s)
      ({ s with stk := { s.stk with poison := mset false s.stk.poison (da / 64) true } }, true)

/-- Data of a read reaches one of the reads joined to it. -/
def deliverRead (n : Nat) (data : BitVec 2048) (poison : Nat) (rd : Reader) (s : State) : State :=
  match rd with
  | .host o hpa _ ofs =>
    let d := BitVec.ofNat 512 (fld data.toNat (8 * (ofs - ofs % 64)) 512)
    let s := match hostAddr s o hpa with
      | some (p, pa) => foldLine p 1 pa d s
      | none => s
    portOut o (.memData hpa d (bit poison (ofs / 64))) s
  | .stream k idx =>
    modSpine s n fun sp => { sp with streams := sp.streams.map fun (i, t) =>
      if i = k then (i, { t with ready := t.ready ++ [(idx, data, BitVec.ofNat 4 poison)] }) else (i, t) }
  | .engine p no ofs len =>
    let bs := slice (bytesLE data.toNat 256) ofs len
    engineData p no bs (bit poison (ofs / 64)) s

/-- The stream engines that a read serves take what the code finds in the partial writes it lets happen. -/
def setWecc (e : Ecc) (l : List Reader) (s : State) : State :=
  l.foldl (fun s rd => match rd with
    | .engine p _ _ _ => modCur p 1 (fun c => { c with wecc := e }) s
    | _ => s) s

/-- DRAM_READ_RETURN (R237, R238, R242, R243): the oldest read of a slice returns at the spine and reaches every read
joined to it; a stream engine that goes on with it meets in its partial writes what the code finds there. -/
def execDramReadReturn (d : Fin 48) (sl : Fin 64) (e : ChunkEcc) (s : State) : Out :=
  match takeRead (mget [] (getSpine s d.val).reads sl.val) with
  | none => .next s
  | some (r, l) =>
    let s := advanceTo s (max s.cycle r.due)
    let (s, ps) := (List.range 4).foldl (fun (s, ps) k =>
      let (s, p) := checkChunk d.val sl.val r e k s
      (s, ps ++ [(b2n p, 1)])) (s, ([] : List (Nat × Nat)))
    let s := modSpine s d.val fun sp => { sp with reads := mset [] sp.reads sl.val (freeEntries s.cycle l) }
    let s := r.joins.foldl (fun s rd => deliverRead d.val r.data (packFields ps) rd s) (setWecc e.w r.joins s)
    .next (setWecc .clean r.joins s)

/-- MERGE_ENTRY_EXPIRY (R238): the window of the oldest entry that has delivered its data ends, and the entry frees. -/
def execMergeEntryExpiry (d : Fin 48) (sl : Fin 64) (s : State) : Out :=
  let l := mget [] (getSpine s d.val).reads sl.val
  match (l.filter fun r => r.entry && r.returned).head? with
  | none => .next s
  | some r =>
    let s := advanceTo s (max s.cycle (r.opened + 64))
    .next (modSpine s d.val fun sp => { sp with reads := mset [] sp.reads sl.val (freeEntries s.cycle l) })

/-! ## Refresh and scrub (R239, R241) -/

/-- Patrol scrub of one slice of a die reads two granules in offset order. -/
def scrubDie (sl n : Nat) (s : State) : State :=
  if sliceUp (getSpine s n) sl then
    spineBump n 0x58 2 (modSpine s n fun sp =>
      { sp with scrub := mmod 0 sp.scrub sl fun g => (g + 2) % 8388608 })
  else s

/-- A chunk that scrub finds in error is treated as a read would treat it (R242, R243): it lies in one of the two granules that
the window has just read. -/
def scrubFind (sl : Nat) (f : ScrubFind) (s : State) : State :=
  let a := 64 * f.chunk
  let g := sliceOffset a / 256
  let pos := mget 0 (getSpine s f.die).scrub sl
  if sliceOf a ≠ sl ∨ f.die ≥ 48 ∨ !sliceUp (getSpine s f.die) sl
      ∨ ¬ ((g + 1) % 8388608 = pos ∨ (g + 2) % 8388608 = pos) then s
  else
    let r : DramRead := { granule := a / 256, opened := 0, entry := false, joinable := true, joins := [], data := 0
                          poison := 0, due := 0 }
    let ck := fun k => if k = f.chunk % 4 then f.e else .clean
    if mget false s.stk.poison (devAddr f.die a / 64) then s
    else (checkChunk f.die sl r { c0 := ck 0, c1 := ck 1, c2 := ck 2, c3 := ck 3, w := .clean } (f.chunk % 4) s).1

/-- REFRESH_PHASE (R239, R241): the calendar passes to the next slice of each die, whose window scrubs two granules. -/
def execRefreshPhase (e : List ScrubFind) (s : State) : Out :=
  let s := advanceTo s (s.cycle + (110 - s.cycle % 110))
  let sl := (s.cycle % 7040) / 110
  let s := (List.range 48).foldl (fun s n => scrubDie sl n s) s
  .next (e.foldl (fun s f => scrubFind sl f s) s)

/-! ## Stack streams (R233-R235) -/

/-- Granules a stream may have read and not yet sent. -/
abbrev streamDepth : Nat := 16

/-- A stream reads its next granule, unless a host holds a line of it; then the port snoops the line (R331). -/
def streamRead (p n k : Nat) (s : State) : State :=
  match mget none ((getSpine s n).streams.map fun (i, t) => (i, some t)) k with
  | none => s
  | some t =>
    if t.read ≥ t.count ∨ t.read ≥ t.sent + streamDepth then s
    else
      let q := getPart s p
      let da := devAddr n (256 * (t.first + t.read))
      let held := trackedLines s p (daToPa q da) 256
      if held ≠ [] then snoopLines q.port held s
      else
        let s := modSpine s n fun sp => { sp with streams := sp.streams.map fun (i, t) =>
          if i = k then (i, { t with read := t.read + 1 }) else (i, t) }
        arriveRead n (t.first + t.read) s.cycle (.stream k t.read) s

/-- The stream of a spine by its index in the table. -/
def getStream (s : State) (n k : Nat) : Option StackStream :=
  ((getSpine s n).streams.find? fun (i, _) => decide (i = k)).map (·.2)

/-- Update a stream. -/
def modStream (n k : Nat) (f : StackStream → StackStream) (s : State) : State :=
  modSpine s n fun sp => { sp with streams := sp.streams.map fun (i, t) => if i = k then (i, f t) else (i, t) }

/-- STACK_STREAM_START (R233): a stream of the running section reaches its start cycle and begins to read its run. -/
def execStackStreamStart (d : Fin 48) (k : Fin 64) (s : State) : Out :=
  match getStream s d.val k.val, partOfDie s d.val with
  | some t, some p =>
    if t.started ∨ t.stopped ∨ (getPart s p).st ≠ .running then .next s
    else
      let s := advanceTo s (max s.cycle t.start)
      let s := modStream d.val k.val (fun t => { t with started := true }) s
      .next ((List.range streamDepth).foldl (fun s _ => streamRead p d.val k.val s) s)
  | _, _ => .next s

/-- STACK_STREAM_PACKET (R233-R235): the spine sends the next granule of the run as one WWRITE of four slots, and reads on. A
granule whose offsets wrap at the window's LEN leaves as two packets (DESIGN CHOICE, notes/assumptions/58). -/
def execStackStreamPacket (d : Fin 48) (k : Fin 64) (s : State) : Out :=
  match getStream s d.val k.val, partOfDie s d.val with
  | some t, some p =>
    let q := getPart s p
    match t.ready.find? fun r => decide (r.1 = t.sent) with
    | none => .next (if t.started ∧ !t.stopped ∧ q.st = .running then streamRead p d.val k.val s else s)
    | some (_, data, poison) =>
      if t.stopped ∨ q.st ≠ .running ∨ q.suspended ∨ q.wave.isSome ∨ !mayIssue s (streamIssuer q.port) (some d.val) (0x8000 + k.val)
      then .next s
      else
        let len := wLen (mget 0 (getTile s t.x t.y).mu.win t.win)
        let run := t.ofs + 4 * t.sent + t.part
        let ofs := if len = 0 then run else run % len
        let n := if len = 0 then 4 - t.part else min (4 - t.part) (len - ofs)
        let h : Hdr := { kind := 1, dx := t.x, dy := t.y, tag := 0x8000 + k.val, npay := n, win := t.win, offset := ofs
                         issuer := streamIssuer q.port }
        let pay := (List.range n).map fun i =>
          (BitVec.ofNat 512 (fld data.toNat (512 * (t.part + i)) 512), bit poison.toNat (t.part + i))
        let s := issuePacket p (some d.val) h pay s
        let s := modStream d.val k.val (fun t =>
          if t.part + n < 4 then { t with part := t.part + n }
          else { t with sent := t.sent + 1, part := 0, ready := t.ready.filter fun r => decide (r.1 ≠ t.sent) }) s
        .next (streamRead p d.val k.val s)
  | _, _ => .next s

end Sys2Proof.Machine
end

