-- ==== Sys2Proof/Machine/Engines.lean ====
section
/-!
DEFINITION. Machine/Engines: the meanings of the commands of list queues, the stream engine and the check engine (R211, R331,
R333, R351-R359).
-/
namespace Sys2Proof.Machine

/-! ## Lists (R351, R352, R358) -/

/-- LIST_START (R295, R351, R352): the head list of an engine starts once its dependency has completed. While the event latch
holds a FATAL record the device is out of service, and what is pending completes with that record's code. -/
def execListStart (p : Fin 4) (eng : Engine) (s : State) : Out :=
  let n := engNum eng
  let g := getEng (getPart s p.val) n
  match g.lists with
  | [] => .next s
  | l :: rest =>
    if l.started ∨ l.dep.isSome ∨ g.held.length ≥ 16 then .next s
    else match s.boot.event with
    | some r => .next (flushEngine p.val n (recCode r) s)
    | none => .next (modEngine p.val n (fun g => { g with lists := { l with started := true } :: rest, cur := beginEntry l }) s)

/-- ENTRY_COMPLETE (R353, R358, R362, R364): the ended entry of an engine writes its record, and its list goes on; an engine
whose link is down pauses at 16 held records. A DRAIN that waited for the queues goes on. -/
def execEntryComplete (p : Fin 4) (eng : Engine) (s : State) : Out :=
  let n := engNum eng
  let g := getEng (getPart s p.val) n
  if g.held.length ≥ 16 ∧ !(getPort s (getPart s p.val).port).up then .next s
  else .next (detachAll (retireEntry p.val n s))

/-! ## Stream engine entries (R355, R356) -/

/-- H2S (R355): host memory to stack memory. -/
def execH2s (p : Fin 4) (s : State) : Out := streamEntry 0x10 p.val s

/-- S2H (R355): stack memory to host memory. -/
def execS2h (p : Fin 4) (s : State) : Out := streamEntry 0x11 p.val s

/-- S2S (R355): stack memory to stack memory. -/
def execS2s (p : Fin 4) (s : State) : Out := streamEntry 0x12 p.val s

/-- IMG (R355): host memory to the image store of a die. -/
def execImg (p : Fin 4) (s : State) : Out := streamEntry 0x13 p.val s

/-- H2T (R356): host memory to a window of a tile. -/
def execH2t (p : Fin 4) (s : State) : Out := streamEntry 0x14 p.val s

/-- S2T (R356): stack memory to a window of a tile. -/
def execS2t (p : Fin 4) (s : State) : Out := streamEntry 0x15 p.val s

/-- T2H (R356): slots of a tile to host memory. -/
def execT2h (p : Fin 4) (s : State) : Out := streamEntry 0x16 p.val s

/-- T2S (R356): slots of a tile to stack memory. -/
def execT2s (p : Fin 4) (s : State) : Out := streamEntry 0x17 p.val s

/-- TCMD (R356): an MU command to a tile. -/
def execTcmd (p : Fin 4) (s : State) : Out := streamEntry 0x18 p.val s

/-- The oldest response for a partition's stream engine or for the Array engine's work on it, and the others. -/
def takeResp (issuer tag : Nat) : List Packet → Option (Packet × List Packet)
  | [] => none
  | k :: rest =>
    if (k.by_ = issuer ∨ k.by_ = 6) ∧ hTag k.header = tag then some (k, rest)
    else (takeResp issuer tag rest).map fun (a, b) => (a, k :: b)

/-- Slots of a response reach the entry that asked for them, at the place that OFFSET gives (R215, R356). -/
def respSlots (p : Nat) (k : Packet) (e : Ecc) (s : State) : State :=
  match openEntry s p 1 with
  | none => s
  | some (_, en, c) =>
    if c.started ∧ (enOp en = 0x16 ∨ enOp en = 0x17) ∧ c.buf = [] ∧ 64 * c.sent > c.moved then
      let bs := k.payload.flatMap fun (d, _) => bytesLE d.toNat 64
      let bad := (k.payload.filter (·.2)).length
      let s := steReads p en bs s
      let s := modCur p 1 (fun c => { c with
        buf := bs, ready := k.payload, place := 64 * ((hOffset k.header + 2048 - enOffset en) % 2048)
        poison := c.poison || decide (bad > 0), poisoned := c.poisoned + bad }) s
      streamWith e p s
    else s

/-- RESP (R211, R214, R356): the oldest response for the partition reaches its issuer, the stream engine or the Array engine;
one that answers no outstanding read is dropped. -/
def execResp (a : RespTake) (s : State) : Out :=
  match takeResp (streamIssuer (getPart s a.part.val).port) a.part.val s.resps with
  | none => .next s
  | some (k, rest) =>
    let s := { advanceTo s (max s.cycle k.ready) with resps := rest }
    match s.asked.find? (answers k) with
    | none => .next s
    | some r =>
      let s := { s with asked := s.asked.erase r }
      .next (if k.by_ = 6 then respArray a.part.val k r s else respSlots a.part.val k a.w s)

/-- Cycles of 10 microseconds, 1 ms and 50 ms. -/
abbrev pollCycles : Nat := 18000
abbrev entryCycles : Nat := 1800000
abbrev cacheCycles : Nat := 90000000

/-- The open entry of the stream engine, when it is a started tile entry all of whose packets have left. -/
def sentEntry (s : State) (p : Nat) : Option (Unit512 × Entry) :=
  match openEntry s p 1 with
  | some (_, e, c) =>
    let all := if enOp e = 0x18 then decide (c.packets > 0) else decide (c.sent ≥ enSlots e)
    if c.started ∧ tileEntry e ∧ all then some (e, c) else none
  | none => none

/-- CONFIRM_POLL (R356): Sage reads the counter every 10 microseconds; the entry completes when COUNT has grown enough. -/
def execConfirmPoll (p : Fin 4) (s : State) : Out :=
  match sentEntry s p.val with
  | none => .next s
  | some (e, c) =>
    match c.base with
    | none => .next s
    | some base =>
      let s := advanceTo s (max s.cycle (c.polled + pollCycles))
      let s := modCur p.val 1 (fun c => { c with polled := s.cycle }) s
      let need := if enOp e = 0x18 then bCount (BitVec.ofNat 64 (enDaddr e)) else enSlots e
      match confirmCount s e with
      | none => .next (endMoved p.val 0x404 e c s)
      | some n => if n ≥ base + need then .next (endMoved p.val 0 e c s) else .next s

/-- ENTRY_TIMEOUT (R356): 1 ms after its last packet an open tile entry completes with COMPLETION_TIMEOUT. -/
def execEntryTimeout (p : Fin 4) (s : State) : Out :=
  match sentEntry s p.val with
  | none => .next s
  | some (_, c) =>
    let s := advanceTo s (max s.cycle (c.lastSent.getD s.cycle + entryCycles))
    .next (endEntry p.val 1 (evNum .completionTimeout) 2 0 (sageEvent s .completionTimeout 2 0 (some p.val)))

/-! ## CXL.cache (R333) -/

/-- Bytes of a host line have come (R333): they join the entry, with their poison. -/
def takeLine (p : Nat) (d : Unit512) (bad : Bool) (w : Ecc) (e : Unit512) (c : Entry) (s : State) : State :=
  let bs := slice (bytesLE d.toNat 64) (c.reqAddr % 64) c.reqLen
  let s := steReads p e bs s
  let c := { c with asked := none, poison := c.poison || bad }
  let all := c.buf ++ bs
  let c :=
    if enOp e = 0x14 then
      let (l, rest) := gather 2 all (c.bufPoison || bad) []
      { c with ready := c.ready ++ l, buf := rest
               bufPoison := if l = [] then c.bufPoison || bad else bad && decide (rest ≠ []) }
    else { c with buf := all, bufPoison := c.bufPoison || bad }
  streamWith w p (modCur p 1 (fun _ => c) s)

/-- CXL_CACHE_RESPONSE (R333): the line of a read, the end of a write, or an error, which ends the entry with HOST_ACCESS. -/
def execCxlCacheResponse (p : Fin 4) (r : CacheResp) (s : State) : Out :=
  match openEntry s p.val 1 with
  | none => .next s
  | some (_, e, c) =>
    let write := decide (enOp e = 0x11 ∨ enOp e = 0x16)
    if c.asked.isNone then .next s
    else match r with
      | .error =>
        .next (endMoved p.val 0x403 e c (modCur p.val 1 (fun c => { c with asked := none }) s))
      | .data d bad w => if write then .next s else .next (takeLine p.val d bad w e c s)
      | .done =>
        if !write then .next s
        else
          let s := steWrites p.val e (c.buf.take c.reqLen) s
          let c := { c with asked := none, moved := c.moved + c.reqLen, place := c.place + c.reqLen, buf := c.buf.drop c.reqLen }
          .next (streamGo p.val (modCur p.val 1 (fun _ => c) s))

/-- CXL_CACHE_TIMEOUT (R333): no response within 50 ms ends the entry with COMPLETION_TIMEOUT, DETAIL0 = 1. -/
def execCxlCacheTimeout (p : Fin 4) (s : State) : Out :=
  match openEntry s p.val 1 with
  | none => .next s
  | some (_, _, c) =>
    match c.asked with
    | none => .next s
    | some t =>
      let s := advanceTo s (max s.cycle (t + cacheCycles))
      let s := modCur p.val 1 (fun c => { c with asked := none }) s
      .next (endEntry p.val 1 (evNum .completionTimeout) 1 c.reqAddr (sageEvent s .completionTimeout 1 c.reqAddr (some p.val)))

/-! ## Check engine (R357) -/

/-- ARM (R357): a channel takes its source and algorithm; an armed one completes the entry with CHANNEL_BUSY. -/
def execArm (p : Fin 4) (s : State) : Out :=
  match entryOf s p.val 2 0x20 false with
  | none => .next s
  | some (_, e, _) =>
    let w := e.toNat
    let k := fld w 64 2
    let s := modCur p.val 2 (fun c => { c with started := true }) s
    if (mget {} (getPart s p.val).chan k).armed then .next (endEntry p.val 2 0x405 0 0 s)
    else
      let c : Chan := { armed := true, alg := BitVec.ofNat 2 (fld w 66 2), src := BitVec.ofNat 3 (fld w 68 3)
                        lo := fld w 128 64, hi := fld w 192 64, acc := BitVec.ofNat 64 (chanStart (fld w 66 2)) }
      .next (endEntry p.val 2 0 0 0 (modPart s p.val fun q => { q with chan := mset {} q.chan k c }))

/-- DISARM (R357): the result and the bytes folded; CKE_RES keeps the result. -/
def execDisarm (p : Fin 4) (s : State) : Out :=
  match entryOf s p.val 2 0x21 false with
  | none => .next s
  | some (_, e, _) =>
    let k := fld e.toNat 64 2
    let s := modCur p.val 2 (fun c => { c with started := true }) s
    let c := mget {} (getPart s p.val).chan k
    let s := modPart s p.val fun q => { q with chan := mset {} q.chan k { c with armed := false } }
    .next (endEntry p.val 2 0 (chanResult c) c.bytes s)

/-! ## Back-invalidate (R331) -/

/-- BIRSP (R331): the host answers a snoop; data it writes back is written first, the line leaves the filter, and what waited
for it goes on: the stream engine, and a host's read that waited for a place in the filter. -/
def execBirsp (port : Fin 4) (line : Nat) (wb : WriteBack) (s : State) : Out :=
  let o := port.val
  if !(getPort s o).snoops.contains line then .next s
  else
    let part := partOfPort s o
    let s := match wb.data, part with
      | some d, some p =>
        let da := paToDa (getPart s p) (64 * line)
        if stackServes s da then writeChunk da d false (serveWrite da (ringArrival s (da / 2 ^ 37)) true s) else s
      | _, _ => s
    let s := modPort s o fun q => { q with filter := q.filter.filter (fun a => a != line)
                                           snoops := q.snoops.filter (fun a => a != line) }
    let s := match (getPort s o).heldReads with
      | hpa :: rest => hostRead o hpa true (modPort s o fun q => { q with heldReads := rest })
      | [] => s
    let s := match part with
      | some p => streamWith wb.w p s
      | none => s
    .next (detachAll s)

end Sys2Proof.Machine
end

