-- ==== Sys2Proof/Machine/Fabric.lean ====
section
/-!
DEFINITION. Machine/Fabric: the meanings of the commands of frets, strings, packets and bridges (R187-R213).
-/
namespace Sys2Proof.Machine

/-- FLIT_HOP (R197-R201, R213, R265): the flit at the head of a fret input is forwarded, padded, delivered, or dropped. -/
def execFlitHop (t : TileId) (i : FlitIn) (u : Upset) (s : State) : Out :=
  onTile t s fun s => if fretOn s t.x t.y then hopFlit t.x t.y (inputNum i) u s else s

/-- Cycles from which the flits at the heads of a fret's course-5 ports have been eligible on a link output, but for its
grant (R199): the packet may own the course, and a hop credit is there. -/
def course5From (s : State) (x y d : Nat) : List Nat :=
  let t := getTile s x y
  if (linkTo s x y d).isNone ∨ mget 0 t.fret.used (8 * d + 5) ≥ 8 then [] else
  (List.range 5).filterMap fun port => match mget [] t.fret.pkts port with
    | g :: _ => if (flitWay s x y port g).1 = .link d ∧ mayOwn t d port then
        some (max (max g.ready (mget 0 t.fret.pktAt port)) (mget 0 t.fret.c5Since d)) else none
    | [] => none

/-- COURSE5_AGED (R199): a course-5 flit that has been eligible for 16 cycles goes before the strings of its output. -/
def execCourse5Aged (t : TileId) (d : Dir) (s : State) : Out :=
  onTile t s fun s =>
    let k := dirNum d
    match leastOf (course5From s t.x t.y k) with
    | none => s
    | some r => modTile (advanceTo s (max s.cycle (r + 16))) t.x t.y fun tl =>
        { tl with fret := { tl.fret with c5Aged := mset false tl.fret.c5Aged k true } }

/-- Remove one occurrence of a number. -/
def removeOne (n : Nat) : List Nat → List Nat
  | [] => []
  | a :: as => if a = n then as else a :: removeOne n as

/-- HOP_CREDIT_RETURN (R200): the earliest credit on its way back to a link output lane counts again. -/
def execHopCreditReturn (t : TileId) (d : Dir) (lane : Fin 7) (s : State) : Out :=
  onTile t s fun s =>
    let k := 8 * dirNum d + lane.val
    let s := match neighbour s t.x t.y (dirNum d) with
      | some (x2, y2) => settleInput x2 y2 (8 * oppDir (dirNum d) + lane.val) s.cycle s
      | none => s
    let q := mget [] (getTile s t.x t.y).fret.credit k
    match leastOf q with
    | none => s
    | some c => modTile (advanceTo s (max s.cycle c)) t.x t.y fun tl => { tl with fret := { tl.fret with
        credit := mset [] tl.fret.credit k (removeOne c q), used := mmod 0 tl.fret.used k (· - 1)
        c5Since := if lane.val = 5 ∧ mget 0 tl.fret.used k = 8 then mmod 0 tl.fret.c5Since (dirNum d) (max (max s.cycle c))
                   else tl.fret.c5Since } }

/-- The first flit of a channel all of whose tokens have been released, and the others. -/
def takeToken (ch : Nat) : List Outst → Option (Outst × List Outst)
  | [] => none
  | o :: rest => if o.ch = ch ∧ o.pending = 0 then some (o, rest)
    else (takeToken ch rest).map fun (a, b) => (a, o :: b)

/-- WINDOW_TOKEN_RETURN (R201): a token reaches the source at the start of its cycle, and the string's window grows by one.
Channel 8 is the scalar string. -/
def execWindowTokenReturn (t : TileId) (ch : Fin 9) (s : State) : Out :=
  onTile t s fun s =>
    match takeToken ch.val (getTile s t.x t.y).fret.outst with
    | none => s
    | some (o, rest) =>
      modTile (advanceTo s (max s.cycle o.due)) t.x t.y fun tl =>
        let tl := closeCycle (o.due - 1) tl
        { tl with fret := { tl.fret with outst := rest, win := mmod 0 tl.fret.win ch.val (· + 1) } }

/-- The lanes of a network on a link port. -/
def netLanes : Net → List Nat
  | .vector => [0, 1, 2, 3, 4]
  | .scalar => [6]
  | .control => []

/-- Number of a network (Table 7.1). -/
def netNum : Net → Nat
  | .vector => 0
  | .scalar => 1
  | .control => 2

/-- The cycle in which the next item on the link to a port arrives. The symbols of the control network are not held in the
state: one is there at once. -/
def nextArrival (t : Tile) (k now : Nat) : Net → Option Nat
  | .control => some now
  | net =>
    let strs := (netLanes net).flatMap fun l => (mget [] t.fret.bufs (8 * k + l)).filterMap fun f =>
      if !f.arr ∧ arrivedAt t (8 * k + l) f ≥ now then some (arrivedAt t (8 * k + l) f) else none
    let pkts := if net = .vector then (mget [] t.fret.pkts k).filterMap fun g =>
      if g.ready ≥ now then some g.ready else none else []
    leastOf (strs ++ pkts)

/-- Delay the items of an input that are still crossing the link. -/
def delayInput (t : Tile) (inp now by_ : Nat) : SMap (List Flit) :=
  mmod [] t.fret.bufs inp fun q => q.map fun f =>
    if !f.arr && decide (arrivedAt t inp f ≥ now) then { f with ready := f.ready + by_ } else f

/-- The items that would arrive at a port from a cycle on arrive later (R204). -/
def delayLink (k : Nat) (net : Net) (now by_ : Nat) (t : Tile) : Tile :=
  let bufs := (netLanes net).foldl (fun b l => delayInput { t with fret := { t.fret with bufs := b } } (8 * k + l) now by_)
    t.fret.bufs
  let pkts := if net = .vector then mmod [] t.fret.pkts k fun q => q.map fun g =>
    if g.ready ≥ now then { g with ready := g.ready + by_ } else g else t.fret.pkts
  { t with fret := { t.fret with bufs := bufs, pkts := pkts } }

/-- A retry request goes back to the sender (R204): what it sends until the request arrives is replayed too, and what it sends
afterwards follows the replay. -/
def replayFrom (d : Nat) (net : Net) (at_ by_ : Nat) (t : Tile) : Tile :=
  if net = .control then t
  else
    let sc := decide (net = .scalar)
    let k := netKey sc d
    let o := if sc then 4 + d else d
    let (u, old) := mget (0, 0) t.fret.retryTo k
    { t with fret := { t.fret with
      outAt := mmod 0 t.fret.outAt o fun c => if c ≤ u then c + old else c
      retryTo := mset (0, 0) t.fret.retryTo k (at_, by_), ackAt := mmod 0 t.fret.ackAt k (· + by_) } }

/-- Failed attempts of the item that arrives at a port in a cycle: the replay of an item arrives when it was due. -/
def attemptsOf (t : Tile) (k : Nat) (net : Net) (a : Nat) : Nat :=
  let (n, due) := mget (0, 0) t.fret.attempts (3 * k + netNum net)
  if due = a ∨ (net = .control ∧ a ≤ due) then n else 0

/-- RETRY_REQUEST (R204, R205): the next item on a link fails its check; it and every item behind it arrive 2h later. Sage
reports a port with more than 64 requests in a tick, once per tick. An item that has failed three attempts meets
LINK_FAIL. -/
def execRetryRequest (t : TileId) (d : Dir) (net : Net) (s : State) : Out :=
  onTile t s fun s =>
    let k := dirNum d
    let tl := getTile s t.x t.y
    match neighbour s t.x t.y k, nextArrival tl k s.cycle net with
    | some (x2, y2), some a =>
      let n := attemptsOf tl k net a
      if n ≥ 3 ∨ bit tl.fret.failed.toNat k then s
      else
        let h := hopLat s t.x t.y x2 y2
        let tick := a / tickCycles
        let prev := mget 0 tl.fret.tickRetries k
        let m := (if prev / 1024 = tick then prev % 1024 else 0) + 1
        let s := modTile (advanceTo s a) t.x t.y fun tl =>
          let tl := delayLink k net a (2 * h) (bump a (.retry k) 1 tl)
          { tl with fret := { tl.fret with
              attempts := mset (0, 0) tl.fret.attempts (3 * k + netNum net) (n + 1, a + 2 * h)
              tickRetries := mset 0 tl.fret.tickRetries k (1024 * tick + min m 1023) } }
        let s := modTile s x2 y2 (replayFrom (oppDir k) net (a + h) (2 * h))
        if m = 65 then
          sageEvent s .linkDegraded k 0 (partOfTile s t.x) none (some (t.x, t.y))
        else s
    | _, _ => s

/-- A port of a fret stops for good (R205). -/
def failPort (x y d : Nat) (s : State) : State :=
  modTile s x y fun t => { t with fret := { t.fret with
    failed := BitVec.ofNat 4 (t.fret.failed.toNat ||| 2 ^ d), failAt := mset 0 t.fret.failAt d s.cycle } }

/-- A link fails (R205): both frets stop forwarding on it, and the fret of the receiving port raises LINK_FAIL. -/
def failLink (x y k : Nat) (s : State) : State :=
  match neighbour s x y k with
  | none => s
  | some (x2, y2) =>
    if bit (getTile s x y).fret.failed.toNat k then s
    else modTile (failPort x2 y2 (oppDir k) (failPort x y k s)) x y (tileEvent s.cycle .linkFail k 0)

/-- LINK_FAIL (R205): the fourth attempt of one item fails, as its replay arrives. -/
def execLinkFail (t : TileId) (d : Dir) (s : State) : Out :=
  onTile t s fun s =>
    let k := dirNum d
    let tl := getTile s t.x t.y
    let dues := ([Net.vector, .scalar, .control].map fun net => mget (0, 0) tl.fret.attempts (3 * k + netNum net)).filterMap
      fun (n, due) => if n ≥ 3 ∧ s.cycle ≤ due then some due else none
    match leastOf dues with
    | none => s
    | some c => failLink t.x t.y k (advanceTo s c)

/-- When no issued packet may enter at a fret, the spine of its die offers the next one of the Array engine's work. -/
def offerPacket (t : TileId) (s : State) : State :=
  match takeIssued s t s.issued, partOfTile s t.x with
  | none, some p => arrayPacket p (dieNum (t.x / gradeWidth s.grade) (t.y / 64)) s
  | _, _ => s

/-- PACKET_HOP (R209, R212, R213): a packet enters the array, is routed one hop, delivered, passed on, or discarded. -/
def execPacketHop (src : PktSrc) (s : State) : Out :=
  match src with
  | .ring t => onTile t s fun s => enterPacket t (offerPacket t s)
  | .fret t port bad => onTile t s fun s =>
    if fretOn s t.x t.y then hopPacket t.x t.y port.val (if bad then upsetNext t.x t.y port.val s else s) else s

/-! ## Bridge wires (R206, R207, R316) -/

/-- Number of a wire group. -/
def wireNum (w : WireGroup) : Nat := (((w.die * 4 + w.edge) * 128 + w.lane) * 2 + b2n w.outward) * 64 + w.group

/-- The wire group exists: 39 groups on each lane and direction of a bridge (Table 7.8). East and west edges have a lane per
logical row, north and south edges one per logical column; an edge of the array has none (R189, R206). -/
def wireExists (s : State) (w : WireGroup) : Bool :=
  let i := w.die / 6
  let j := w.die % 6
  let lanes := if w.edge % 2 = 1 then 64 else colWidth s.grade s.defects i
  let inner := match w.edge with
    | 0 => decide (0 < j)
    | 1 => decide (i < 7)
    | 2 => decide (j < 5)
    | _ => decide (0 < i)
  decide (w.die < 48 ∧ w.edge < 4 ∧ w.lane < lanes ∧ w.group < 39) && inner

/-- No section runs in the band of a die (R207): its partition is past a drain, halted, or absent. -/
def dieQuiet (s : State) (n : Nat) : Bool :=
  match partOfDie s n with
  | none => true
  | some p => decide ((getPart s p).st ≠ .running ∧ (getPart s p).st ≠ .draining)

/-- The die at the other end of a bridge. -/
def acrossBridge (w : WireGroup) : Nat :=
  match w.edge with
  | 0 => w.die - 1
  | 1 => w.die + 6
  | 2 => w.die + 1
  | _ => w.die - 6

/-- The tile of a die at a lane of its edge, as a logical coordinate. -/
def laneTile (s : State) (w : WireGroup) : Nat × Nat :=
  let x0 := gradeWidth s.grade * (w.die / 6)
  let y0 := 64 * (w.die % 6)
  match w.edge with
  | 0 => (x0 + w.lane, y0)
  | 1 => (x0 + (colWidth s.grade s.defects (w.die / 6) - 1), y0 + w.lane)
  | 2 => (x0 + w.lane, y0 + 63)
  | _ => (x0, y0 + w.lane)

/-- A lane whose wire group has lost two wires fails (R205, R207): the fret that receives on it reports. -/
def failLane (w : WireGroup) (s : State) : State :=
  let (x, y) := laneTile s w
  match w.outward, neighbour s x y w.edge with
  | true, some (x2, y2) => failLink x2 y2 (oppDir w.edge) s
  | false, _ => failLink x y w.edge s
  | true, none => s

/-- WIRE_STEER (R207, R316): a group with a wire marked bad is steered onto its spare while no section runs across the
bridge; a second bad wire fails the lane. -/
def execWireSteer (w : WireGroup) (s : State) : Out :=
  let g := mget {} s.wires (wireNum w)
  match g.bad with
  | [] => .next s
  | b :: more =>
    if g.steered = none ∧ dieQuiet s w.die ∧ dieQuiet s (acrossBridge w) then
      let s := { s with wires := mset {} s.wires (wireNum w) { g with steered := some b, bad := [] } }
      let s := sageEvent s .wireSteered (w.group % 256)
        (packFields [(w.lane, 8), (w.edge, 2), (b2n w.outward, 1), (b, 4)]) (partOfDie s w.die) (some w.die) none
      .next (if more = [] then s else failLane w s)
    else .next s

/-- BRIDGE_WIRE_TUNING (R207): the copy of the group's next wire is measured on its free spare; a bad wire is marked. Of a
group whose spare is in use, a bad wire is one that the CRC history marks: the second the group loses. -/
def execBridgeWireTuning (w : WireGroup) (bad : Bool) (s : State) : Out :=
  let g := mget {} s.wires (wireNum w)
  if !wireExists s w then .next s
  else if g.steered = none then
    let g' := { g with tune := (g.tune + 1) % 16
                       bad := if bad ∧ !g.bad.contains g.tune then g.bad ++ [g.tune] else g.bad }
    .next { s with wires := mset {} s.wires (wireNum w) g' }
  else .next (if bad then failLane w s else s)

end Sys2Proof.Machine
end

