-- ==== Sys2Proof/Machine/Sections.lean ====
section
/-!
DEFINITION. Machine/Sections: the meanings of the commands of sections, loads, checkpoints and restores (R220, R248-R281),
and of the control space (R255).
-/
namespace Sys2Proof.Machine

/-! ## Entries of the Array engine (R259, R273, R354) -/

/-- The list queue of the Array engine may go on: no switch, no replay, no restore or repair under way (R274). -/
def arrayFree (q : Partition) : Bool :=
  q.sw.isNone && q.replaying.isEmpty && !q.autoPending && q.repair.isNone

/-- The current entry has started. -/
def startEntry (p eng : Nat) (s : State) : State := modCur p eng (fun c => { c with started := true }) s

/-- LOAD (R259, R264): a load into an IDLE partition starts at once; in a RUNNING one it waits for the ENDED reduction, or
halts the band with FORCE; a HALTED or FAULTED one takes only FORCE. -/
def execLoad (p : Fin 4) (s : State) : Out :=
  let q := getPart s p.val
  match entryOf s p.val 0 0x01 false with
  | none => .next s
  | some (_, e, _) =>
    let o := loadOpts e
    if arrayFree q then
      let s := startEntry p.val 0 s
      if q.hot then .next (endEntry p.val 0 (stateStatus q) 0 0 s)
      else match q.st with
        | .idle => .next (idleLoad p.val o s)
        | .running =>
          if o.force then .next (forcePath p.val (.load o) (modPart s p.val (logLoad o)))
          else .next (modPart s p.val fun q => { q with sw := some { kind := .load o, phase := .ended } })
        | _ =>
          if o.force then .next (forcePath p.val (.load o) (modPart s p.val (logLoad o)))
          else .next (endEntry p.val 0 (stateStatus q) 0 0 s)
    else .next s

/-- RESTORE (R264, R273): the forced path, then the latest checkpoint. -/
def execRestore (p : Fin 4) (s : State) : Out :=
  let q := getPart s p.val
  match entryOf s p.val 0 0x02 false with
  | none => .next s
  | some _ =>
    if arrayFree q then
      let s := startEntry p.val 0 s
      if q.hot then .next (endEntry p.val 0 (stateStatus q) 0 0 s)
      else .next (forcePath p.val (.restore false) s)
    else .next s

/-- FINISH (R354): waits for the band's END, drains and spills; nothing in an IDLE partition. -/
def execFinish (p : Fin 4) (s : State) : Out :=
  let q := getPart s p.val
  match entryOf s p.val 0 0x03 false with
  | none => .next s
  | some (_, e, _) =>
    if arrayFree q then
      let s := startEntry p.val 0 s
      match q.st with
      | .idle => .next (endEntry p.val 0 0 0 0 s)
      | .running => .next (modPart s p.val fun q => { q with sw := some { kind := .finish (enStats e), phase := .ended } })
      | _ => .next (endEntry p.val 0 (stateStatus q) 0 0 s)
    else .next s

/-! ## The end of a section (R220, R235, R279) -/

/-- A tile contributes 1 to the ENDED reduction: it is ENDED and its logic answers (R220). -/
def saysEnded (t : Tile) : Bool := decide (t.tab.st = .ended ∧ t.missed = 0)

/-- Streams whose destination tile has ended stop (R235). -/
def stopStreams (p : Nat) (s : State) : State :=
  (bandDies (getPart s p)).foldl (fun s n => modSpine s n fun sp =>
    { sp with streams := sp.streams.map fun (k, t) =>
        (k, if saysEnded (getTile s t.x t.y) then { t with stopped := true } else t) }) s

/-- REPORT_MISMATCH for the tiles that fail the comparison (R279). -/
def raiseMismatch (p : Nat) (s : State) : State :=
  let bad := (tilesByX s p).filter fun (x, y) => !tileOff s x y && planBad (getTile s x y)
  (bad.take 64).foldl (fun s (x, y) =>
    sageEvent s .reportMismatch 0 (packFields [(bad.length, 32), (fld (getTile s x y).tab.plan.toNat 1 3, 3)])
      (some p) none (some (x, y))) s

/-- The switch that waits for the ENDED reduction may drain. -/
def wakeSwitch (q : Partition) : Partition :=
  match q.sw with
  | some { kind := k, phase := .ended } =>
    let q := match k with
      | .load o => logLoad o q
      | _ => q
    { q with sw := some { kind := k, phase := .drain } }
  | _ => q

/-- ENDED_REDUCTION (R220, R235, R259, R279): formed every 1,024 cycles while the partition runs; the first that shows the
band ENDED brings the plan count. -/
def execEndedReduction (p : Fin 4) (s : State) : Out :=
  if (getPart s p.val).st ≠ .running then .next s
  else
    let s := advanceTo s (s.cycle + (1024 - s.cycle % 1024) % 1024)
    let s := stopStreams p.val s
    let q := getPart s p.val
    let ts := workTiles s p.val
    if ts.all fun (x, y) => saysEnded (getTile s x y) then
      if q.endSeen.isSome then .next (modPart s p.val wakeSwitch)
      else
        let s := modPart s p.val fun q => { q with endSeen := some s.cycle, gap := true }
        if ts.any fun (x, y) => planBad (getTile s x y) then
          .next (failSwitch p.val .reportMismatch .faulted (raiseMismatch p.val s))
        else .next (modPart s p.val wakeSwitch)
    else .next s

/-! ## Drain and spills (R260, R261, R267) -/

/-- The switch goes to another phase. -/
def setPhase (p : Nat) (f : SwitchPhase) (s : State) : State :=
  modPart s p fun q => { q with sw := q.sw.map fun w => { w with phase := f } }

/-- DRAIN_START (R260, R315): issuers suspend tile-bound packets, ballast stops, and the settle period begins. -/
def execDrainStart (p : Fin 4) (s : State) : Out :=
  if switchAt s p.val = some .drain then
    .next (setPhase p.val (.settle s.cycle) (modPart s p.val fun q =>
      { q with st := .draining, suspended := true, gap := false, bunits := 0 }))
  else .next s

/-- DRAIN_SAMPLE (R260, R261, R438): after 2,048 cycles the drain succeeds, or every token stays and the partition becomes
FAULTED. -/
def execDrainSample (p : Fin 4) (s : State) : Out :=
  match switchAt s p.val with
  | some (.settle since) =>
    let s := catchUpBand p.val (advanceTo s (max s.cycle (since + 2048)))
    match residuals s p.val with
    | [] => .next (clearAsks p.val (setPhase p.val .spill s))
    | rs => .next (failSwitch p.val .residualToken .faulted (raiseResiduals p.val rs s))
  | _ => .next s

/-- The slots of a run are read and written as whole chunks, each slot's poison as the chunk's marker (R267, R244). -/
def doSpill (r : SlotRun) (s : State) : State :=
  (List.range r.count).foldl (fun s k =>
    let o := mget {} (getTile s r.x r.y).mu.slots (r.first + k)
    putChunk (r.dest + 64 * k) o.data o.poison s) s

/-- The reads of the spills that the spines of a band have still to make. -/
def spillsLeft (s : State) (p : Nat) : List SlotRun :=
  (bandDies (getPart s p)).flatMap fun n => (spillRuns s p n).drop (getSpine s n).asks

/-- Lines a host holds of the destinations of some spills (R331). -/
def spillLines (s : State) (p : Nat) (rs : List SlotRun) : List Nat :=
  rs.flatMap fun r => trackedLines s p (daToPa (getPart s p) r.dest) (64 * r.count)

/-- The switch continues with its load, or the partition becomes IDLE (R259, R354). -/
def continueSwitch (p : Nat) (s : State) : State :=
  match (getPart s p).sw with
  | none => s
  | some w =>
    let q := getPart s p
    let ts := workTiles s p
    let fires := bandSum s ts 0x18
    let slips := bandSum s ts 0x28
    let s := closeSection p 0 (switchStats w.kind) s
    match w.kind with
    | .finish _ =>
      let s := endStarted p 0 fires slips s
      let s := modCur p 0 (fun c => { c with section_ := q.section_.toNat }) s
      let s := overTiles s (bandTiles s p) fun _ _ => idleTile
      modPart s p fun q => { endJob q with sw := none, st := .idle, suspended := false }
    | k => beginImage p k s

/-- SPILLS_COMPLETE (R267, R269, R314): what the spines have still to read is read, and the spills of every die are written
once no host holds their lines; then a checkpoint for CKPT or for a test that waits, which first writes VALID = 0 into its
buffer (R270), else the load. It waits for every response that is outstanding. -/
def execSpillsComplete (p : Fin 4) (s : State) : Out :=
  if switchAt s p.val = some .spill ∧ !arrayBusy s p.val then
    let q := getPart s p.val
    let rs := spillsLeft s p.val
    let held := spillLines s p.val rs
    if held ≠ [] then .next (snoopLines q.port held s)
    else
      let s := clearAsks p.val (rs.foldl (fun s r => doSpill r s) s)
      match q.sw.bind fun w => switchOpts w.kind with
      | some o => .next (if o.ckpt ∨ testWaits q then beginCapture p.val s else continueSwitch p.val s)
      | none => .next (continueSwitch p.val s)
  else .next s

/-- A maintenance window ends: the scratchpads are written back from the checkpoint just captured, and the switch goes on
(R314). -/
def closeWindow (p : Nat) (s : State) : State :=
  let b := ((ckLatest s p).map (·.1)).getD 0
  continueSwitch p ((bandTiles s p).foldl (fun s t => restoreTile b t s) s)

/-- A maintenance window ends with the last of its tests (R314). -/
def windowEnds (p : Nat) (s : State) : State :=
  match switchAt s p with
  | some (.test _) => if (getPart s p).tickets.any fun t => decide (t.state = 0) then s else closeWindow p s
  | _ => s

/-- Cycles of a millisecond. -/
abbrev millisecond : Nat := 1800000

/-- A maintenance window has lasted MAINTMS: the tests that still run continue at later boundaries (R314). -/
def tickWindow (p : Nat) (s : State) : State :=
  match switchAt s p with
  | some (.test since) =>
    if s.cycle ≥ since + (getPart s p).policy.maintms * millisecond then
      closeWindow p (modPart s p fun q =>
        { q with tickets := q.tickets.map fun t => if t.state = 0 then { t with state := 1 } else t })
    else s
  | _ => s

/-- CHECKPOINT_CAPTURE_COMPLETE (R270, R274, R314): what the spines have still to read is captured, and the checkpoint of the
resume section is complete; the replay log keeps only loads still to be replayed; tests that waited run first, in a maintenance
window. -/
def execCheckpointCaptureComplete (p : Fin 4) (s : State) : Out :=
  match (getPart s p.val).sw with
  | some { kind := k, phase := .capture } =>
    match switchOpts k, arrayBusy s p.val with
    | none, _ => .next s
    | some _, true => .next s
    | some o, false =>
      let waits := testWaits (getPart s p.val)
      let s := clearAsks p.val (capture p.val o s)
      let s := modPart s p.val fun q =>
        { q with replay := q.replaying
                 tickets := q.tickets.map fun t => if t.state = 1 then { t with state := 0 } else t }
      .next (if waits then setPhase p.val (.test s.cycle) s else continueSwitch p.val s)
  | _ => .next s

/-! ## Forced path (R264) -/

/-- FORCED_PATH_INFLIGHT_CLEAR (R264, R273): no tile runs and nothing is in flight; Sage resets the frets, counts and
discards tokens, the epoch advances, and the load or restore goes on. -/
def execForcedPathInflightClear (p : Fin 4) (s : State) : Out :=
  match (getPart s p.val).sw with
  | some { kind := k, phase := .inflight } =>
    let ts := bandTiles s p.val
    if anyTile s ts fun t => decide (t.tab.st = .running) then .next s
    else
      let s := advanceTo s ((ts.map fun (x, y) => lastLanding (getTile s x y)).foldl max s.cycle)
      let s := catchUpBand p.val s
      let n := (ts.map fun (x, y) => (tileResiduals s.cycle (getTile s x y)).length).sum
      let s := closeSection p.val n (switchStats k) s
      let e := (getPart s p.val).epoch + 1
      let s := overTiles s ts fun _ _ => forceTile e s.cycle
      let s := modPart s p.val fun q => { q with epoch := e, discards := BitVec.ofNat 16 (min n 0xFFFF), endSeen := none
                                                 gap := false, stallMap := [], mapping := false }
      match k with
      | .restore _ => .next (readCheckpoint p.val k s)
      | _ => .next (setPhase p.val .image (modPart s p.val fun q => { q with st := .loading }))
  | _ => .next s

/-! ## Image load and release (R256-R258, R263, R275) -/

/-- The streams of a die's image, their start counted from the release (R233, Table 9.4). -/
def loadStreams (i : Img) (n : Nat) (s : State) : State :=
  let ss := (List.range (dhNstream (dieHeader s i n))).map fun k =>
    let e := streamWord s i n k
    let t : StackStream := { first := fld e 0 29, count := fld e 32 24, x := fld e 64 10, y := fld e 74 9, win := fld e 83 2
                             ofs := fld e 85 11, start := fld e 96 48 }
    (k, t)
  modSpine s n fun sp => { sp with streams := ss }

/-- The cycle a release names: at least 512 ahead, with the image's calendar phase (R263). -/
def releaseCycle (c phase : Nat) : Nat := c + 512 + (phase + 7040 - (c + 512) % 7040) % 7040

/-- A load that a die refuses (R256, R258): the event, tiles written so far LOADED, the partition FAULTED. -/
def refuseLoad (p : Nat) (o : LoadOpts) (bad : List (Nat × LoadFail × Nat)) (s : State) : State :=
  let i := imgOf p o
  match bad[Config.firstRefusal (bad.map (·.1)) % bad.length]? with
  | none => s
  | some (n, f, k) =>
    let s := (bandDies (getPart s p)).foldl (fun s m =>
      let done := if m = n then k else match bad.find? (·.1 = m) with
        | some (_, _, j) => min (max (Config.loadPrefix n m) ((getSpine s m).asks / recPackets)) j
        | none => max (Config.loadPrefix n m) ((getSpine s m).asks / recPackets)
      loadTiles i o ((dieTiles s m).take done) s) s
    match f with
    | .poison a => failSwitch p .imagePoison .faulted (sageEvent s .imagePoison 0 a (some p) (some n))
    | .refused reason ix cond tile =>
      failSwitch p .imageRefused .faulted
        (sageEvent s .imageRefused 0 (packFields [(reason, 8), (ix, 16), (cond, 8)]) (some p) (some n) tile)

/-- Bytes of the image of a die: header, tables, one record a tile (R250). -/
def imageBytes (s : State) (n : Nat) : Nat := 0x3000 + recSize * (dieTiles s n).length

/-- The image of a load runs out of the image store (R228, Table 8.2). -/
def imageOutside (s : State) (p : Nat) (o : LoadOpts) : Bool :=
  (bandDies (getPart s p)).any fun n => decide (o.imgofs < imageLo ∨ o.imgofs + imageBytes s n > imageHi)

/-- Every spine refuses to read an image outside the image store (R228): STACK_RANGE with the requester and the address, and
the load ends with that code (DESIGN CHOICE, notes/assumptions/135). -/
def refuseRange (p : Nat) (o : LoadOpts) (s : State) : State :=
  let s := (bandDies (getPart s p)).foldl (fun s n =>
    let at_ := if o.imgofs < imageLo then o.imgofs else imageHi
    spineEvent n .stackRange 6 (devAddr n (reserveBase + at_)) (spineBump n 0x50 1 s)) s
  failSwitch p .stackRange .faulted s

/-- The Array engine reads the image of a die: the counts of its spine (Table 8.6). -/
def noteImage (n : Nat) (s : State) : State := noteReads n ((imageBytes s n + 255) / 256) 0 s

/-- IMAGE_LOAD_COMPLETE (R256-R258, R263, R275, R370): once every quadrant of the band runs, every die image is checked and
written, and the release is broadcast; or a check fails and the load ends. -/
def execImageLoadComplete (p : Fin 4) (s : State) : Out :=
  let q := getPart s p.val
  match q.sw with
  | some { kind := k, phase := .image } =>
    let o := imageOpts s p.val k
    let i := imgOf p.val o
    let dies := bandDies q
    let bad := dies.filterMap fun n => (dieFail s i n).map fun f => (n, f, passed s i n)
    if arrayBusy s p.val || !bandRuns s p.val then .next s
    else if imageOutside s p.val o then .next (refuseRange p.val o s)
    else if bad ≠ [] then .next (refuseLoad p.val o bad s)
    else
      let s := dies.foldl (fun s n => loadStreams i n (loadTiles i o (dieTiles s n) (noteImage n s))) (clearAsks p.val s)
      let h := dieHeader s i (6 * q.lo)
      let key := bandKey s p.val
      let stale := dies.any fun n => decide (dhMapkey (dieHeader s i n) ≠ key)
      let s := if stale then sageEvent s .reportStale 0 0 (some p.val) else s
      let s := modCur p.val 0 (fun c => if c.started then { c with stale := c.stale || stale } else c) s
      let at_ := releaseCycle s.cycle (dhRphase h)
      .next (modPart s p.val fun q =>
        { q with section_ := BitVec.ofNat 16 (dhSection h), program := BitVec.ofNat 32 (dhProgram h), stale := stale
                 opts := some o, restoredRun := switchOpts k = none ∨ !q.replaying.isEmpty
                 sw := some { kind := k, phase := .release at_ } })
  | _ => .next s

/-- Every tile a load has written leaves LOADED in the first tile cycle of its quadrant that begins at the release cycle or after
it (R19, R219, R263); its cycles count from 0. -/
def releaseTile (spans : List (Nat × Nat)) (at_ : Nat) (t : Tile) : Tile :=
  if t.tab.st = .loaded then
    { t with tab := { t.tab with st := .running, tc := 0, nextCore := tileStart spans at_ }, mu := { t.mu with wUsed := 0, rUsed := 0 } }
  else t

/-- A restore has been released (R274, R308): the replay that follows, or RESTORED for every pending command. -/
def afterRestore (p : Nat) (s : State) : State :=
  let q := getPart s p
  let s := match q.repair with
    | some r => sageEvent (lifeBump lifeRepairs 1 s) .repairDone 0
        (packFields [((s.cycle - r.since) / 1800, 32), (s.sage.dmrev.toNat, 32)]) (some p)
    | none => s
  let s := modPart s p fun q =>
    { q with restoreSeq := q.restoreSeq + 1, repair := none, autoPending := false }
  if q.tileio ∨ q.replayLost then
    modPart (flushEngine p 0 0x420 s (some q.section_.toNat)) p fun q => { q with replay := [], replaying := [], behind := none }
  else modPart s p fun q => { q with replaying := q.replay }

/-- When no load is left to replay, the list queue resumes: a switch that waited waits again, a load that the fault
interrupted has been replayed and completes (R274, R309). -/
def resumeQueue (p : Nat) (s : State) : State :=
  let q := getPart s p
  if q.replaying ≠ [] then s
  else match q.behind with
    | some k => modPart s p fun q => { q with behind := none, sw := some { kind := k, phase := .ended } }
    | none => endStarted p 0 q.epoch.toNat s.cycle
        (modCur p 0 (fun c => if c.started then { c with section_ := q.section_.toNat } else c) s)

/-- RELEASE (R19, R263, R273, R274): the timed release takes effect; issuers resume; the command that waited for it
completes. -/
def execRelease (p : Fin 4) (s : State) : Out :=
  match (getPart s p.val).sw with
  | some { kind := k, phase := .release at_ } =>
    let s := advanceTo s (max s.cycle at_)
    let s := overTiles s (workTiles s p.val) fun x y =>
      let (n, k) := tilePlace s x y
      releaseTile (spansOf s n k) at_
    let s := (bandDies (getPart s p.val)).foldl (fun s n => modSpine s n fun sp =>
      { sp with streams := sp.streams.map fun (j, t) => (j, { t with start := t.start + at_ }) }) s
    let s := lifeBump lifeLoads 1 s
    let s := modPart s p.val fun q =>
      { q with st := .running, sw := none, suspended := false, released := at_, endSeen := none, gap := false, run := 0
               wrote := false, wave := none, spineBase := spineCtrs s p.val }
    let q := getPart s p.val
    let done := fun s => endStarted p.val 0 q.epoch.toNat at_
      (modCur p.val 0 (fun c => if c.started then { c with section_ := q.section_.toNat } else c) s)
    match k with
    | .load _ => .next (done s)
    | .finish _ => .next s
    | .replay _ => .next (resumeQueue p.val s)
    | .restore _ =>
      let resume := (entryOf s p.val 0 0x02 true).isSome
      let s := if resume then done s else s
      let s := afterRestore p.val s
      .next (detachAll (if resume then s else resumeQueue p.val s))
  | _ => .next s

/-- REPLAY_NEXT_LOAD (R274): the next logged section is loaded when the one before it ends. -/
def execReplayNextLoad (p : Fin 4) (s : State) : Out :=
  let q := getPart s p.val
  match q.replaying with
  | [] => .next s
  | o :: rest =>
    if q.st = .running ∧ q.sw = none then
      .next (modPart s p.val fun q => { q with replaying := rest, sw := some { kind := .replay o, phase := .ended } })
    else .next s

/-! ## The control space (R255) -/

/-- A word of a structure of the tile record carries a RSVD bit or code: route entries, address generators, windows, arrival
counters, queue configuration, prediction block (R14, Table 9.3). -/
def cfgRsvd (a v : Nat) : Bool :=
  if a < 0x14000 then false
  else if a < 0x14108 then routeRsvd (routeAt (0x800 + (a - 0x14000))) v
  else if a < 0x14118 then decide (fld v 56 8 ≠ 0)
  else if a < 0x14138 then windowRsvd v
  else if a < 0x14158 then decide (fld v 54 10 ≠ 0)
  else if a < 0x14218 then false
  else if a < 0x14258 then decide (fld v 8 56 ≠ 0)
  else if a < 0x14278 then decide (fld v 48 16 ≠ 0)
  else decide (a < 0x14280 ∧ v ≠ 0)

/-- The epoch fields of a tile, its queues and its fret as a CFGW of Sage or the Array engine writes them; MSGLEN and WRITERS of
a queue (R255, R257). -/
def cfgEpoch (off v : Nat) (t : Tile) : Tile :=
  if off = 0 then { t with tab := { t.tab with epoch := BitVec.ofNat 4 (fld v 16 4) } }
  else if off = 0x370 then { t with fret := { t.fret with epoch := BitVec.ofNat 4 (fld v 17 4) } }
  else { t with mu := { t.mu with queues := mmod {} t.mu.queues ((off - 0x2C8) / 8) fun q =>
    { q with msglen := BitVec.ofNat 4 (fld v 14 4), writers := BitVec.ofNat 4 (fld v 18 4), epoch := BitVec.ofNat 4 (fld v 28 4) } } }

/-- A word of the control space is written (Table 9.6): fields R257 names, tags, the tile record, scratchpad data; RSVD bits of a
register stay 0 (R14). -/
def cfgWord (a v : Nat) (t : Tile) : Tile :=
  let w64 := BitVec.ofNat 64 v
  let window := BitVec.ofNat 64 (setFld (fld v 0 34) 7 1 0)
  let setTab := fun (k : Nat) (hi : Bool) (t : Tile) =>
    let e := (mget 0 t.tab.mem k).toNat
    let e := if hi then setFld e 64 64 v else setFld e 0 64 v
    { t with tab := { t.tab with mem := mset 0 t.tab.mem k (BitVec.ofNat 128 e) } }
  let setReg := fun (off : Nat) (t : Tile) =>
    if off = 0x1B8 then { t with mu := { t.mu with ag0 := agOf v } }
    else if off = 0x1C0 then { t with mu := { t.mu with ag1 := agOf v } }
    else if 0x1C8 ≤ off ∧ off ≤ 0x1E0 then { t with mu := { t.mu with win := mset 0 t.mu.win ((off - 0x1C8) / 8) window } }
    else if 0x1E8 ≤ off ∧ off ≤ 0x200 then
      { t with mu := { t.mu with acnt := mset {} t.mu.acnt ((off - 0x1E8) / 8) (acntOf v) } }
    else if 0x208 ≤ off ∧ off ≤ 0x2C0 then
      { t with mu := { t.mu with sems := msetAll {} t.mu.sems (semsOf ((off - 0x208) / 8) v) } }
    else if off = 0x98 then { t with tab := { t.tab with skipq := BitVec.ofNat 8 v } }
    else if off = 0 ∨ off = 0x370 ∨ (0x2C8 ≤ off ∧ off ≤ 0x300) then cfgEpoch off v t
    else t
  if a < 0x800 then setReg a t
  else if a < 0x8000 then t
  else if a < 0x8100 then
    let k := 8 * (a - 0x8000)
    { t with mu := { t.mu with slots := (List.range 64).foldl (fun m j =>
        mmod {} m (k + j) fun o => { o with full := bit v j }) t.mu.slots } }
  else if a < 0x10000 then t
  else if a < 0x14000 then setTab ((a - 0x10000) / 16) (decide ((a - 0x10000) % 16 = 8)) t
  else if a < 0x14108 then
    { t with fret := { t.fret with route := mset 0 t.fret.route (routeAt (0x800 + (a - 0x14000))) w64 } }
  else if a < 0x14218 then setReg (0x1B8 + (a - 0x14108)) t
  else if a < 0x14258 then
    { t with mu := { t.mu with queues := mset {} t.mu.queues ((a - 0x14218) / 8) (loadQueue t.tab.epoch v) } }
  else if a < 0x14278 then
    let (pf, pe, pid, ps) := t.tab.pred
    let n := fld v 0 48
    let pred := match (a - 0x14258) / 8 with
      | 0 => (n, pe, pid, ps) | 1 => (pf, n, pid, ps) | 2 => (pf, pe, n, ps) | _ => (pf, pe, pid, n)
    { t with tab := { t.tab with pred := pred } }
  else if a < 0x20000 then t
  else
    let k := (a - 0x20000) / 64
    { t with mu := { t.mu with slots := mmod {} t.mu.slots k fun o =>
        { o with data := BitVec.ofNat 512 (setFld o.data.toNat (8 * (a % 64)) 64 v) } } }

/-- The region of the control space an address lies in, as its first and last byte addresses (Table 9.6). -/
def cfgRegion (a : Nat) : Option (Nat × Nat) :=
  ([(0, 0x7FF), (0x8000, 0x80FF), (0x10000, 0x1427F), (0x20000, 0x3FFFF)] : List (Nat × Nat)).find? fun (lo, hi) =>
    decide (lo ≤ a ∧ a ≤ hi)

/-- One payload flit of a CFGW outside the scratchpad is written at an address. Sage never writes tab memory (R18): its words
there are lost. -/
def cfgFlit (sage : Bool) (a : Nat) (d : Unit512) (t : Tile) : Tile :=
  (List.range 8).foldl (fun t k =>
    let a := a + 8 * k
    if sage ∧ 0x10000 ≤ a ∧ a < 0x14000 then t else cfgWord a (fld d.toNat (64 * k) 64) t) t

/-- One payload flit of a CFGW to the scratchpad alias waits for the write port: as writes of the bytes it covers in one slot
or two (R159, R255). -/
def cfgSlots (core a : Nat) (c : WClass) (d : Unit512) (poison : Bool) (t : Tile) : Tile :=
  let now := arrivalTime core t
  let k := (a - 0x20000) / 64
  let b := a % 64
  let put := fun (slot boff bcnt v : Nat) (t : Tile) =>
    let w : MuWrite := { id := t.mu.nextId, cls := c, win := 0, slot := slot, boff := boff, bcnt := bcnt
                         data := BitVec.ofNat 512 v, poison := poison, arr := now, since := now, raw := true }
    { t with mu := { t.mu with ingress := t.mu.ingress ++ [w], nextId := t.mu.nextId + 1 } }
  if b = 0 then put k 0 0 d.toNat t
  else put (k + 1) 0 b (d.toNat >>> (8 * (64 - b))) (put k b (64 - b) (d.toNat <<< (8 * b)) t)

/-- The payload of a CFGW to the scratchpad that finds room in the ingress buffer. -/
def cfgwFlits (core a : Nat) (c : WClass) : Nat → List (Unit512 × Bool) → Nat → Tile → Tile × List (Unit512 × Bool) × Nat
  | 0, l, done, t => (t, l, done)
  | _, [], done, t => (t, [], done)
  | n + 1, (d, p) :: rest, done, t =>
    if classCount t c < (if a % 64 = 0 then 4 else 3) then
      cfgwFlits core a c n rest (done + 1) (cfgSlots core (a + 64 * done) c d p t)
    else (t, (d, p) :: rest, done)

/-- CFGW (R255, R213): a delivered CFGW writes the control space of a tile that is not RUNNING; an address that names no
region, is no multiple of 8, or runs past its region's end is malformed, and so is a structure with a RSVD bit (R14). -/
def execCfgw (t : TileId) (s : State) : Out :=
  onTile t s fun s =>
    match takeInbox 5 (getTile s t.x t.y).fret.inbox with
    | none => s
    | some (p, rest) =>
      let a := fld (hCmd p.header) 0 20
      let n := p.payload.length + p.done
      let ok := decide (a % 8 = 0) && decide ((getTile s t.x t.y).tab.st ≠ .running) && (match cfgRegion a with
        | none => false
        | some (_, hi) => decide (a + 64 * n ≤ hi + 1))
        && !p.payload.zipIdx.any fun ((d, _), m) => (List.range 8).any fun k =>
          cfgRsvd (a + 64 * m + 8 * k) (fld d.toNat (64 * k) 64)
      let sage := decide (hIssuer p.header = 1)
      let s := noteWrote (sage && decide (a < 0x20000)) t.x s
      let box := fun (l : List Packet) (tl : Tile) => { tl with fret := { tl.fret with inbox := l } }
      if !ok then discardPacket .packetMalformed t.x t.y s.cycle p.header (modTile s t.x t.y (box rest))
      else if a ≥ 0x20000 then
        modTile s t.x t.y fun tl =>
          let (tl, left, done) := cfgwFlits s.cycle a (issuerClass (hIssuer p.header)) 8 p.payload p.done tl
          box (if left = [] then rest else { p with payload := left, done := done } :: rest) tl
      else
        outside t (fun _ tl => p.payload.zipIdx.foldl (fun tl (f, m) => cfgFlit sage (a + 64 * m) f.1 tl) (box rest tl)) s

end Sys2Proof.Machine
end

