-- ==== Sys2Proof/Machine/Faults.lean ====
section
/-!
DEFINITION. Machine/Faults: the meanings of the commands of events, repair, self-test, return to service, history and
reporting (R181, R182, R292-R325).
-/
namespace Sys2Proof.Machine

/-- EVENT_RECORD (R294, R295, R297, R300): Sage receives the oldest record of a source, gives it the next SEQ, files it, and
takes the response its class calls for; a DETACH that waited for a queue goes on when it is empty (R362). -/
def execEventRecord (src : EvSrc) (s : State) : Out :=
  match takeEvent s src with
  | none => .next s
  | some (e, s) =>
    let pl := evPlace s src e
    let r := packRecord pl e s.sage.nextSeq.toNat
    .next (detachAll (respond pl e r (fileRecord pl e r s)))

/-! ## Deadlock (R181, R182) -/

/-- SECTION_DEADLOCK (R181, R182): the run of stalled ticks has reached DLTICKS; the event, and the halt wave that takes the
stall map on its way. -/
def execSectionDeadlock (p : Fin 4) (s : State) : Out :=
  let q := getPart s p.val
  if q.st = .running ∧ q.run = q.dlNow then
    let s := startWave (sageEvent s .sectionDeadlock 0 0 (some p.val)) p.val
    .next (modPart s p.val fun q => { q with run := q.run + 1, stallMap := [], mapping := true })
  else .next s

/-! ## Detection and repair (R306-R312) -/

/-- A failed link of the partition has a tile at one of its ends whose test has not passed (R306). -/
def linkSuspect (q : Partition) (x y : Nat) : Bool :=
  q.links.any fun l => decide (l.x = x ∧ l.y = y ∧ !l.ok) || decide (l.x2 = x ∧ l.y2 = y ∧ !l.ok2)

/-- The occasion of a trigger of R306: two missed reductions; the test of a suspect tile, or of a tile at the end of a failed
link, that fails; CU BIST in ballast. -/
def faultOccasion (s : State) (x y trig : Nat) : Bool :=
  let t := getTile s x y
  let (n, c, p) := physPlace s x y
  let q := (partOfTile s x).map (getPart s)
  match trig with
  | 1 => t.loaded && decide (t.missed ≥ 2)
  | 2 => q.any fun q => q.suspects.contains (physNum n c p)
  | 3 => q.any fun q => linkSuspect q x y
  | 4 => match q with
    | some q => inGap q
    | none => true
  | _ => false

/-- A tile of a partition is suspect no more, and no failed link of it is under test. -/
def clearSuspect (x y k : Nat) (q : Partition) : Partition :=
  { q with suspects := q.suspects.filter (fun a => a != k)
           links := q.links.filter fun l => !decide ((l.x = x ∧ l.y = y) ∨ (l.x2 = x ∧ l.y2 = y)) }

/-- TILE_FAULT (R306): a trigger names a tile, and its repair starts. -/
def execTileFault (t : TileId) (trig : Fin 5) (s : State) : Out :=
  onTile t s fun s =>
    if faultOccasion s t.x t.y trig.val then
      let (n, c, p) := physPlace s t.x t.y
      let s := match partOfTile s t.x with
        | some k => modPart s k (clearSuspect t.x t.y (physNum n c p))
        | none => s
      let s := modTile s t.x t.y fun tl => { tl with missed := 0 }
      faultTile t.x t.y trig.val s
    else s

/-- TILE_FAULT records of a partition that history does not hold yet. -/
def newFaultRecords (s : State) (p : Nat) : List (BitVec 256) :=
  s.sage.log.filter fun r => decide (recCode r = 6 ∧ recPart r = p) && !s.sage.history.contains (.record r)

/-- REPAIR_HISTORY_WRITTEN (R307, R320): after the halt wave, the fault records and the repair reach history. -/
def execRepairHistoryWritten (p : Fin 4) (s : State) : Out :=
  match (getPart s p.val).repair with
  | none => .next s
  | some r =>
    if r.step = .halted then
      let s := (newFaultRecords s p.val).foldl (fun s r => addHistory (.record r) s) s
      let s := r.tiles.foldl (fun s (n, c, q) => addHistory (.repair n c q) s) s
      .next (modPart s p.val fun q => { q with repair := some { r with step := .history } })
    else .next s

/-- Units of some columns that had returned to service join the map again as spares (R317). -/
def rejoinColumns (ts : List (Nat × Nat × Nat)) (s : State) : State :=
  let back := s.sage.returned.filter fun d => decide (d.kind = 1) && ts.any fun (n, c, _) => decide (d.die = n ∧ d.c = c)
  if back = [] then s
  else { s with defects := s.defects.filter fun d => !back.contains d
                sage := { s.sage with returned := s.sage.returned.filter fun d => !back.contains d } }

/-- The records of a repair, with those of tiles that were suspect three times, in one revision (R301, R304, R309, R310). -/
def remap (p : Nat) (ts : List (Nat × Nat × Nat)) (s : State) : State :=
  let rev := s.sage.dmrev
  let s := ts.foldl recordDead (rejoinColumns ts s)
  let s := (suspectRecs s p).foldl (fun s d => deadTile d.die d.c d.p s) s
  storeMap (markDead { s with sage := { s.sage with dmrev := rev + 1 } })

/-- The restore that a partition waits for starts when nothing else is left to wait for (R301, R307). -/
def restoreWhenReady (p : Nat) (s : State) : State :=
  let q := getPart s p
  if q.autoPending ∧ q.sw = none ∧ !mustWait q then autoRestore p s else s

/-- REMAP_COMMITTED (R307-R310): the map is committed and the restore starts; with no spare left the column retires and the
partition is FAULTED. -/
def execRemapCommitted (p : Fin 4) (s : State) : Out :=
  match (getPart s p.val).repair with
  | none => .next s
  | some r =>
    if r.step = .history then
      let s := remap p.val r.tiles s
      if r.retire then .next (modPart s p.val fun q => { dropPending q with repair := none, st := .faulted })
      else if (getPart s p.val).autoPending then
        .next (restoreWhenReady p.val (modPart s p.val fun q => { q with repair := some { r with step := .committed } }))
      else .next (lifeBump lifeRepairs 1 (modPart s p.val fun q => { q with repair := none }))
    else .next s

/-- STACK_FAILURE (R312): a stack stops training or answering, and its spine raises STACK_FAIL; the response follows once the
record has reached Sage. -/
def execStackFailure (d : Fin 48) (k : Fin 2) (s : State) : Out :=
  let n := d.val
  let sp := getSpine s n
  if (if k.val = 0 then sp.up0 else sp.up1) then
    let s := spineEvent n .stackFail k.val 0 s
    .next (modSpine s n fun sp => if k.val = 0 then { sp with up0 := false } else { sp with up1 := false })
  else .next s

/-- RING_FAILURE (R312): RING_FAIL, which is FATAL. -/
def execRingFailure (s : State) : Out := .next (sageEvent s .ringFail 0 0)

/-! ## Self-test (R301, R313-R315) -/

/-- The tiles of a partition that have had no CU BIST for 24 h (R315). -/
abbrev day : Nat := 86400 * 1800000000

/-- Cycles of an hour. -/
abbrev hour : Nat := 3600 * 1800000000

/-- The last CU BIST of a logical tile. -/
def lastBist (s : State) (x y : Nat) : Nat :=
  let (n, c, p) := physPlace s x y
  max s.sage.bistAll (mget 0 s.sage.bist (physNum n c p))

/-- In-use tiles of a band whose last CU BIST is 24 h old. -/
def overdueTiles (s : State) (p : Nat) : Nat :=
  ((workTiles s p).filter fun (x, y) => decide (s.cycle ≥ lastBist s x y + day)).length

/-- A load waits in the list queue of the Array engine: ballast begins no test, and a test that it meets counts as not run
(R315). -/
def loadQueued (q : Partition) : Bool :=
  let g := getEng q 0
  let skip := if g.cur.ended.isSome then 1 else 0
  (g.lists.zipIdx).any fun (l, k) => (l.entries.drop (l.index + if k = 0 then skip else 0)).any fun e => decide (enOp e = 0x01)

/-- A physical tile of a die holds no logical tile and no DEAD_TILE record. -/
def spareAt (s : State) (n c p : Nat) : Bool :=
  (logicalAt s n c p).isNone && !(deadRows s.defects n c).contains p && !absentCol s.defects n c

/-- A test may run on a physical tile (Table 11.11), in a band once its quadrant runs (R370): on an in-use tile CU BIST and MU read check in a gap with no load queued,
every test but the read check in a maintenance window, any as the targeted test of a tile whose partition waits; on a spare
all but the read check; in an unassigned die column all. -/
def mayTest (s : State) (test n c p : Nat) : Bool :=
  ((partOfDie s n).isNone || quadRuns s n (quadOf c p)) && match logicalAt s n c p with
  | none => spareAt s n c p && decide (test ≠ 1)
  | some (x, y) => match partOfTile s x with
    | none => true
    | some i =>
      let q := getPart s i
      let targeted := q.suspects.contains (physNum n c p) || linkSuspect q x y
      let still := q.sw.isNone && decide (q.st = .halted ∨ q.st = .faulted ∨ q.st = .idle)
      let window := match q.sw with
        | some { kind := _, phase := .test _ } => true
        | _ => false
      (targeted && still) || (window && decide (test ≠ 1)) || (decide (test ≤ 1) && inGap q && !loadQueued q)

/-- A targeted test of a suspect tile has passed (R301): TILE_SUSPECT. -/
def suspectPasses (p x y k : Nat) (s : State) : State :=
  if (getPart s p).suspects.contains k then
    modPart (sageEvent s .tileSuspect 0 0 (some p) none (some (x, y))) p fun q =>
      { q with suspects := q.suspects.filter (fun a => a != k) }
  else s

/-- A tile at the end of a failed link has passed its test (R306). -/
def linkPasses (x y : Nat) (q : Partition) : Partition :=
  { q with links := q.links.map fun l =>
      { l with ok := l.ok || decide (l.x = x ∧ l.y = y), ok2 := l.ok2 || decide (l.x2 = x ∧ l.y2 = y) } }

/-- Both tiles of a failed link have passed: Sage names the tile whose input failed (R306). -/
def linksSettle (p : Nat) (s : State) : State :=
  let q := getPart s p
  let done := q.links.filter fun l => l.ok && l.ok2
  let s := modPart s p fun q => { q with links := q.links.filter fun l => !(l.ok && l.ok2) }
  done.foldl (fun s l => faultTile l.x l.y 3 s) s

/-- The test of an in-use tile ends (R301, R306, R313): with a failure, trigger 2 of a suspect tile, 3 of a tile at a failed
link, 4 of any other. -/
def tileTested (test n c p i x y : Nat) (pass : Bool) (s : State) : State :=
  let k := physNum n c p
  let q := getPart s i
  let s := modTile s x y (testTile test s.cycle)
  if pass then restoreWhenReady i (linksSettle i (modPart (suspectPasses i x y k s) i (linkPasses x y)))
  else
    let trig := if q.suspects.contains k then 2 else if linkSuspect q x y then 3 else 4
    testFails test n c p trig (modPart s i (clearSuspect x y k))

/-- CU BIST of a physical tile has completed (R315). -/
def noteBist (n c p : Nat) (s : State) : State :=
  let s := { s with sage := { s.sage with bist := mset 0 s.sage.bist (physNum n c p) s.cycle } }
  match partOfDie s n with
  | some i => if overdueTiles s i = 0 then modPart s i (fun q => { q with overdue := false }) else s
  | none => s

/-- The requester of a ticket learns of its end: a host by vector 1 (R348), the operator over Redfish (R314). -/
def tellRequester (p : Nat) (t : Ticket) (pass : Bool) (s : State) : State :=
  if t.operator then mgmtSend (.result p t.num pass) s
  else sendVector (getPart s p).port 1 s

/-- A running ticket ends with the tiles of its region that failed: its tiles are as the test leaves them, its results stand in
the self-test area of the band's first die, SELFTEST_FAIL and TILE_FAULT are raised, and a maintenance window whose last test
this is ends (R313, R314). No test runs in a quadrant whose clock root has not reached /1 (R370). -/
def endTicket (p n : Nat) (bad : List TileId) (s : State) : State :=
  match (getPart s p).tickets.find? fun t => decide (t.num = n ∧ t.state = 0) with
  | none => s
  | some t =>
    let ts := match t.tile with
      | some id => [(id.x, id.y)]
      | none => workTiles s p
    if ts.any fun (x, y) => let (k, q) := tilePlace s x y; !quadRuns s k q then s
    else
    let bad := ts.filter fun (x, y) => bad.contains { x := x, y := y }
    let s := overTiles s ts fun _ _ => testTile t.test s.cycle
    let s := putResult (6 * (getPart s p).lo) (Config.ticketUnit n) [p, n, t.test, s.cycle] s
    let s := modPart s p fun q => { q with tickets := q.tickets.map fun u =>
      if u.num = n then { u with state := if bad.isEmpty then 2 else 3 } else u }
    let s := bad.foldl (fun s (x, y) =>
      faultTile x y 4 (sageEvent s .selftestFail t.test 0 (some p) none (some (x, y)))) s
    windowEnds p (tellRequester p t bad.isEmpty s)

/-- SELFTEST_COMPLETE (R301, R313, R348): a test of a physical tile, a stack march or a ticket ends. A test that may not run
there has not run. -/
def execSelftestComplete (r : TestResult) (s : State) : Out :=
  match r with
  | .tile test n c p pass =>
    if n ≥ 48 ∨ c ≥ 128 ∨ p ≥ 66 ∨ !mayTest s test.val n c p then .next s
    else
      let s := if test.val = 0 then noteBist n c p s else s
      let s := putResult n (Config.testUnit (4 * physNum n c p + test.val)) [test.val, n, c, p, b2n pass, s.cycle] s
      match logicalAt s n c p with
      | some (x, y) => match partOfTile s x with
        | some i => .next (tileTested test.val n c p i x y pass s)
        | none => .next (if pass then s else testFails test.val n c p 4 s)
      | none => .next (if pass then s else testFails test.val n c p 4 s)
  | .stack d k pass =>
    if (partOfDie s d.val).isSome then .next s
    else
      let s := putResult d.val (Config.testUnit k.val) [4, d.val, k.val, b2n pass, s.cycle] s
      .next (if pass then s else sageEvent s .selftestFail 4 k.val none (some d.val))
  | .ticket part n bad => .next (endTicket part.val n bad s)

/-- SELFTEST_OVERDUE (R315): the first cycle in which an in-use tile of the partition has gone 24 h without a CU BIST. -/
def execSelftestOverdue (p : Fin 4) (s : State) : Out :=
  let q := getPart s p.val
  match leastOf ((workTiles s p.val).map fun (x, y) => lastBist s x y) with
  | none => .next s
  | some b =>
    if !q.set_ || q.overdue then .next s
    else
      let s := advanceTo s (b + day)
      let n := overdueTiles s p.val
      .next (modPart (sageEvent s .selftestOverdue 0 n (some p.val)) p.val fun q => { q with overdue := true })

/-- SPARE_TILE_TEST (R315): the hourly CU BIST and MU march of a die's spare tiles; those that fail are recorded dead. -/
def execSpareTileTest (d : Fin 48) (failed : List (Nat × Nat)) (s : State) : Out :=
  let n := d.val
  let s := advanceTo s (match s.sage.spareAt.find? fun (k, _) => decide (k = n) with
    | some (_, c) => c + hour
    | none => s.cycle)
  let bad := failed.filter fun (c, p) => decide (c < 128 ∧ p < 66) && spareAt s n c p
  let s := { s with sage := { s.sage with spareAt := mset 0 s.sage.spareAt n s.cycle } }
  let s := putResult n (Config.testUnit n) [n, bad.length, s.cycle] s
  .next (bad.foldl (fun s (c, p) => testFails 0 n c p 4 s) s)

/-! ## Return to service (R317) -/

/-- MARKED_UNIT_RETEST (R317): a marked unit passes or fails a retest; after three passes at least an hour apart it is
RETURNED. -/
def execMarkedUnitRetest (r : DefectRec) (pass : Bool) (s : State) : Out :=
  let g := s.sage
  if !s.defects.contains r ∨ g.returned.contains r ∨ g.barred.contains r then .next s
  else
    let others := g.passes.filter fun (d, _) => decide (d ≠ r)
    if !pass then
      .next { s with sage := { g with passes := others } }
    else match g.passes.find? fun (d, _) => decide (d = r) with
      | none => .next { s with sage := { g with passes := (r, 1, s.cycle) :: others } }
      | some (_, n, c) =>
        if s.cycle < c + hour then .next s
        else if n < 2 then .next { s with sage := { g with passes := (r, n + 1, s.cycle) :: others } }
        else
          let g := { g with passes := others, returned := g.returned ++ [r], hadReturned := g.hadReturned ++ [r] }
          let s := addHistory (.returned r) { s with sage := g }
          .next (sageEvent s .unitReturned r.kind (defectWord r) (partOfDie s r.die) (some r.die))

/-! ## Periodic work (R316, R320, R325) -/

/-- SENSOR_CALIBRATION (R316): every 10 s; no section is touched. -/
def execSensorCalibration (s : State) : Out :=
  let s := advanceTo s (s.sage.calibrated + 10 * 1800000000)
  .next { s with sage := { s.sage with calibrated := s.cycle } }

/-- Corrected errors of every stack in the hour that ends reach their histogram: 8 bins, powers of 4 (R321). -/
def stackHour (s : State) : State :=
  let s := (List.range 96).foldl (fun s k => lifeBump (lifeStackErrors + powBin 4 8 (mget 0 s.sage.stackErr k)) 1 s) s
  { s with sage := { s.sage with stackErr := [] } }

/-- HISTORY_COUNTER_WRITE (R320): every 10 min lifetime counters and histograms reach flash; every hour the summary of
CORRECTED and DEFERRED events too. -/
def execHistoryCounterWrite (s : State) : Out :=
  let was := s.sage.written
  let s := advanceTo s (was + 600 * 1800000000)
  let s := addHistory (.counters s.sage.life) s
  let s := if s.cycle / hour > was / hour then
      let t := addHistory (.summary s.sage.counts) (stackHour s)
      { t with sage := { t.sage with counts := [] } }
    else s
  .next { s with sage := { s.sage with written := s.cycle } }

/-- The summary of the CORRECTED records of one code and source. -/
def summaryMsg (m : EvCode × Nat × Nat) : SyslogMsg :=
  { msgid := evName m.1, severity := severity .corrected, record := 0, source := m.2.1, count := m.2.2 }

/-- SYSLOG_SUMMARY (R325): one message per code and source for the CORRECTED records of the last minute, held by Sage while
the collector cannot be reached. -/
def execSyslogSummary (s : State) : Out :=
  let ms := s.sage.minute.map summaryMsg
  let s := { s with sage := { s.sage with minute := [] } }
  .next (ms.foldl (fun s m => syslogSend m s) s)

/-- REPORT_LOST (R325): a collector that could not be reached reconnects; it gets what was held, and DETAIL holds the messages
discarded. -/
def execReportLost (s : State) : Out :=
  let g := s.sage
  if g.collector then .next s
  else
    let s := g.heldMsgs.foldl (fun s m => mgmtSend (.syslog m) s) s
    .next (sageEvent { s with sage := { g with collector := true, heldMsgs := [], discarded := 0 } } .reportLost 0 g.discarded)

end Sys2Proof.Machine
end

