-- ==== Sys2Proof/Machine/MailOps.lean ====
section
/-!
DEFINITION. Machine/MailOps: the mailbox protocol, the checks of its commands, list submission, and what each command does
(R337, R342-R352, R362, R363, R412, R413).
-/
namespace Sys2Proof.Machine

/-! ## Statuses (Table 12.8) -/

abbrev mSuccess : Nat := 0
abbrev mMalformed : Nat := 1
abbrev mUnknownOpcode : Nat := 2
abbrev mRange : Nat := 3
abbrev mNotOwned : Nat := 4
abbrev mNoPartition : Nat := 5
abbrev mPortState : Nat := 6
abbrev mQueueFull : Nat := 7
abbrev mDupTag : Nat := 8
abbrev mNoSuchTag : Nat := 9
abbrev mBusy : Nat := 10
abbrev mLocked : Nat := 11
abbrev mListMalformed : Nat := 12
abbrev mHostRead : Nat := 13
abbrev mKeyRejected : Nat := 14

/-- What a command comes to: the state, and its status and response once it has completed. -/
abbrev MailOut := State × Option (Nat × List Byte)

/-- A command completes with a status and no response bytes. -/
def answer (st : Nat) (s : State) : MailOut := (s, some (st, []))

/-- A command succeeds with a response. -/
def reply (rsp : List Byte) (s : State) : MailOut := (s, some (mSuccess, rsp))

/-! ## Commands (Tables 12.9, 14.6) -/

/-- Opcodes of Table 12.9. -/
def mailOpcodes : List Nat :=
  [0x0001, 0x0002, 0x0010, 0x0020, 0x0021, 0x0022, 0x0023, 0x0024, 0x0025, 0x0030, 0x0040, 0x0041, 0x0050, 0x0051]

/-- Opcodes of Table 14.6. -/
def recOpcodes : List Nat := [0x0F00, 0x0F01, 0x0F02]

/-- The device answers an opcode on a port (R344, R412). -/
def opcodeKnown (s : State) (o op : Nat) : Bool :=
  if s.boot.phase = .recovery then
    decide (op = 0x0001 ∨ op = 0x0040) || (decide (o = 0) && recOpcodes.contains op)
  else mailOpcodes.contains op

/-- Request bytes of Tables 12.9 and 14.6; REC_DATA has its own rule. -/
def requestSize (op : Nat) : Nat :=
  match op with
  | 0x0002 => 32 | 0x0010 => 32 | 0x0020 => 8 | 0x0021 => 8 | 0x0022 => 8 | 0x0023 => 8 | 0x0024 => 8 | 0x0025 => 16
  | 0x0030 => 16 | 0x0040 => 32 | 0x0041 => 1232 | 0x0050 => 8 | 0x0F00 => 8
  | _ => 0

/-- RSVD fields of a request, as low bit and width (Tables 12.11 to 12.14, R350, R362, R412). -/
def requestRsvd (op : Nat) : List (Nat × Nat) :=
  match op with
  | 0x0002 => [(5, 3), (13, 3), (29, 3), (42, 6), (64, 192)]
  | 0x0010 => [(2, 6), (51, 13), (192, 64)]
  | 0x0020 => [(32, 32)]
  | 0x0021 => [(20, 44)]
  | 0x0022 => [(6, 58)]
  | 0x0023 => [(16, 48)]
  | 0x0024 => [(8, 56)]
  | 0x0025 => [(7, 25), (76, 52)]
  | 0x0030 => [(25, 39), (80, 48)]
  | 0x0041 => [(1, 63)]
  | 0x0050 => [(17, 47)]
  | 0x0F00 => [(32, 32)]
  | 0x0F01 => [(32, 32)]
  | _ => []

/-- The request is malformed (R14, R342, R352). -/
def requestBad (op len : Nat) (req : List Byte) : Bool :=
  (if op = 0x0F01 then decide (len < 16 ∨ len > 4096) else decide (len ≠ requestSize op))
  || (requestRsvd op).any (fun (lo, n) => decide (byteField req lo n ≠ 0))
  || (decide (op = 0x0010) && decide (byteField req 0 2 = 3))

/-- The PORTSTATEs of Table 12.9. -/
def stateAllowed (op : Nat) (st : PortState) : Bool :=
  if op = 0x0001 ∨ op = 0x0020 ∨ op = 0x0040 ∨ recOpcodes.contains op then true
  else if op = 0x0051 then decide (st = .detached)
  else decide (st = .attached)

/-- The checks that come before a command's own (R337, R344, R352, R435): 0 when all pass. -/
def mailCheck (s : State) (o op len : Nat) (req : List Byte) : Nat :=
  let rec_ := decide (s.boot.phase = .recovery)
  if !opcodeKnown s o op then mUnknownOpcode
  else if (partOfPort s o).isNone ∧ !rec_ ∧ op ≠ 0x0001 ∧ op ≠ 0x0040 ∧ op ≠ 0x0051 then mNoPartition
  else if !rec_ ∧ !stateAllowed op (getPort s o).st then mPortState
  else if op = 0x0051 ∧ s.boot.phase = .prepared then mPortState
  else if requestBad op len req then mMalformed
  else 0

/-! ## PARTITION_QUERY, POLICY_SET (R345, R346) -/

/-- The record of Table 12.10. -/
def queryRecord (s : State) (o : Nat) : Nat :=
  let t := getPort s o
  let p := if s.boot.phase = .recovery then none else partOfPort s o
  let rate := if t.up then t.rate else 3
  let low := fun (part ilo ihi : Nat) => [(part, 3), (o, 2), (b2n (decide (s.grade = .b)), 1), (portNum t.st, 2), (ilo, 3),
    (ihi, 3), (0, 2), (rate, 2), (b2n t.x8, 1), (b2n t.ide, 1), (0, 12)]
  match p with
  | none => packFields (low 4 0 0)
  | some p =>
    let q := getPart s p
    let ws := (List.range (bandW q)).map fun k => colWidth s.grade s.defects (q.lo + k)
    packFields (low p q.lo q.hi ++
      [(hdmSize q, 64), (bandKey s p, 64), (s.sage.dmrev.toNat, 32), (regPstatus q, 64), (joinElems 8 ws, 64),
       (q.policy.limit, 5), (q.policy.dlticks, 11), (b2n q.policy.poison, 1), (b2n q.policy.maint, 1), (b2n q.plock, 1),
       (q.policy.maintms, 10), (q.policy.hplim, 16)])

/-- PARTITION_QUERY (R345). -/
def doQuery (o : Nat) (s : State) : MailOut := reply (bytesLE (queryRecord s o) 64) s

/-- Values of a policy request in range (Table 12.11). -/
def policyInRange (r : PolicyReq) : Bool :=
  (r.limit.all fun v => decide (16 ≤ v ∧ v ≤ 31)) && (r.dlticks.all fun v => decide (8 ≤ v ∧ v ≤ 1024))
  && (r.maint.all fun (_, v) => decide (1 ≤ v ∧ v ≤ 1000)) && (r.hplim.all fun v => decide (v < 65536))

/-- Policies after a request. -/
def setPolicy (r : PolicyReq) (p : Policies) : Policies :=
  let (m, ms) := r.maint.getD (p.maint, p.maintms)
  { limit := r.limit.getD p.limit, dlticks := r.dlticks.getD p.dlticks, poison := r.poison.getD p.poison, maint := m
    maintms := ms, hplim := r.hplim.getD p.hplim }

/-- Policies change, and history keeps the change (R320, R346). -/
def applyPolicy (p : Nat) (r : PolicyReq) (s : State) : State :=
  let s := modPart s p fun q => { q with policy := setPolicy r q.policy }
  addHistory (.policies p (getPart s p).policy) s

/-- The request of Table 12.11. -/
def policyRequest (req : List Byte) : PolicyReq :=
  let w := byteField req 0 64
  let get := fun (b lo n : Nat) => if bit w b then some (fld w lo n) else none
  { limit := get 0 8 5, dlticks := get 1 16 11, poison := if bit w 2 then some (bit w 27) else none
    maint := if bit w 3 then some (bit w 28, fld w 32 10) else none, hplim := get 4 48 16 }

/-- POLICY_SET (R346). -/
def doPolicy (p : Nat) (req : List Byte) (s : State) : MailOut :=
  let r := policyRequest req
  if (getPart s p).plock then answer mLocked s
  else if policyInRange r then answer mSuccess (applyPolicy p r s)
  else answer mRange s

/-! ## SUBMIT_LIST (R352-R357) -/

/-- A range of partition addresses lies below the HDM size (R355). -/
def paRange (s : State) (p a n : Nat) : Bool := decide (a + n ≤ hdmSize (getPart s p))

/-- The fields of an entry's header are legal (Table 12.15). -/
def headerOk (e : Unit512) : Bool :=
  decide (fld e.toNat 15 49 = 0) && (!enIrq e || decide (2 ≤ enVec e))

/-- An entry of the Array engine passes its checks (Table 12.16). -/
def arrayEntryOk (e : Unit512) : Bool :=
  let w := e.toNat
  match enOp e with
  | 0x01 => decide (fld w 163 349 = 0) && decide ((loadOpts e).imgofs % 256 = 0)
      && decide (imageLo ≤ (loadOpts e).imgofs ∧ (loadOpts e).imgofs < imageHi)
  | 0x02 => decide (fld w 64 448 = 0)
  | 0x03 => decide (fld w 64 98 = 0) && decide (fld w 163 349 = 0)
  | _ => false

/-- An entry of the stream engine passes its checks (R355, R356, Table 12.17). -/
def streamEntryOk (s : State) (p : Nat) (e : Unit512) : Bool :=
  let w := e.toNat
  let q := getPart s p
  let n := enSlots e
  let slots := decide (1 ≤ n ∧ n ≤ 2048)
  let tile := tileExists s { x := enX e, y := enY e } && decide (partOfTile s (enX e) = some p)
  let base := decide (fld w 323 1 = 0) && decide (fld w 328 184 = 0)
  base && match enOp e with
  | 0x10 | 0x11 => decide (enLen e ≥ 1) && paRange s p (enSaddr e) (enLen e)
  | 0x12 => decide (enLen e ≥ 1) && paRange s p (enSaddr e) (enLen e) && paRange s p (enDaddr e) (enLen e)
  | 0x13 =>
    let ofs := fld (enSaddr e) 0 32
    decide (enLen e ≥ 1) && decide (fld (enSaddr e) 32 6 < bandSize q) && decide (imageLo ≤ ofs)
      && decide (ofs + enLen e ≤ imageHi)
  | 0x14 | 0x16 => slots && tile
  | 0x15 | 0x17 => slots && tile && paRange s p (enSaddr e) (64 * n)
  | 0x18 =>
    let c := BitVec.ofNat 64 (enDaddr e)
    tile && (!enConfirm e || (bAcnten c && decide (bAcnt c = enAcnt e)))
  | _ => false

/-- An entry of the check engine passes its checks (Table 12.18). -/
def checkEntryOk (e : Unit512) : Bool :=
  let w := e.toNat
  match enOp e with
  | 0x20 => decide (fld w 66 2 ≠ 3) && decide (fld w 68 3 ≤ 4) && decide (fld w 71 57 = 0) && decide (fld w 256 256 = 0)
      && (decide (fld w 68 3 ≤ 1) || decide (fld w 128 128 = 0))
  | 0x21 => decide (fld w 66 446 = 0)
  | _ => false

/-- An entry passes the checks of SUBMIT_LIST. -/
def entryOk (s : State) (p eng : Nat) (e : Unit512) : Bool :=
  headerOk e && (if eng = 0 then arrayEntryOk e else if eng = 1 then streamEntryOk s p e else checkEntryOk e)

/-- The dependency of a submission: none named, one still to complete, one completed and whether OK; or no such tag. -/
def findDep (q : Partition) (eng tag : Nat) : Option (Option (Nat × Nat) × Bool) :=
  let g := getEng q eng
  if g.lists.any fun l => decide (l.tag = tag) then some (some (eng, tag), false)
  else (g.kept.find? fun (t, _) => decide (t = tag)).map fun (_, ok) => (none, !ok)

/-- The response of SUBMIT_LIST: 8 bytes, the index of a failing entry in byte 0. -/
def submitAnswer (st index : Nat) (s : State) : MailOut := (s, some (st, bytesLE index 8))

/-- SUBMIT_LIST (R352): the checks in their order, then the list joins the queue. -/
def doSubmit (p : Nat) (req : List Byte) (host : Option (List Unit512)) (s : State) : MailOut :=
  let eng := byteField req 0 2
  let count := byteField req 8 8
  let tag := byteField req 16 16
  let depeng := byteField req 32 2
  let depen := decide (byteField req 34 1 = 1)
  let listaddr := byteField req 64 64
  let cpl := byteField req 128 64
  let q := getPart s p
  let g := getEng q eng
  let dep := if depen then findDep q depeng (byteField req 35 16) else some (none, false)
  if count = 0 ∨ depeng = 3 ∨ listaddr % 64 ≠ 0 ∨ cpl % 32 ≠ 0 then submitAnswer mRange 0 s
  else if g.lists.length ≥ 16 then submitAnswer mQueueFull 0 s
  else if g.lists.any fun l => decide (l.tag = tag) then submitAnswer mDupTag 0 s
  else match dep with
    | none => submitAnswer mNoSuchTag 0 s
    | some (dep, failed) =>
      match host with
      | none => submitAnswer mHostRead 0 s
      | some es =>
        if es.length < count then submitAnswer mHostRead 0 s
        else
          let es := es.take count
          match es.zipIdx.find? fun (e, _) => !entryOk s p eng e with
          | some (_, k) => submitAnswer mListMalformed k s
          | none =>
            let l : CmdList := { tag := tag, cpl := cpl, entries := es, dep := dep, depFailed := failed, seq := q.restoreSeq }
            submitAnswer mSuccess 0 (modEngine p eng (fun g => { g with lists := g.lists ++ [l] }) s)

/-! ## Read commands (R347, Table 12.12) -/

/-- Records of 32 bytes after a header of 32 bytes. -/
def recordList (head : Nat) (rs : List (BitVec 256)) : List Byte := bytesLE head 32 ++ rs.flatMap fun r => bytesLE r.toNat 32

/-- EVENT_READ. -/
def doEvents (p : Nat) (req : List Byte) (s : State) : MailOut :=
  let q := getPart s p
  let from_ := byteField req 0 32
  let rs := ((q.ring.reverse.filter fun r => (decide (recPart r = p) || decide (recClass r = 3))
    && decide (recSeq r ≥ from_))).take 127
  let lost := b2n (decide (q.ringLost ≠ 0 ∧ q.ringLost ≥ from_))
  reply (recordList (packFields [(rs.length, 32), (lost, 1)]) rs) s

/-- A tile of the port's partition (R347). -/
def ownsTile (s : State) (p x y : Nat) : Bool := tileExists s { x := x, y := y } && decide (partOfTile s x = some p)

/-- TILE_READ. -/
def doTileRead (p : Nat) (req : List Byte) (s : State) : MailOut :=
  let x := byteField req 0 10
  let y := byteField req 10 9
  if !ownsTile s p x y then answer mNotOwned s
  else if byteField req 19 1 = 0 then reply (tileRegBytes s x y) s
  else reply (routeBytes (tileNow s x y)) s

/-- SPINE_READ. -/
def doSpineRead (p : Nat) (req : List Byte) (s : State) : MailOut :=
  let q := getPart s p
  let b := byteField req 0 6
  if b < bandSize q then reply (spineBytes s (6 * q.lo + b)) s else answer mNotOwned s

/-- STALL_MAP. -/
def doStallMap (p : Nat) (req : List Byte) (s : State) : MailOut :=
  let m := (getPart s p).stallMap.map (·.2)
  let first := byteField req 0 16
  if first ≥ m.length ∧ first ≠ 0 then answer mNotOwned s
  else
    let rs := (m.drop first).take 127
    reply (recordList (packFields [(m.length, 16), (rs.length, 16)]) rs) s

/-- SECTION_READ. -/
def doSectionRead (p : Nat) (req : List Byte) (s : State) : MailOut :=
  let rs := ((getPart s p).records.drop (byteField req 0 8)).take 64
  if rs = [] then answer mNotOwned s
  else reply (rs.flatMap recordBytes) s

/-- DIAG_READ. -/
def doDiagRead (p : Nat) (req : List Byte) (s : State) : MailOut :=
  let q := getPart s p
  let b := byteField req 0 6
  let area := byteField req 6 1
  let ofs := byteField req 32 32
  let len := byteField req 64 12
  let size := if area = 0 then 0x1000000 else 0x100000
  if b ≥ bandSize q then answer mNotOwned s
  else if len = 0 ∨ len > 4064 ∨ ofs + len > size then answer mRange s
  else
    let a := devAddr (6 * q.lo + b) (reserveBase + diagOfs + (if area = 0 then 0 else 0x1300000) + ofs)
    reply ((List.range len).map fun i => memByte s.stk.mem (a + i)) s

/-! ## SELFTEST (R314, R348) -/

/-- The response of Table 12.13. -/
def ticketAnswer (num st : Nat) (s : State) : MailOut :=
  reply (bytesLE (packFields [(num, 16), (st, 3), (0, 45), (64 * (Config.ticketUnit num % 16384), 64)]) 16) s

/-- A section is loaded in the region of a request (R314). -/
def regionInUse (s : State) (p : Nat) (tile : Option TileId) : Bool :=
  match tile with
  | some t => (getTile s t.x t.y).loaded
  | none => anyTile s (bandTiles s p) (·.loaded)

/-- A ticket is given out, to a host or to the operator; the oldest of more than 64 is dropped (R348). -/
def newTicket (p test : Nat) (tile : Option TileId) (st : Nat) (op : Bool) (s : State) : State × Nat :=
  let n := (getPart s p).nextTicket
  let t : Ticket := { num := n, test := test, tile := tile, state := st, operator := op }
  (modPart s p fun q =>
    let all := q.tickets ++ [t]
    { q with tickets := all.drop (all.length - 64), nextTicket := (n + 1) % 65536 }, n)

/-- SELFTEST. -/
def doSelftest (p : Nat) (req : List Byte) (s : State) : MailOut :=
  let test := byteField req 2 3
  let x := byteField req 6 10
  let y := byteField req 16 9
  let tile := if byteField req 5 1 = 1 then some { x := x, y := y : TileId } else none
  let num := byteField req 64 16
  match byteField req 0 2 with
  | 0 =>
    if test = 4 then answer mNotOwned s
    else if test > 4 then answer mRange s
    else if tile.isSome ∧ !ownsTile s p x y then answer mNotOwned s
    else if regionInUse s p tile then
      if (getPart s p).policy.maint then
        let (s, n) := newTicket p test tile 1 false s
        ticketAnswer n 1 s
      else answer mBusy s
    else
      let (s, n) := newTicket p test tile 0 false s
      ticketAnswer n 0 s
  | 1 =>
    match (getPart s p).tickets.find? fun t => decide (t.num = num) with
    | some t => ticketAnswer num t.state s
    | none => ticketAnswer num 4 s
  | _ => answer mRange s

/-! ## ATTEST, IDE_KEY (R349, R350, R413) -/

/-- Cycles of 60 s. -/
abbrev minute : Nat := 60 * 1800000000

/-- ATTEST: a fresh key pair and a report; in recovery no key. -/
def doAttest (o : Nat) (req : List Byte) (s : State) : MailOut :=
  let nonce := byteField req 0 256
  if s.boot.phase = .recovery then reply (reportBytes s o 0 nonce) s
  else
    let n := s.sage.keyPairs
    let s := { s with sage := { s.sage with keyPairs := n + 1 } }
    let s := modPort s o fun q => { q with ek := some (n, s.cycle + minute) }
    reply (reportBytes s o n nonce) s

/-- IDE_KEY: four keys under the key pair of the last ATTEST, which serves one IDE_KEY. -/
def doIdeKey (o : Nat) (req : List Byte) (s : State) : MailOut :=
  let q := getPort s o
  match q.ek with
  | none => answer mKeyRejected s
  | some (n, due) =>
    let s := modPort s o fun q => { q with ek := none }
    if s.cycle ≥ due then answer mKeyRejected s
    else match Config.mlkemUnwrap n (slice req 8 1224) with
      | none => answer mKeyRejected s
      | some ks => answer mSuccess (modPort s o fun q => { q with keys := mset [] q.keys (byteField req 0 1) (fixBytes 128 ks) })

/-! ## DETACH, ATTACH (R362, R363) -/

/-- DETACH: it completes once the port is DETACHED. -/
def doDetach (o : Nat) (req : List Byte) (s : State) : MailOut :=
  let ms := byteField req 1 16
  if ms = 0 ∨ ms > 60000 then answer mRange s
  else
    let d : Detach := { abort := decide (byteField req 0 1 = 1), deadline := s.cycle + ms * 1800000
                        irq := some (getPort s o).irq }
    (detachAll (beginDetach o d s), none)

/-- ATTACH. -/
def doAttach (o : Nat) (s : State) : MailOut := answer mSuccess (modPort s o fun q => { q with st := .attached })

/-! ## Recovery commands (R412, Table 14.6) -/

/-- REC_BEGIN: an image of SIZE bytes begins; one in progress on either path ends. -/
def doRecBegin (req : List Byte) (s : State) : MailOut :=
  let n := byteField req 0 32
  if n < 0x4000 ∨ n > 0x02000000 ∨ n % 4096 ≠ 0 then answer mRange s
  else answer mSuccess { s with boot := { s.boot with rcv := some (n, []) } }

/-- REC_DATA: OFFSET equals the bytes received so far, and the data stays within SIZE. -/
def doRecData (len : Nat) (req : List Byte) (s : State) : MailOut :=
  match s.boot.rcv with
  | none => answer mRange s
  | some (n, got) =>
    let d := slice req 8 (len - 8)
    if byteField req 0 32 ≠ got.length ∨ got.length + d.length > n then answer mRange s
    else answer mSuccess { s with boot := { s.boot with rcv := some (n, got ++ d) } }

/-- REC_COMMIT: the image is verified; an accepted one is installed and the device resets. -/
def doRecCommit (o : Nat) (s : State) : MailOut :=
  match s.boot.rcv with
  | none => answer mRange s
  | some (n, got) =>
    if got.length < n then answer mRange s
    else
      let r := verify s got
      if r ≠ 0 then ({ s with boot := { s.boot with rcv := none } }, some (mMalformed, bytesLE r 8))
      else (installRecovery got (endMail o mSuccess (bytesLE 0 8) s), none)

/-! ## The protocol (R342, R407) -/

/-- What a command does, by opcode, once the checks before it have passed. -/
def mailBody (o op : Nat) (host : Option (List Unit512)) (s : State) : MailOut :=
  let q := getPort s o
  let req := q.req
  let p := (partOfPort s o).getD 0
  match op with
  | 0x0001 => doQuery o s
  | 0x0002 => doPolicy p req s
  | 0x0010 => doSubmit p req host s
  | 0x0020 => doEvents p req s
  | 0x0021 => doTileRead p req s
  | 0x0022 => doSpineRead p req s
  | 0x0023 => doStallMap p req s
  | 0x0024 => doSectionRead p req s
  | 0x0025 => doDiagRead p req s
  | 0x0030 => doSelftest p req s
  | 0x0040 => doAttest o req s
  | 0x0041 => doIdeKey o req s
  | 0x0050 => doDetach o req s
  | 0x0051 => doAttach o s
  | 0x0F00 => doRecBegin req s
  | 0x0F01 => doRecData q.len.toNat req s
  | _ => doRecCommit o s

/-- Sage runs the command in a mailbox (R342): the checks, then its work; a failed SUBMIT_LIST has 8 bytes of zeros. -/
def runMail (o : Nat) (host : Option (List Unit512)) (s : State) : State :=
  let q := getPort s o
  let op := q.opcode.toNat
  let c := mailCheck s o op q.len.toNat q.req
  let (s, a) := if c ≠ 0 then (s, some (c, if op = 0x0010 then bytesLE 0 8 else [])) else mailBody o op host s
  match a with
  | some (st, rsp) => endMail o st rsp s
  | none => s

/-- The request buffer after host software has written bytes from its start. -/
def putRequest (old new : List Byte) : List Byte :=
  let new := new.take 4096
  new ++ old.drop new.length

/-- The mailboxes are served: Sage or the boot ROM runs. -/
def mailServes (s : State) : Bool :=
  decide (s.boot.phase = .recovery ∨ s.boot.phase = .released ∨ s.boot.phase = .prepared)

/-- A command whose GO is 1 runs; before release it waits (R407). -/
def goMail (op : Nat) (m : MailCmd) (host : Option (List Unit512)) (s : State) : State :=
  let o := m.port.val
  if mailServes s then runMail o host s
  else
    let n := s.sage.mails
    let s := { s with sage := { s.sage with mails := n + 1 } }
    modPort s o fun q => { q with waiting := some { order := n, opcode := op, cmd := m, host := host } }

/-- GO is written with an opcode (R342): nothing while GO is 1 or the link is down. A SUBMIT_LIST that a write of SGM_CMD has
started takes the list that Sage reads for it from host memory. -/
def mailCommand (op : Nat) (m : MailCmd) (host : Option (List Unit512)) (s : State) : Out :=
  let o := m.port.val
  let q := getPort s o
  if q.reading then
    if op = 0x0010 then .next (goMail op m host (modPort s o fun q => { q with reading := false })) else .next s
  else if q.go ∨ !q.up then .next s
  else
    .next (goMail op m host (modPort s o fun q =>
      { q with opcode := BitVec.ofNat 16 op, len := BitVec.ofNat 13 m.len, irq := m.irq, go := true
               req := putRequest q.req m.req }))

/-- Host software writes SGM_CMD while GO is 0 (R342): the command runs on what SGM_REQ holds when GO is written as 1; a
SUBMIT_LIST first has its list read from host memory. -/
def writeCmd (port : Fin 4) (w : Nat) (s : State) : State :=
  let o := port.val
  let op := fld w 0 16
  let go := bit w 63
  let s := modPort s o fun q =>
    { q with opcode := BitVec.ofNat 16 op, len := BitVec.ofNat 13 (fld w 16 13), irq := bit w 29, go := go
             reading := go && decide (op = 0x0010) }
  if !go ∨ op = 0x0010 then s
  else goMail op { port := port, len := fld w 16 13, irq := bit w 29, req := (getPort s o).req.take (fld w 16 13) } none s

/-- Commands that waited for release run in the order issued (R407). -/
def runWaiting (s : State) : State :=
  let ws := (List.range 4).filterMap fun o => (getPort s o).waiting.map fun w => (w.order, o)
  let sorted := ws.foldl (fun l a => (l.takeWhile fun b => decide (b.1 < a.1)) ++ [a]
    ++ (l.dropWhile fun b => decide (b.1 < a.1))) []
  sorted.foldl (fun s (_, o) =>
    match (getPort s o).waiting with
    | some w => runMail o w.host (modPort s o fun q => { q with waiting := none })
    | none => s) s

end Sys2Proof.Machine
end

