-- ==== Sys2Proof/Machine/Mailbox.lean ====
section
/-!
DEFINITION. Machine/Mailbox: the meanings of the mailbox commands (R342-R350, R352, R362, R363, R412, R413).
-/
namespace Sys2Proof.Machine

/-- PARTITION_QUERY (R345). -/
def execPartitionQuery (m : MailCmd) (s : State) : Out := mailCommand 0x0001 m none s

/-- POLICY_SET (R346). -/
def execPolicySet (m : MailCmd) (s : State) : Out := mailCommand 0x0002 m none s

/-- SUBMIT_LIST (R352), with the list Sage reads from host memory; none when the host refuses the read. -/
def execSubmitList (m : MailCmd) (host : Option (List (BitVec 512))) (s : State) : Out := mailCommand 0x0010 m host s

/-- EVENT_READ (R347). -/
def execEventRead (m : MailCmd) (s : State) : Out := mailCommand 0x0020 m none s

/-- TILE_READ (R347). -/
def execTileRead (m : MailCmd) (s : State) : Out := mailCommand 0x0021 m none s

/-- SPINE_READ (R347). -/
def execSpineRead (m : MailCmd) (s : State) : Out := mailCommand 0x0022 m none s

/-- STALL_MAP (R347). -/
def execStallMap (m : MailCmd) (s : State) : Out := mailCommand 0x0023 m none s

/-- SECTION_READ (R347). -/
def execSectionRead (m : MailCmd) (s : State) : Out := mailCommand 0x0024 m none s

/-- DIAG_READ (R347). -/
def execDiagRead (m : MailCmd) (s : State) : Out := mailCommand 0x0025 m none s

/-- SELFTEST (R314, R348). -/
def execSelftest (m : MailCmd) (s : State) : Out := mailCommand 0x0030 m none s

/-- ATTEST (R349, R413). -/
def execAttest (m : MailCmd) (s : State) : Out := mailCommand 0x0040 m none s

/-- IDE_KEY (R350). -/
def execIdeKey (m : MailCmd) (s : State) : Out := mailCommand 0x0041 m none s

/-- DETACH (R362). -/
def execDetach (m : MailCmd) (s : State) : Out := mailCommand 0x0050 m none s

/-- ATTACH (R363). -/
def execAttach (m : MailCmd) (s : State) : Out := mailCommand 0x0051 m none s

/-- REC_BEGIN (R412). -/
def execRecBegin (m : MailCmd) (s : State) : Out := mailCommand 0x0F00 m none s

/-- REC_DATA (R412). -/
def execRecData (m : MailCmd) (s : State) : Out := mailCommand 0x0F01 m none s

/-- REC_COMMIT (R412). -/
def execRecCommit (m : MailCmd) (s : State) : Out := mailCommand 0x0F02 m none s

/-- An opcode that neither Table 12.9 nor Table 14.6 lists, or a recovery opcode while the device is not in recovery, or one
that the recovery mailbox does not answer (R344, R412). -/
def opcodeStrange (s : State) (o op : Nat) : Bool :=
  if s.boot.phase = .recovery then !opcodeKnown s o op else !mailOpcodes.contains op

/-- UNKNOWN_OPCODE (R344, R412): the command completes with status UNKNOWN_OPCODE. An opcode that the mailbox does answer is
another command's. -/
def execUnknownOpcode (m : MailCmd) (opcode : BitVec 16) (s : State) : Out :=
  if opcodeStrange s m.port.val opcode.toNat then mailCommand opcode.toNat m none s else .next s

/-- DETACH_TIMEOUT (R362): the TIMEOUT of a DRAIN expires, and the DETACH goes on as ABORT. -/
def execDetachTimeout (port : Fin 4) (s : State) : Out :=
  match (getPort s port.val).detach with
  | none => .next s
  | some d =>
    if d.abort ∨ d.swept then .next s
    else
      let s := advanceTo s (max s.cycle d.deadline)
      .next (detachAll (modPort s port.val fun q => { q with detach := some { d with abort := true } }))

end Sys2Proof.Machine
end

