-- ==== Sys2Proof/Machine/Mu.lean ====
section
/-!
DEFINITION. Machine/Mu: the meanings of the commands of the memory unit and its ports (R142-R144, R150-R170, R211).
-/
namespace Sys2Proof.Machine

/-- EXT_MARK (R158): at the end of the present cycle, the oldest waiting non-tab write that has waited 16 cycles and holds no
mark is given the cycle seven later, unless a bulk operation paces that cycle. -/
def execExtMark (t : TileId) (s : State) : Out :=
  onTile t s fun s =>
    let tl := getTile s t.x t.y
    let now := tileTime s.cycle tl
    let ws := ([.sage, .arrayEngine, .ste, .coll].flatMap (classWaiting tl (now + 1))).map fun w => (w.since, w.id)
    let ds := (drainsWaiting tl (now + 1)).map fun e => (e.wants.getD 0, e.id)
    let old := (ws ++ ds).filter fun (a, _) => decide (now + 1 - a ≥ 16)
    let best := old.foldl (fun b x => match b with
      | none => some x
      | some y => if x.1 < y.1 then some x else some y) (none : Option (Nat × Nat))
    let paced : Bool := match tl.mu.bulk with
      | some b => bulkCycle b (now + 7)
      | none => false
    match best with
    | some (_, id) =>
      if paced || tl.mu.marks.any (fun m => decide (m.cycle = now + 7)) then s
      else outside t (fun _ tl => { tl with mu := { tl.mu with marks := tl.mu.marks ++ [{ cycle := now + 7, owner := id }] } }) s
    | none => s

/-- A write the port goes to lands, under a condition on the write; its flit's token is released (R201). A tile that issues
runs its tab in the same cycle afterwards, and its read sees the write (R153). -/
def grantWrite (ok : Tile → MuWrite → Bool) (t : TileId) (s : State) : Out :=
  onTile t s fun s =>
    let tl := getTile s t.x t.y
    let c := grantCycle s.cycle tl
    match portOwner tl c with
    | some (.write w) =>
      if ok tl w then
        let s := advanceTo s (grantCore s.cycle tl)
        let s := modTile s t.x t.y fun tl => landWrite s.cycle c w (dropMarks tl c)
        noteWrote (w.cls = .sage || w.cls = .ste) t.x (releaseAll s.cycle w.flit.toList s)
      else s
    | _ => s

/-- NON_TAB_WRITE_GRANT (R159): the waiting window write that the port goes to lands. -/
def execNonTabWriteGrant (t : TileId) (s : State) : Out := grantWrite (fun _ _ => true) t s

/-- FILLBLOCK_LAND (R166): a write to a FILLBLOCK window lands once its slot is empty, and sets the tag full. -/
def execFillblockLand (t : TileId) (s : State) : Out :=
  grantWrite (fun tl w => !w.raw && decide (wTagmode (mget 0 tl.mu.win w.win) = 2)) t s

/-- PACKET_READ_CLAIM (R160): the packet read that has waited 16 cycles, first the one that arrived first, claims the read
port. -/
def execPacketReadClaim (t : TileId) (s : State) : Out :=
  onTile t s fun s =>
    let tl := getTile s t.x t.y
    let now := tileTime s.cycle tl
    let old := tl.mu.reads.filter fun r => decide (now + 1 - r.arr ≥ 16)
    let first := old.foldl (fun a r => min a r.arr) now
    if tl.mu.reads.any (·.claimed) then s
    else match bestRead (old.filter fun r => decide (r.arr = first)) with
      | some b => outside t (fun _ tl => { tl with mu := { tl.mu with
          reads := tl.mu.reads.map fun r => if r.id = b.id then { r with claimed := true } else r } }) s
      | none => s

/-- PACKET_READ_GRANT (R160): a waiting packet read receives the read port in a cycle nobody else uses it; the response is
built with the last slot. -/
def execPacketReadGrant (t : TileId) (e : Ecc) (s : State) : Out :=
  onTile t s fun s =>
    let tl := getTile s t.x t.y
    match readOwner tl with
    | none => s
    | some r =>
      let now := tileTime s.cycle tl
      if issuing tl then
        if tl.mu.rUsed ≤ now ∧ !copyClaims tl now then outside t (fun core tl => readSlotFor core now e r tl) s else s
      else
        let c := afterCopy tl (max now tl.mu.rUsed)
        outside t (fun core tl => readSlotFor core c e r tl) (advanceTo s (dueCore tl c))

/-- BULK_SLOT_WRITE (R163): a bulk operation writes its next slot in its paced cycle, and completes on the last. -/
def execBulkSlotWrite (t : TileId) (e : Ecc) (s : State) : Out :=
  onTile t s fun s =>
    let tl := getTile s t.x t.y
    match tl.mu.bulk with
    | none => s
    | some b =>
      let c := bulkDue b
      let host := decide (1 ≤ b.issuer ∧ b.issuer ≤ 5)
      if issuing tl then
        if c ≤ tl.tab.tc then
          let s := advanceTo s tl.tab.nextCore
          noteWrote host t.x (modTile s t.x t.y (bulkWrite s.cycle tl.tab.tc e b))
        else s
      else
        let s := advanceTo s (dueCore tl c)
        noteWrote host t.x (modTile s t.x t.y (bulkWrite s.cycle c e b))

/-- ACCUMULATE_WRITE_ARRIVAL (R143): the oldest accumulate-write merges into the entry of its slot, takes a free entry, or
waits while the earliest entry drains; taken or merged, its token is released (Table 7.7). -/
def execAccumulateWriteArrival (t : TileId) (s : State) : Out :=
  onTile t s fun s =>
    let tl := getTile s t.x t.y
    let fs := if accTakes tl then (tl.mu.accq.head?.bind (·.flit)).toList else []
    releaseAll s.cycle fs (modTile s t.x t.y (accArrive s.cycle))

/-- CB_IDLE_DRAIN (R144): an entry of the combining buffer with no write for 32 cycles wants to drain. -/
def execCbIdleDrain (t : TileId) (s : State) : Out :=
  onTile t s fun s =>
    let tl := getTile s t.x t.y
    match tl.mu.cb.find? fun e => e.wants.isNone with
    | none => s
    | some _ =>
      let idle := (tl.mu.cb.filter fun e => e.wants.isNone).map fun e => e.last + 32
      let first := idle.foldl min (idle.headD 0)
      let s' := if issuing tl then s else advanceTo s (dueCore tl first)
      let now := tileTime s'.cycle tl
      if first ≤ now then
        outside t (fun _ tl => { tl with mu := { tl.mu with cb := tl.mu.cb.map fun e =>
          if e.wants.isNone ∧ e.last + 32 ≤ now then { e with wants := some now } else e } }) s'
      else s

/-- CB_DRAIN (R143): the entry of the combining buffer that the port goes to adds into its slot, and its count advances the
window's arrival counter. -/
def execCbDrain (t : TileId) (s : State) : Out :=
  onTile t s fun s =>
    let tl := getTile s t.x t.y
    let c := grantCycle s.cycle tl
    match portOwner tl c with
    | some (.drain e) =>
      let s := advanceTo s (grantCore s.cycle tl)
      modTile s t.x t.y fun tl => drainEntry s.cycle c e (dropMarks tl c)
    | _ => s

/-- WWRITE (R211): the payload of a delivered WWRITE becomes window writes, as many as the ingress buffer takes. -/
def execWwrite (t : TileId) (s : State) : Out :=
  onTile t s fun s =>
    match takeInbox 1 (getTile s t.x t.y).fret.inbox with
    | none => s
    | some (p, rest) =>
      modTile s t.x t.y fun tl =>
        let (tl, left, done) := wwriteFlits s.cycle p.header 8 p.payload p.done tl
        let box := if left = [] then rest else { p with payload := left, done := done } :: rest
        { tl with fret := { tl.fret with inbox := box } }

/-- MREAD (R211): a delivered MREAD queues its slot reads. -/
def execMread (t : TileId) (s : State) : Out :=
  onTile t s fun s =>
    match takeInbox 2 (getTile s t.x t.y).fret.inbox with
    | none => s
    | some (p, rest) =>
      modTile s t.x t.y fun tl =>
        let r : PRead := { id := tl.mu.nextId, issuer := hIssuer p.header, header := p.header, arr := arrivalTime s.cycle tl
                           epoch := p.epoch }
        { tl with fret := { tl.fret with inbox := rest }
                  mu := { tl.mu with reads := tl.mu.reads ++ [r], nextId := tl.mu.nextId + 1 } }

/-- MCMD (R162): a delivered MU command is accepted, waits, or is refused as malformed. -/
def execMcmd (t : TileId) (s : State) : Out :=
  onTile t s fun s =>
    match takeInbox 3 (getTile s t.x t.y).fret.inbox with
    | none => s
    | some (p, rest) =>
      modTile s t.x t.y fun tl =>
        muCommand s.cycle (hIssuer p.header) (BitVec.ofNat 64 (hCmd p.header)) p.payload.head?
          { tl with fret := { tl.fret with inbox := rest } }

end Sys2Proof.Machine
end

