-- ==== Sys2Proof/Machine/Report.lean ====
section
/-!
DEFINITION. Machine/Report: what the device shows without a command: configuration space and CDAT of a port, Redfish resources,
partition totals, the MAC address of the management port, the indicators of the module (R2, R319, R324, R327-R330, R431, R433).
-/
namespace Sys2Proof.Machine

/-! ## Configuration space and CDAT (R327-R330) -/

/-- What a host reads of a port's configuration space and of its HDM decoder. -/
structure ConfigSpace where
  vendor : Nat
  device : Nat
  classCode : Nat
  deviceType : Nat
  /-- CXL Device DVSEC -/
  cacheCapable : Bool
  memCapable : Bool
  hdmCount : Nat
  memSize : Nat
  memClear : Bool
  /-- Register Locator DVSEC and Flex Bus Port DVSEC are there; protocols of the one DOE capability -/
  locator : Bool
  flexBus : Bool
  doe : List String
  /-- features of Table 12.1 -/
  flit256 : Bool
  flit68 : Bool
  ideContainment : Bool
  ideSkid : Bool
  fabric : Bool
  multiLogical : Bool
  spdm : Bool
  functionReset : Bool
  /-- HDM decoder: base, size, Committed, Error Not Committed -/
  decoderBase : Nat
  decoderSize : Nat
  committed : Bool
  notCommitted : Bool
  deriving DecidableEq, Repr

/-- Bytes of memory of a port: the size of its partition, 0 with none (R330). -/
def portSize (s : State) (o : Nat) : Nat := ((partOfPort s o).map fun p => hdmSize (getPart s p)).getD 0

/-- The configuration space of a port (R327, R329, R330). -/
def configSpace (s : State) (o : Nat) : ConfigSpace :=
  let q := getPort s o
  { vendor := Config.vendorId.toNat, device := if s.grade = .a then 0xD48A else 0xD48B, classCode := 0x120000, deviceType := 2
    cacheCapable := true, memCapable := true, hdmCount := 1, memSize := portSize s o, memClear := false
    locator := true, flexBus := true, doe := ["CDAT table access"]
    flit256 := true, flit68 := false, ideContainment := true, ideSkid := false, fabric := false, multiLogical := false
    spdm := false, functionReset := true
    decoderBase := q.hdmBase, decoderSize := q.hdmSize, committed := q.committed, notCommitted := q.notCommitted }

/-- Bandwidth of a port in MB/s: 100 GB/s at x16 and 64 GT/s, halved with each halving of rate or width (R328). -/
def portBandwidth (q : Port) : Nat := 100000 / 2 ^ (q.rate + b2n q.x8)

/-- The CDAT of a port (Table 12.2). -/
def portCdat (s : State) (o : Nat) : Cdat :=
  let b := portBandwidth (getPort s o)
  { size := portSize s o, specificPurpose := true, readLatency := 450, writeLatency := 400, readBandwidth := b
    writeBandwidth := b }

/-! ## Redfish (R2, R319, R324) -/

/-- The part number of a grade (Table 0.1). -/
def partNumber : Grade → String
  | .a => "HW-DSW48-393"
  | .b => "HW-DSW48-387"

/-- MessageId of an event entry: the name of the record's code (R324). -/
def messageId (r : BitVec 256) : String :=
  "DreliaEvents.1.0." ++ ((evCodes.find? fun c => decide (evNum c = recCode r)).map evName).getD ""

/-- The event log: every record with its MessageId, oldest first. -/
def eventLog (s : State) : List (String × BitVec 256) := s.sage.log.map fun r => (messageId r, r)

/-- The records of nonvolatile history, oldest first. -/
def historyLog (s : State) : List HistItem := s.sage.history

/-- Spares left in a physical column of a die: two less its dead tiles (R307); none in a column that is absent or retired. -/
def sparesLeft (s : State) (n c : Nat) : Nat :=
  if absentCol s.defects n c || retiredCol s.defects n c then 0 else 2 - deadCount s n c

/-- The defect map resource (Table 11.15): records, DMREV, band key of each partition, spares left by die and column. -/
structure DefectMap where
  grade : Grade
  partNumber : String
  records : List DefectRec
  dmrev : Nat
  keys : List (Nat × Nat)
  spares : List (List Nat)
  deriving DecidableEq, Repr

/-- The partitions that are set. -/
def setParts (s : State) : List Nat := (List.range 4).filter fun p => (getPart s p).set_

/-- The defect map as the operator reads it; Sage reports the grade with it (R2). -/
def defectMap (s : State) : DefectMap :=
  { grade := s.grade, partNumber := partNumber s.grade, records := s.defects, dmrev := s.sage.dmrev.toNat
    keys := (setParts s).map fun p => (p, bandKey s p)
    spares := (List.range 48).map fun n => (List.range 128).map (sparesLeft s n) }

/-- The lifetime resource: counters and histograms by number. -/
def lifetime (s : State) : SMap Nat := s.sage.life

/-- The device identity certificate, as the operator reads it (R402). -/
def devIdCertificate (s : State) : List Byte := s.boot.cert

/-- The last 64 jobs of a partition (R391). -/
def jobLog (s : State) (p : Nat) : List JobSum := (getPart s p).jobs

/-- Totals of a partition by register offset, each with its INEXACT flag: the operator and the owning host read them (R319). -/
def partTotals (s : State) (p : Nat) : List (Nat × Nat × Bool) :=
  let q := getPart s p
  ctrOffsets.map fun o => (o, mget 0 q.totals o, mget false q.inexact o)

/-- Diagnostics of a partition (Table 11.15): stall map, section records, self-test results as its tickets name them. -/
structure Diagnostics where
  stallMap : List (BitVec 256)
  sections : List (List Byte)
  tests : List (Ticket × List Byte)
  totals : List (Nat × Nat × Bool)
  deriving DecidableEq, Repr

/-- The bytes of a ticket's results in the self-test area. -/
def ticketBytes (s : State) (p : Nat) (t : Ticket) : List Byte :=
  let a := devAddr (6 * (getPart s p).lo) (reserveBase + diagOfs + 0x1300000 + 64 * (Config.ticketUnit t.num % 16384))
  (List.range 64).map fun k => memByte s.stk.mem (a + k)

/-- Diagnostics of a partition as the operator reads them. -/
def diagnostics (s : State) (p : Nat) : Diagnostics :=
  let q := getPart s p
  { stallMap := q.stallMap.map (·.2), sections := q.records.map recordBytes
    tests := (q.tickets.filter fun t => decide (t.state = 2 ∨ t.state = 3)).map fun t => (t, ticketBytes s p t)
    totals := partTotals s p }

/-! ## Module (R431, R433) -/

/-- MAC address of the management port: Halwen's OUI, then the low 24 bits of SERIAL (R431). -/
def macAddress (s : State) : BitVec 48 := Config.oui ++ s.boot.fuses.serial.setWidth 24

/-- STATUS indicator (Table 15.6). -/
inductive StatusLight where
  | red | amberFlashing | amber | green | off
  deriving DecidableEq, Repr

/-- POWER indicator (Table 15.6). -/
inductive PowerLight where
  | amberFlashing | green | off
  deriving DecidableEq, Repr

/-- STATUS: the row nearer the top governs; dark where no row applies (R433). -/
def statusLight (s : State) : StatusLight :=
  let ps := (setParts s).map fun p => (getPart s p).st
  if s.boot.phase = .off then .off
  else if s.boot.event.isSome ∨ s.boot.phase = .romHold then .red
  else if s.boot.phase = .recovery then .amberFlashing
  else if inService s ∧ ps.any fun st => decide (st = .halted ∨ st = .faulted) then .amber
  else if s.boot.phase = .released ∧ ps.all fun st => decide (st = .idle ∨ st = .running) then .green
  else .off

/-- POWER (R433): auxiliary on with the main path waiting; main path on; no power, or removal prepared. -/
def powerLight (s : State) : PowerLight :=
  let m := s.module_
  if m.auxOn ∧ !m.mainOn ∧ s.boot.phase ≠ .prepared then .amberFlashing
  else if m.mainOn then .green
  else .off

/-- SAFE is blue while SAFE# is asserted (R433). -/
def safeLight (s : State) : Bool := s.module_.safe

end Sys2Proof.Machine
end

