-- ==== Sys2Proof/Machine/Ports.lean ====
section
/-!
DEFINITION. Machine/Ports: the meanings of the commands of the ports: CXL requests, capabilities, registers, links (R13,
R326-R335, R349, R363, R364).
-/
namespace Sys2Proof.Machine

/-! ## Snoops, decoder, IDE, CDAT -/

/-- HOST_SNOOP (R333): the device holds no host line, and answers a miss. -/
def execHostSnoop (port : Fin 4) (addr : Nat) (s : State) : Out := .next (hostSend port.val (.snoopMiss addr) s)

/-- HDM_DECODER_COMMIT (R330): the decoder commits for a base aligned to 256 MiB, the partition's size and one way; any other
commit fails with Error Not Committed. -/
def execHdmDecoderCommit (port : Fin 4) (base size ways : Nat) (s : State) : Out :=
  let o := port.val
  let ok := match partOfPort s o with
    | some p => decide (size = hdmSize (getPart s p)) && decide (ways = 1) && decide (base % 0x10000000 = 0)
    | none => false
  if !(getPort s o).up then .next s
  else .next (modPort s o fun q =>
    if ok then { q with hdmBase := base, hdmSize := size, committed := true, notCommitted := false }
    else { q with committed := false, notCommitted := true })

/-- IDE_ENABLE (R334, R350): host software selects a key set it has installed. -/
def execIdeEnable (port : Fin 4) (keyset : Fin 2) (s : State) : Out :=
  let o := port.val
  let q := getPort s o
  if q.up ∧ mget [] q.keys keyset.val ≠ [] then .next (modPort s o fun q => { q with ide := true, ideSet := keyset.val })
  else .next s

/-- CDAT_READ (R329, Table 12.2): the structures of the port, its bandwidth at the rate and width of the link. -/
def execCdatRead (port : Fin 4) (s : State) : Out := .next (hostSend port.val (.cdat (portCdat s port.val)) s)

/-! ## Register writes (R13, R341, R342) -/

/-- The bytes of SGM_REQ with eight written at an offset. -/
def putBytes (bs : List Byte) (ofs : Nat) (new : List Byte) : List Byte :=
  let bs := bs ++ List.replicate (ofs + new.length - bs.length) 0#8
  bs.take ofs ++ new ++ bs.drop (ofs + new.length)

/-- A write of the MSI-X table (R360), by offset in it. Vector Control holds the mask bit, the upper half of each second word; a
vector whose mask bit the write clears is sent when its pending bit is set. -/
def writeMsix (ofs : Nat) (v : BitVec 64) (q : Port) : Port :=
  if ofs % 16 = 0 then { q with regs := mset 0 q.regs (0x18000 + ofs) v }
  else
    let n := ofs / 16
    let b := BitVec.ofNat 32 (2 ^ n)
    let q := { q with regs := mset 0 q.regs (0x18000 + ofs) (v &&& 0xFFFFFFFF#64) }
    if v.getLsbD 32 then { q with msixMask := q.msixMask ||| b }
    else
      let q := { q with msixMask := q.msixMask &&& ~~~b }
      if bit q.msixPend.toNat n then putVector n { q with msixPend := q.msixPend &&& ~~~b } else q

/-- REGISTER_WRITE (R13, R14, R341, R342, R360): an aligned write of BAR0. SGM_CMD and SGM_REQ take it while GO is 0, RSVD bits
excepted, and a 1 in GO starts the command; the component block keeps it; every other register is RO. -/
def execRegisterWrite (port : Fin 4) (off : Nat) (v : BitVec 64) (s : State) : Out :=
  let o := port.val
  let q := getPort s o
  let w := v.toNat
  if !q.up ∨ off % 8 ≠ 0 then .next s
  else if off < 0x10000 then .next (modPort s o fun q => { q with regs := mset 0 q.regs off v })
  else if 0x18000 ≤ off ∧ off < 0x18200 then .next (modPort s o (writeMsix (off - 0x18000) v))
  else if off = 0x10000 then
    if q.go then .next s
    else .next (writeCmd port w s)
  else if 0x11000 ≤ off ∧ off < 0x12000 then
    if q.go then .next s
    else .next (modPort s o fun q => { q with req := putBytes q.req (off - 0x11000) (bytesLE w 8) })
  else .next s

/-! ## Function level reset (R335) -/

/-- FUNCTION_LEVEL_RESET (R335): DETACH in ABORT mode, after which the port is ATTACHED again. -/
def execFunctionLevelReset (port : Fin 4) (s : State) : Out :=
  let o := port.val
  if !(getPort s o).up ∨ !inService s then .next s
  else .next (detachAll (abortPort (decide (s.boot.phase = .released)) o s))

/-! ## Links (R326, R363, R364, R407) -/

/-- RATE of a training at a supported rate and width (R326, R327, Table 12.10). -/
def trainRate (r : LinkTrain) : Option Nat :=
  if r.lanes ≠ 16 ∧ r.lanes ≠ 8 then none
  else if r.gts = 64 then some 0 else if r.gts = 32 then some 1 else if r.gts = 16 then some 2 else none

/-- The port may train: port 0 from start-up step 6, the others from step 7 (R403, R406, R412). -/
def mayTrain (s : State) (o : Nat) : Bool :=
  match s.boot.phase with
  | .waitMain | .recovery => decide (o = 0)
  | .released => true
  | .prepared => decide (o = 0)
  | _ => false

/-- Records held while the link was down are written in order (R364). -/
def writeHeld (p : Nat) (s : State) : State :=
  [0, 1, 2].foldl (fun s e =>
    let ks := (getEng (getPart s p) e).held
    let s := modEngine p e (fun g => { g with held := [] }) s
    ks.foldl (fun s k => writeCompl p e k s) s) s

/-- LINK_UP (R326, R363, R364, R407): the link trains; after release the port becomes ATTACHED, and held records are
written. -/
def execLinkUp (port : Fin 4) (r : LinkTrain) (s : State) : Out :=
  let o := port.val
  match trainRate r with
  | none => .next s
  | some rate =>
    if (getPort s o).up ∨ !mayTrain s o then .next s
    else
      let attach := decide (s.boot.phase = .released)
      let s := modPort s o fun q =>
        { q with up := true, rate := rate, x8 := decide (r.lanes = 8), downAt := none
                 st := if attach ∧ q.detach.isNone then .attached else q.st }
      match partOfPort s o with
      | some p => .next (streamGo p (writeHeld p s))
      | none => .next s

/-- The started entry of the stream engine needs host memory (R364). -/
def needsHost (e : Unit512) (c : Entry) : Bool :=
  match enOp e with
  | 0x10 | 0x11 | 0x13 | 0x16 => true
  | 0x14 => decide (c.sent < enSlots e)
  | 0x18 => decide (fld (enDaddr e) 0 2 = 1 ∧ c.packets = 0)
  | _ => false

/-- A port's link goes down (R331, R362, R364): lines the host held are gone with it; while ATTACHED, HOST_LINK_DOWN is
raised and the running entry that needs host memory ends with it. -/
def linkDown (o : Nat) (s : State) : State :=
  let q := getPort s o
  if !q.up then s
  else
    let s := modPort s o fun q => { q with up := false, rate := 3, downAt := some s.cycle, filter := [], snoops := [], heldReads := [] }
    let s := if q.st = .attached ∧ inService s then
        let s := sageEvent s .hostLinkDown o 0 (partOfPort s o)
        match partOfPort s o with
        | none => s
        | some p => match openEntry s p 1 with
          | some (_, e, c) => if c.started ∧ needsHost e c then endMoved p (evNum .hostLinkDown) e c s else streamGo p s
          | none => s
      else s
    detachAll s

/-- IDE_INTEGRITY_FAIL (R334): while IDE is enabled, a flit that fails its check takes the link down. -/
def execIdeIntegrityFail (port : Fin 4) (s : State) : Out :=
  if (getPort s port.val).ide then .next (linkDown port.val s) else .next s

/-- HOST_LINK_DOWN (R364). -/
def execHostLinkDown (port : Fin 4) (s : State) : Out := .next (linkDown port.val s)

/-- LINK_DOWN_TIMEOUT (R364): a link that was lost while ATTACHED stays down for 60 s; Sage performs DETACH in ABORT mode and
the held records are discarded. -/
def execLinkDownTimeout (port : Fin 4) (s : State) : Out :=
  let o := port.val
  let q := getPort s o
  match q.downAt with
  | none => .next s
  | some t =>
    if q.up ∨ q.st ≠ .attached then .next s
    else
      let s := advanceTo s (max s.cycle (t + minute))
      let s := modPort s o fun q => { q with downAt := none }
      let s := detachAll (abortPort false o s)
      match partOfPort s o with
      | some p => .next ([0, 1, 2].foldl (fun s e => modEngine p e (fun g => { g with held := [] }) s) s)
      | none => .next s

/-! ## Keys (R349) -/

/-- KEY_PAIR_EXPIRY (R349): the decapsulation key of the last ATTEST ends 60 s after its response. -/
def execKeyPairExpiry (port : Fin 4) (s : State) : Out :=
  match (getPort s port.val).ek with
  | none => .next s
  | some (_, due) =>
    .next (modPort (advanceTo s (max s.cycle due)) port.val fun q => { q with ek := none })

end Sys2Proof.Machine
end

