-- ==== Sys2Proof/Machine/Power.lean ====
section
/-!
DEFINITION. Machine/Power: the meanings of the management tick and of the commands of power, clocks, heat and coolant (R181,
R220, R306, R321, R360, R365-R393).
-/
namespace Sys2Proof.Machine

/-! ## The management tick -/

/-- The boundary of the tick in progress. -/
def tickEnd (c : Nat) : Nat := c + (tickCycles - c % tickCycles)

/-- PROGRESS and HOLD of a band, to which a tile whose logic does not answer contributes 0, and the run of stalled ticks (R181,
R220); a run that has reached DLTICKS waits for its
SECTION_DEADLOCK. -/
def tickRun (silent : List TileId) (p : Nat) (s : State) : State :=
  let s := catchUpBand p s
  let all := workTiles s p
  let ts := all.filter fun (x, y) => !silent.contains { x := x, y := y }
  let running := anyTile s ts fun t => decide (t.tab.st = .running)
  let progress := anyTile s ts fun t => t.tab.wdProgress
  let hold := anyTile s ts fun t => t.tab.wdHold
  let s := overTiles s all fun _ _ t =>
    { t with tab := { t.tab with wdLast := t.tab.wdProgress, wdProgress := false, wdHold := false } }
  modPart s p fun q =>
    let run := if !running ∨ progress then 0 else if hold ∨ q.wrote then q.run
      else if q.run = q.dlNow then q.run else q.run + 1
    { q with run := run, wrote := false, dlNow := q.policy.dlticks }

/-- The responder counts by logical column of each die (R220): the loaded tiles of a band whose logic answers. -/
def columnCounts (silent : List TileId) (p : Nat) (s : State) : SMap Nat :=
  let w := gradeWidth s.grade
  (workTiles s p).foldl (fun m (x, y) =>
    if (getTile s x y).loaded ∧ !silent.contains { x := x, y := y } then
      mmod 0 m (128 * dieNum (x / w) (y / 64) + x % w) (· + 1)
    else m) []

/-- The responder count (R220, R306): Sage has the counts of the columns; a loaded tile whose logic answers is noted; one that
does not has missed a tick. -/
def tickResponders (silent : List TileId) (p : Nat) (s : State) : State :=
  let dies := bandDies (getPart s p)
  let others := s.sage.responders.filter fun (k, _) => !dies.contains (k / 128)
  let s := { s with sage := { s.sage with responders := msetAll 0 others (columnCounts silent p s) } }
  overTiles s (workTiles s p) fun x y t =>
    if !t.loaded then t
    else if silent.contains { x := x, y := y } then { t with missed := t.missed + 1 }
    else { t with missed := 0, lastAnswer := some s.cycle }

/-- Meters and sensors of the tick, and whether the syslog collector answers (R325, R366, R383, R387, R390, R392). -/
def tickMeters (m : Meters) (s : State) : State :=
  let dom := m.dom.foldl (fun d (k, w) => if k < 390 then mmod {} d k fun x => { x with watts := w } else d) s.power.dom
  let temps := m.temps.foldl (fun t (k, c) => if k < 390 then mset 0 t k c else t) s.power.tele.temps
  let band := ((List.range 384).map fun k => (mget {} dom k).watts).sum
  let cv := heatCap s.power.capo m.tin m.tout
  let heat := m.flow * cv * (m.tout - m.tin) / 600000
  let tj := temps.foldl (fun (a, k) (j, c) => if j < 384 ∧ c > a then (c, j) else (a, k)) (0, 0)
  let t := s.power.tele
  let t' : Tele := { pin := m.pin, shared := m.pin - band, tin := m.tin, tout := m.tout, flow := m.flow
                     pcool := coolantLimit cv m.flow m.tin, tj := tj.1, tjDom := tj.2, heat := ((heat, m.pin) :: t.heat).take 2000
                     heatE := min (t.heatE + heat) (ctrMax * 2000), inE := min (t.inE + m.pin) (ctrMax * 2000), temps := temps }
  let s := { s with power := { s.power with dom := dom, tele := t' }
                    sage := { s.sage with collector := s.sage.collector && m.collector } }
  let s := if t.heatE < ctrMax * 2000 ∧ t'.heatE = ctrMax * 2000 then sageEvent s .counterSaturated 0 0x16118 else s
  if t.inE < ctrMax * 2000 ∧ t'.inE = ctrMax * 2000 then sageEvent s .counterSaturated 0 0x16120 else s

/-- Thermal and droop levels of every quadrant for the next tick (R378, R383, R384). -/
def tickLevels (lo hi : Nat) (s : State) : State :=
  let q := s.power.quads
  let ks := List.range 192
  let temps := s.power.tele.temps
  let kt := msetAll 16 [] (ks.map fun k => (k, if mget 0 q.tripped k ≠ 0 then 0 else quadThermal temps (k / 4) (k % 4)))
  let kd := msetAll 16 [] (ks.map fun k =>
    let (a, n) := stretchCount (mget [] q.spans k) lo hi
    let v := mget 16 q.kd k
    (k, if 100 * a > n then v - 2 else if 1000 * a < n then min 16 (v + 1) else v))
  { s with power := { s.power with quads := { q with kt := kt, kd := kd } } }

/-- Effective cap and floor move toward their settings (R374). -/
def tickSettings (s : State) : State :=
  let c := s.power.capo
  let step := c.ramp * 8
  { s with power := { s.power with capo :=
      { c with capE := approach (c.cap * 160000) step c.capE, floorE := approach (c.floor * 160000) step c.floorE } } }

/-- Total band width of all partitions. -/
def totalW (s : State) : Nat := ((List.range 4).map fun p => let q := getPart s p; if q.set_ then bandW q else 0).sum

/-- Telemetry of a partition for the tick just ended, under the levels and bounds that applied in it (R379, R381, R391). -/
def tickTelemetry (lo hi p : Nat) (s : State) : State :=
  let q := getPart s p
  let ks := bandQuads q
  let spans := fun k => mget [] s.power.quads.spans k
  let st := fun k => (stretchCount (spans k) lo hi).1
  let why := ks.flatMap fun k => throttleReasons s q (decide (st k > 0)) k
  let watts := bandWatts s q
  let pb := watts * wattUnit
  let d := rampStep s.power.capo q
  let h := q.u / 100
  let energy := watts + s.power.tele.shared * bandW q / max 1 (totalW s)
  let withheld := (ks.map fun k => (hi - lo) / 16 * (16 - levelOf s q.kp k)).sum
  let job := fun (q : Partition) =>
    let q := telAdd 0x20 1 (telAdd 0x18 energy q)
    let q := [1, 2, 3, 4, 5, 6].foldl (fun q r => if why.contains r then telAdd (0x20 + 8 * r) 1 q else q) q
    let q := telAdd 0x60 ((ks.map st).sum) (telAdd 0x58 withheld q)
    let q := if q.bunits > 0 then telAdd 0x70 (q.bunits * 24 / 5) (telAdd 0x68 1 q) else q
    let q := if pb + d + h < q.lv ∨ q.lv + d + h < pb then telAdd 0x78 1 q else q
    if pb + h < q.f then telAdd 0x80 1 q else q
  let new := if q.job then job q else telAdd 0x88 energy q
  let new := { new with kmin := kminOf s q }
  let s := modPart s p fun _ => new
  let s := (telSat q new).foldl (fun s o => sageEvent s .counterSaturated 0 (0x16000 + o) (some p)) s
  why.dedup.foldl (fun s r => lifeBump (lifeThrottle + r) 1 s) s

/-- The capo's update of a partition, and its ballast (R377, R380). -/
def tickCapo (p : Nat) (s : State) : State :=
  let c := s.power.capo
  let q := getPart s p
  let pb := bandWatts s q * wattUnit
  let gap := inGap q
  let limit := 32 * ((bandQuads q).filter fun k => decide (mget 16 s.power.quads.kt k = 16)).length
  let b := nextBallast c.ballast limit pb gap q
  modPart s p fun q => { capoUpdate c s.power.tele.pcool pb gap q with bunits := b }

/-- A partition whose halt was thermal is free of it once every sensor of its band reads below 85 degrees C (R384). -/
def tickHot (p : Nat) (s : State) : State :=
  let q := getPart s p
  let hot := (bandDies q).any fun n => (List.range 8).any fun k => decide (mget 0 s.power.tele.temps (8 * n + k) ≥ 8500)
  if q.hot ∧ !hot then modPart s p fun q => { q with hot := false } else s

/-- Lifetime counters and histograms of a tick (R321, R390). -/
def tickLifetime (old : Tele) (s : State) : State :=
  let t := s.power.tele
  let bin := fun (v lo w n : Nat) => if v < lo then 0 else min (n + 1) ((v - lo) / w + 1)
  let wh := 7200000
  let s := lifeBump lifePowered 1 s
  let s := lifeBump lifeEnergyIn (t.inE / wh - old.inE / wh) s
  let s := lifeBump lifeHeat (t.heatE / wh - old.heatE / wh) s
  let s := lifeBump (lifeInlet + bin t.tin 2000 250 20) 1 s
  let s := lifeBump (lifeOutlet + bin t.tout 2000 250 20) 1 s
  let s := lifeBump (lifeJunction + min 15 ((t.tj - 4000) / 500)) 1 s
  lifeBump (lifeInput + min 19 (t.pin / 2000)) 1 s

/-- New records of a port send vector 1, at most once per tick (R360). -/
def tickVectors (s : State) : State :=
  (List.range 4).foldl (fun s o =>
    let q := getPort s o
    if q.evNew ∧ q.up then modPort (sendVector o 1 s) o fun q => { q with evNew := false } else s) s

/-- MANAGEMENT_TICK (R181, R220, R306, R314, R321, R360, R366, R374-R384, R390-R393): the tick in progress ends; its meters and
reductions are taken, the run of stalled ticks, the levels and every partition's capo are updated. -/
def execManagementTick (m : Meters) (s : State) : Out :=
  if !s.module_.auxOn then .next s
  else
    let lo := s.cycle - s.cycle % tickCycles
    let hi := tickEnd s.cycle
    let old := s.power.tele
    let s := tickMeters m (advanceTo s hi)
    let ps := (List.range 4).filter fun p => (getPart s p).set_
    if s.boot.phase ≠ .released then .next (tickLifetime old s)
    else
      let s := ps.foldl (fun s p => tickRun m.silent p (tickResponders m.silent p s)) s
      let s := ps.foldl (fun s p => tickTelemetry lo hi p s) s
      let s := tickSettings (tickLevels lo hi s)
      let s := ps.foldl (fun s p => tickHot p (tickCapo p s)) s
      let s := ps.foldl (fun s p => tickWindow p s) s
      .next (tickVectors (tickLifetime old s))

/-! ## Clocks and droop (R370, R371) -/

/-- POWER_SWITCH_RAMP (R370): after 200 microseconds the node is powered; its clock root starts at /16, or it runs. -/
def execPowerSwitchRamp (dom : Nat) (s : State) : Out :=
  match (getDom s dom).ramp with
  | .switch due =>
    let s := advanceTo s (max s.cycle due)
    let s := modDom dom (fun x =>
      if hasRoot dom then { x with st := .stopped, ramp := .divider true 0 (s.cycle + stepCycles) }
      else { x with st := .run, ramp := .none }) s
    .next (gateAdvance s)
  | _ => .next s

/-- DIVIDER_RAMP_STEP (R370): the root holds a step for 256 reference cycles, and goes to the next; after /1 the node runs,
after /16 on the way down it is OFF. -/
def execDividerRampStep (dom : Nat) (s : State) : Out :=
  match (getDom s dom).ramp with
  | .divider up k due =>
    let s := advanceTo s (max s.cycle due)
    let next := s.cycle + stepCycles
    if up then
      if k < 4 then .next (modDom dom (fun x => { x with ramp := .divider true (k + 1) next }) s)
      else .next (gateAdvance (modDom dom (fun x => { x with st := .run, ramp := .none }) s))
    else if k > 0 then .next (modDom dom (fun x => { x with ramp := .divider false (k - 1) next }) s)
    else .next (gateAdvance (nodeOff dom s))
  | _ => .next s

/-- DROOP_TRIP (R371): a trip in cycle t opens a span from t + 2 to t + 16. -/
def execDroopTrip (d : Fin 48) (q : Fin 4) (s : State) : Out :=
  let k := 4 * d.val + q.val
  let z := s.power.quads
  .next { s with power := { s.power with quads :=
    { z with spans := mmod [] z.spans k fun l => l ++ [(s.cycle + 2, s.cycle + 16)] } } }

/-! ## Thermal trips (R384, R385) -/

/-- A sensor reading is known to Sage. -/
def setTemp (dom t : Nat) (s : State) : State :=
  { s with power := { s.power with tele := { s.power.tele with temps := mset 0 s.power.tele.temps dom t } } }

/-- The thermal level of a quadrant is about to change between two ticks. -/
def noteLevel (k : Nat) (s : State) : State :=
  let old := thermalNow s k s.cycle
  { s with power := { s.power with quads := { s.power.quads with since := mset (0, 16) s.power.quads.since k (s.cycle, old) } } }

/-- The thermal levels of a die follow its sensors at once. -/
def dieThermal (n : Nat) (s : State) : State :=
  let s := (List.range 4).foldl (fun s q => noteLevel (4 * n + q) s) s
  let z := s.power.quads
  let kt := (List.range 4).foldl (fun m q =>
    mset 16 m (4 * n + q) (if mget 0 z.tripped (4 * n + q) ≠ 0 then 0 else quadThermal s.power.tele.temps n q)) z.kt
  { s with power := { s.power with quads := { z with kt := kt } } }

/-- COOLANT_LOW is latched. -/
def coolantLost (s : State) : Bool := s.boot.event.any fun r => decide (recCode r = evNum .coolantLow)

/-- After COOLANT_LOW a spine or a stack stays powered only while its sensors read below 95 degrees C (R388). -/
def dropHot (dom : Nat) (s : State) : State :=
  if coolantLost s then
    (if dom % 8 = 5 then [dom + 1, dom + 2, dom] else [dom]).foldl (fun s d => if (getDom s d).st = .off then s else nodeOff d s) s
  else s

/-- THERMAL_TRIP (R384): a stack or spine sensor at or above 95 degrees C; SUB names the domain within its die, and the
record halts the die's partition. -/
def execThermalTrip (dom temp : Nat) (s : State) : Out :=
  if dom < 384 ∧ 5 ≤ dom % 8 ∧ temp ≥ 9500 then
    let n := dom / 8
    let s := dropHot dom (dieThermal n (setTemp dom temp s))
    match partOfDie s n with
    | some p =>
      .next (sageEvent (modPart s p fun q => { q with hot := true }) .thermalTrip (dom % 8) 0 (some p) (some n))
    | none => .next (sageEvent s .thermalTrip (dom % 8) 0 none (some n))
  else .next s

/-- A loaded tile lies in a quadrant. -/
def quadLoaded (s : State) (n q : Nat) : Bool :=
  (dieTiles s n).any fun (x, y) => (getTile s x y).loaded && decide (tilePlace s x y = (n, q))

/-- QUADRANT_TRIP (R385): a sensor at 110 degrees C sets kt to 0, raises THERMAL_TRIP, which halts the partition when the
quadrant holds a loaded tile, and starts the quadrant's way to OFF. -/
def execQuadrantTrip (d : Fin 48) (q : Fin 4) (s : State) : Out :=
  let n := d.val
  let k := 4 * n + q.val
  if mget 0 s.power.quads.tripped k ≠ 0 ∨ (getDom s (8 * n + q.val)).st ≠ .run then .next s
  else
    let s := noteLevel k (setTemp (8 * n + q.val) 11000 s)
    let z := s.power.quads
    let s := { s with power := { s.power with quads :=
      { z with tripped := mset 0 z.tripped k (s.cycle + 1), kt := mset 16 z.kt k 0 } } }
    let part := if quadLoaded s n q.val then partOfDie s n else none
    .next (gateAdvance (sageEvent s .thermalTrip q.val 0 part (some n)))

/-- QUADRANT_OFF (R385, R304): the record of a tripped quadrant reaches history and the map, and the partition is set
FAULTED. -/
def execQuadrantOff (d : Fin 48) (q : Fin 4) (s : State) : Out :=
  let n := d.val
  let k := 4 * n + q.val
  if mget 0 s.power.quads.tripped k = 0 then .next s
  else
    let s := fieldDefect { kind := 6, die := n, quad := q.val } s
    let z := s.power.quads
    let s := { s with power := { s.power with quads := { z with tripped := mset 0 z.tripped k 0 } } }
    let s := sageEvent s .quadrantOff q.val 0 (partOfDie s n) (some n)
    match partOfDie s n with
    | some p => .next (modPart s p fun q => { dropPending q with st := .faulted })
    | none => .next s

/-! ## Coolant and supply (R388, R389) -/

/-- COOLANT_LOW (R388): a coolant limit breached for 1 s; FATAL, and every quadrant goes OFF. -/
def execCoolantLow (_c : CoolantCause) (s : State) : Out :=
  let s := sageEvent { s with module_ := { s.module_ with alert := true } } .coolantLow 0 0
  .next (((List.range 48).flatMap fun n => (List.range 4).map (8 * n + ·)).foldl (fun s d =>
    if (getDom s d).st = .off then s else nodeOff d s) s)

/-- A domain is a node or lies below it in the tree. -/
def below (top d : Nat) : Bool :=
  decide (d = top) || (match domParent d with
    | none => false
    | some a => decide (a = top) || (match domParent a with
      | none => false
      | some b => decide (b = top) || (match domParent b with
        | none => false
        | some c => decide (c = top) || decide (domParent c = some top))))

/-- SUPPLY_FAULT (R389): FATAL; a regulator fault moves its domain and the domains below it to OFF. -/
def execSupplyFault (c : SupplyCause) (s : State) : Out :=
  let s := sageEvent s .supplyFault 0 0
  match c with
  | .regulator dom =>
    if dom < 390 then
      let ds := domOrder.reverse.filter (below dom)
      let s := ds.foldl (fun s d => if (getDom s d).st = .off then s else nodeOff d s) s
      let s := (List.range 4).foldl (fun s o => if ds.contains (384 + o) then modPort s o (fun q => { q with up := false, heldReads := [] }) else s) s
      .next { s with boot := { s.boot with offDoms := s.boot.offDoms ++ [dom] } }
    else .next s
  | _ => .next s

end Sys2Proof.Machine
end

