-- ==== Sys2Proof/Machine/Redfish.lean ====
section
/-!
DEFINITION. Machine/Redfish: the meanings of the operator's requests over the management port (R314, R339, R346, R373, R402,
R406-R412, R435).
-/
namespace Sys2Proof.Machine

/-- A Redfish request (R407, R432): served from release on; answered with 503 while start-up runs firmware before release;
not answered in any other phase. -/
def redfish (f : State → State) (s : State) : Out :=
  if inService s then .next (f s)
  else if s.boot.phase = .waitMain then .next (mgmtAnswer .unavailable s)
  else .next s

/-- PARTITION_SET (R339): one set of up to four partitions; with Force, each partition that the set removes or changes has its
port detached first. -/
def execPartitionSet (ps : List PartDef) (force : Bool) (s : State) : Out :=
  redfish (fun s =>
    if !setValid ps then mgmtAnswer .rejected s
    else if setAllowed s ps then mgmtAnswer .done (applyPartitions ps s)
    else if force then
      let hit := (List.range 4).filter fun p =>
        let q := getPart s p
        q.set_ && !samePart q (ps.find? fun d => decide (d.index.val = p))
      forceRequest (hit.map fun p => (getPart s p).port) (.partitions ps) s
    else mgmtAnswer .conflict s) s

/-- Capo settings after a request; none when a value lies outside its range (Table 13.3). -/
def setCapo (r : CapoReq) (c : Capo) : Option Capo :=
  let n := { c with cap := r.cap.getD c.cap, ramp := r.ramp.getD c.ramp, floor := r.floor.getD c.floor
                    ballast := r.ballast.getD c.ballast, cpv := r.cpv.getD c.cpv }
  if 1600 ≤ n.cap ∧ n.cap ≤ 4000 ∧ 200 ≤ n.ramp ∧ n.ramp ≤ 10000 ∧ n.floor ≤ n.cap
      ∧ (n.cpv = 0 ∨ (3000 ≤ n.cpv ∧ n.cpv ≤ 4200)) then some n else none

/-- Ballast stops in every partition (R380). -/
def stopBallast (s : State) : State := (List.range 4).foldl (fun s p =>
  if (getPart s p).set_ then modPart s p fun q => { q with bunits := 0 } else s) s

/-- CAPO_SETTINGS (R373, R380). -/
def execCapoSettings (c : CapoReq) (s : State) : Out :=
  redfish (fun s =>
    match setCapo c s.power.capo with
    | none => mgmtAnswer .rejected s
    | some n =>
      let s := { s with power := { s.power with capo := n } }
      mgmtAnswer .done (if n.ballast then s else stopBallast s)) s

/-- REDFISH_POLICY_SET (R346): the operator sets policies whether or not a lock holds, and sets or clears the lock. -/
def execRedfishPolicySet (p : Fin 4) (r : PolicyReq) (lock : Option Bool) (s : State) : Out :=
  redfish (fun s =>
    if (getPart s p.val).set_ ∧ policyInRange r then
      let s := applyPolicy p.val r s
      mgmtAnswer .done (modPart s p.val fun q => { q with plock := lock.getD q.plock })
    else mgmtAnswer .rejected s) s

/-- REDFISH_SELFTEST (R314): at once in a region that is not in use; in one that is, deferred under MAINT = 1 and refused under
MAINT = 0. -/
def execRedfishSelftest (p : Fin 4) (r : TestReq) (s : State) : Out :=
  redfish (fun s =>
    let q := getPart s p.val
    if !q.set_ ∨ (r.tile.any fun t => !ownsTile s p.val t.x t.y) then mgmtAnswer .rejected s
    else if regionInUse s p.val r.tile then
      if q.policy.maint then mgmtAnswer .done (newTicket p.val r.test.val r.tile 1 true s).1 else mgmtAnswer .conflict s
    else mgmtAnswer .done (newTicket p.val r.test.val r.tile 0 true s).1) s

/-- FIRMWARE_UPDATE (R398, R409): a verified image goes to the slot that is not ACTIVE, on trial. -/
def execFirmwareUpdate (img : List Byte) (s : State) : Out :=
  redfish (fun s =>
    if verify s img ≠ 0 then mgmtAnswer .rejected s
    else
      let b := putSlot (!(bootRec s.boot).active) img s.boot
      mgmtAnswer .done { s with boot := writeBoot (fun r => { r with pending := true, tries := 1 }) b }) s

/-- COMPUTER_SYSTEM_RESET (R409). -/
def execComputerSystemReset (force : Bool) (s : State) : Out :=
  redfish (fun s =>
    if deviceQuiet s then mgmtAnswer .done (deviceReset s)
    else if force then forceRequest [0, 1, 2, 3] .reset s
    else mgmtAnswer .conflict s) s

/-- The running image may commit its version (R410). -/
def commitAllowed (s : State) : Bool :=
  let l := s.boot.latch
  decide (l.boot = .normal) && !l.trial && decide (fusedCount s < l.svn)

/-- The fused count rises to a value, and a slot whose image lies below it is marked empty (R410). -/
def commitTo (n : Nat) (s : State) : State :=
  let b := s.boot
  let other := !b.latch.slot
  let b := { b with fuses := { b.fuses with svnfuse := blowTo n b.fuses.svnfuse } }
  { s with boot := if imSvn (slotOf b other) < n then putSlot other [] b else b }

/-- COMMIT_VERSION (R410). -/
def execCommitVersion (s : State) : Out :=
  redfish (fun s =>
    if commitAllowed s then mgmtAnswer .done (commitTo s.boot.latch.svn s) else mgmtAnswer .conflict s) s

/-- ENTER_RECOVERY (R412). -/
def execEnterRecovery (s : State) : Out := redfish (fun s => mgmtAnswer .done (resetToRecovery s)) s

/-- PREPARE_REMOVAL (R435). -/
def execPrepareRemoval (force : Bool) (s : State) : Out :=
  redfish (fun s =>
    if deviceQuiet s then mgmtAnswer .done (doRemoval s)
    else if force then forceRequest [0, 1, 2, 3] .removal s
    else mgmtAnswer .conflict s) s

/-- DEVID_CERT_WRITE (R402): a certificate is accepted only when its public key equals DEVID_PK. -/
def execDevidCertWrite (cert : List Byte) (s : State) : Out :=
  redfish (fun s =>
    if Config.certKey cert = fixBytes 1312 (Config.devidPk s.boot.fuses.idseed) then
      mgmtAnswer .done { s with boot := { s.boot with cert := cert } }
    else mgmtAnswer .rejected s) s

/-- RECOVERY_IMAGE_PUT (R412): in recovery a whole image is verified, and installed when it is accepted; an image in progress
on the mailbox ends. -/
def execRecoveryImagePut (img : List Byte) (s : State) : Out :=
  if s.boot.phase = .recovery then
    let s := { s with boot := { s.boot with rcv := none } }
    if verify s img = 0 then .next (installRecovery img (mgmtAnswer .done s)) else .next (mgmtAnswer .rejected s)
  else .next s

/-- RECOVERY_STATUS_GET (R406, R412): the latched event, and in recovery the reason codes of both slots. -/
def execRecoveryStatusGet (s : State) : Out :=
  let b := s.boot
  if b.phase = .recovery then .next (mgmtAnswer (.status b.event (some (b.reasonA, b.reasonB))) s)
  else if b.phase = .romHold then .next (mgmtAnswer (.status b.event none) s)
  else .next s

end Sys2Proof.Machine
end

