-- ==== Sys2Proof/Machine/Sparse.lean ====
section
/-!
DEFINITION. Machine/Sparse: the meanings of the commands of the sparse engine (R118-R149).
-/
namespace Sys2Proof.Machine

/-- SP_LOAD (R125): Sparse LOAD writes one column of values into the shadow bank. -/
def execSpLoad (t : TileId) (u : Upset) (s : State) : Out :=
  tabCommand (fun e => decide (eUnit e = 2 ∧ eKind e = 1)) t u s

/-- LOADM (R125): Writes 2:4 masks into the shadow bank. -/
def execLoadm (t : TileId) (u : Upset) (s : State) : Out :=
  tabCommand (fun e => decide (eUnit e = 2 ∧ eKind e = 2)) t u s

/-- SP_LOADSC (R125): Sparse LOADSC loads column scales or streaming scales. -/
def execSpLoadsc (t : TileId) (u : Upset) (s : State) : Out :=
  tabCommand (fun e => decide (eUnit e = 2 ∧ eKind e = 3)) t u s

/-- SP_SWAP (R125): Exchanges the active and shadow sparse banks, masks included. -/
def execSpSwap (t : TileId) (u : Upset) (s : State) : Out :=
  tabCommand (fun e => decide (eUnit e = 2 ∧ eKind e = 4)) t u s

/-- MAC24 (R126): One 2:4 issue through the active sparse bank, with an optional column load. -/
def execMac24 (t : TileId) (u : Upset) (s : State) : Out :=
  tabCommand (fun e => decide (eUnit e = 2 ∧ eKind e = 5)) t u s

/-- GLOAD (R132): Writes rows of the gather store, optionally restarting it. -/
def execGload (t : TileId) (u : Upset) (s : State) : Out :=
  tabCommand (fun e => decide (eUnit e = 2 ∧ eKind e = 6)) t u s

/-- BEGIN (R133): Reads the count and the step descriptor and opens a step in mode SPARSE or FALLBACK. -/
def execBeginStep (t : TileId) (u : Upset) (s : State) : Out :=
  tabCommand (fun e => decide (eUnit e = 2 ∧ eKind e = 7)) t u s

/-- SEG (R134): One real segment issue or one pad issue of the open step. -/
def execSeg (t : TileId) (u : Upset) (s : State) : Out :=
  tabCommand (fun e => decide (eUnit e = 2 ∧ eKind e = 8)) t u s

/-- SP_DRAIN (R141): Sparse DRAIN emits one accumulator row, natively or in fixed point. -/
def execSpDrain (t : TileId) (u : Upset) (s : State) : Out :=
  tabCommand (fun e => decide (eUnit e = 2 ∧ eKind e = 9)) t u s

/-- MAC24_LAND (R127): the contribution of the oldest MAC24 in flight lands. -/
def execMac24Land (t : TileId) (mism : Nat) (s : State) : Out :=
  landCommand (fun w => match w with
    | .issue .mac24 _ => true
    | _ => false) t mism s

/-- SEG_LAND (R135): the contributions of the oldest SEG in flight land. -/
def execSegLand (t : TileId) (mism : Nat) (s : State) : Out :=
  landCommand (fun w => match w with
    | .issue .seg _ => true
    | _ => false) t mism s

/-- FALLBACK_CHUNK_LAND (R136): the contribution of the oldest chunk in flight lands. -/
def execFallbackChunkLand (t : TileId) (mism : Nat) (s : State) : Out :=
  landCommand (fun w => match w with
    | .issue .chunk _ => true
    | _ => false) t mism s

/-- The open step of a tile, when it runs in mode FALLBACK. -/
def fallbackStep (t : Tile) : Option SpStep :=
  match t.sp.step with
  | some p => if p.fallback then some p else none
  | none => none

/-- Engine fetch of one slot (R136): the slot's data and poison enter the fetch buffer; no tag is checked or changed. -/
def fetchSlot (core : Nat) (e : Ecc) (p : SpStep) (t : Tile) : Tile :=
  let i := p.dbase + p.fetched
  let o := mget {} t.mu.slots i
  let t := spadUpset core e i t
  { t with
    sp := { t.sp with step := some { p with
      fetched := p.fetched + 1, buf := p.buf ++ [(o.data, o.poison || decide (e = .double), tileTime core t)] } }
    mu := { t.mu with rUsed := tileTime core t + 1 } }

/-- FALLBACK_FETCH (R136, R160): in mode FALLBACK the engine fetches the next slot of the dense slice, when the fetch buffer has
room, no entry or claim uses the read port in the cycle and no packet read waits, which goes first. -/
def execFallbackFetch (t : TileId) (e : Ecc) (s : State) : Out :=
  onTile t s fun s =>
    let tl := getTile s t.x t.y
    match fallbackStep tl with
    | none => s
    | some p =>
      if p.fetched < stepSlots p ∧ p.buf.length < 2 ∧ tl.mu.reads = [] then
        let now := tileTime s.cycle tl
        if issuing tl then
          if tl.mu.rUsed ≤ now ∧ now > p.begun ∧ !readClaimed tl now then outside t (fun c tl => fetchSlot c e p tl) s else s
        else
          let s := advanceTo s (dueCore tl (afterCopy tl (max now (max (p.begun + 1) tl.mu.rUsed))))
          outside t (fun c tl => fetchSlot c e p tl) s
      else s

/-- The first tile cycle in which the next chunk may issue (R136, Table 5.7): after BEGIN, after the chunk before it, and after
the fetch of its slot. -/
def chunkFrom (p : SpStep) : Nat :=
  max (if p.issued = 0 then p.begun + 1 else p.lastChunk + 1) ((p.buf.head?.map fun (_, _, f) => f + 1).getD 0)

/-- Engine issue of one chunk (R136): the chunk of the first slot in the fetch buffer; a slot whose last chunk has issued
leaves the buffer. -/
def issueChunk (core : Nat) (p : SpStep) (t : Tile) : Tile :=
  match p.buf with
  | [] => t
  | (d, poison, _) :: rest =>
    let q := tileTime core t
    let fx := chunkIssue t.sp p p.issued d poison
    let done := decide ((p.issued + 1) % chunksPerSlot p.fmt = 0)
    let p := { p with issued := p.issued + 1, lastChunk := q, buf := if done then rest else p.buf }
    fireSegFx core .chunk fx (q + 40) { t with sp := { t.sp with step := some p } }

/-- FALLBACK_CHUNK_ISSUE (R136): the engine issues the next dense chunk in a cycle in which the issue mask allows it, the
clock is not stretched and no MAC24 fires, at most one per cycle. -/
def execFallbackChunkIssue (t : TileId) (s : State) : Out :=
  onTile t s fun s =>
    let tl := getTile s t.x t.y
    match fallbackStep tl with
    | none => s
    | some p =>
      if p.issued < stepChunks p ∧ p.buf ≠ [] then
        let s' := if issuing tl then s else advanceTo s (dueCore tl (chunkFrom p))
        let q := tileTime s'.cycle tl
        let env := tileEnv s t.x t.y s'.cycle
        if chunkFrom p ≤ q ∧ tl.sp.mac24At ≤ q ∧ env.mask ∧ !env.stretched then
          outside t (fun c tl => issueChunk c p tl) s'
        else s
      else s

/-- SPARSE_STEP_COMPLETE (R137): the open step completes at the end of its completion cycle: S[SEMID] takes 1 and the step
closes. -/
def execSparseStepComplete (t : TileId) (s : State) : Out :=
  onTile t s fun s =>
    let tl := getTile s t.x t.y
    match tl.sp.step with
    | none => s
    | some p =>
      match stepDone p with
      | none => s
      | some d =>
        if issuing tl then
          if d ≤ tl.tab.tc then modTile s t.x t.y (completeStep (endCore tl d) d p) else s
        else
          modTile (advanceTo s (endCore tl d)) t.x t.y (completeStep (endCore tl d) d p)

end Sys2Proof.Machine
end

