-- ==== Sys2Proof/Machine/Startup.lean ====
section
/-!
DEFINITION. Machine/Startup: the meanings of the pins, of the supplies, of start-up through release and of Sage's lockstep
(R394-R411, R417, R420-R425, R434-R436).
-/
namespace Sys2Proof.Machine

/-! ## Presence and the auxiliary supply (R403, R417, R434) -/

/-- CH_PRSNT_LOW (R417, R420): the latch closes; the front end starts inrush, and the insertion is counted. -/
def execChPrsntLow (s : State) : Out :=
  if s.module_.present then .next s
  else
    let s := lifeBump lifeInsertions 1 s
    .next { s with module_ := { s.module_ with present := true }, boot := { s.boot with phase := .aux } }

/-- CH_PRSNT_HIGH (R417, R436): both paths open, and every domain loses power. -/
def execChPrsntHigh (s : State) : Out := if s.module_.present then .next (losePower s) else .next s

/-- AUX_POWER_STABLE (R394, R403): step 1 ends; steps 2 to 6 run on the auxiliary supply. -/
def execAuxPowerStable (f : FuseSense) (s : State) : Out :=
  if s.module_.present ∧ s.boot.phase = .aux then
    .next (gateSettled (bootRom f { s with module_ := { s.module_ with auxOn := true } }))
  else .next s

/-! ## Steps 7 to 14 (R404, R405, R407) -/

/-- A die, and its place in a record. -/
def diePlace (n : Nat) : Place := { die := some n }

/-- Steps 8 to 10: every stack in service trains and is cleared; one that fails gets a STACK_OUT record (R312, R404). -/
def trainStacks (bad : List (Nat × Nat)) (s : State) : State :=
  let s := bad.foldl (fun s (n, k) =>
    let d : DefectRec := { kind := 5, die := n, stack := k }
    if 48 ≤ n ∨ 2 ≤ k ∨ s.defects.contains d then s
    else
      startEvent .diecolOut 0 0 (diePlace n) (fieldDefect d (startEvent .stackFail k 0 (diePlace n) s))) s
  let out := fun (s : State) (n k : Nat) => s.defects.any fun d => decide (d.kind = 5 ∧ d.die = n ∧ d.stack = k)
  (List.range 48).foldl (fun s n => modSpine s n fun _ => { up0 := !out s n 0, up1 := !out s n 1 }) { s with stk := {} }

/-- Step 12 finds a physical tile bad (R405, R309): a DEAD_TILE record with no halt, and SELFTEST_FAIL. -/
def startupDead (n c p : Nat) (s : State) : State :=
  if 48 ≤ n ∨ 128 ≤ c ∨ 66 ≤ p ∨ (deadRows s.defects n c).contains p then s
  else
    startEvent .selftestFail (Config.startupTest (physNum n c p)) (packFields [(c, 7), (p, 7)]) (diePlace n)
      (fieldDefect { kind := 1, die := n, c := c, p := p } (addHistory (.repair n c p) s))

/-- A column left with three or more dead tiles is retired (R305, R310, R405). -/
def startupRetire (n c : Nat) (s : State) : State :=
  let d : DefectRec := { kind := 3, die := n, c := c }
  if (deadRows s.defects n c).dedup.length < 3 ∨ s.defects.contains d then s
  else
    let s := lifeBump lifeRetirements 1 (fieldDefect d (addHistory (.retirement n c) s))
    startEvent (if retiredMax s.defects (n / 6) ≥ 3 then .diecolOut else .columnRetired) (c % 256) 0 (diePlace n) s

/-- Step 12, the start-up self-test, which counts as a CU BIST of every in-use tile. -/
def startupTest (bad : List (Nat × Nat × Nat)) (s : State) : State :=
  let s := bad.foldl (fun s (n, c, p) => startupDead n c p s) s
  let s := bad.foldl (fun s (n, c, _) => startupRetire n c s) s
  { s with sage := { s.sage with bistAll := s.cycle } }

/-- Die columns out of service, and the fuse errors of this start-up reported (R396, R407). -/
def startupColumns (s : State) : State :=
  let s := { s with boot := { s.boot with dead := (mapDead s ++ s.boot.fuseDead).dedup } }
  s.boot.fuseBad.foldl (fun s w => startEvent .fuseError 0 w {} s) s

/-- Metered power of the tick of release. -/
def setWatts (ws : List (Nat × Nat)) (s : State) : State :=
  ws.foldl (fun s (d, w) => if d < 390 then modDom d (fun x => { x with watts := w }) s else s) s

/-- A partition at release (R405, R407): IDLE, or FAULTED with a die column out of service in its band; its capo starts. -/
def releasePart (s : State) (p : Nat) : State :=
  let q := getPart s p
  if q.set_ then
    let dead := s.boot.dead.any fun i => decide (q.lo ≤ i ∧ i ≤ q.hi)
    modPart s p fun q => capoStart s.power.capo (bandWatts s q * wattUnit) { q with st := if dead then .faulted else .idle }
  else s

/-- A port at release (R407). -/
def releasePort (s : State) (o : Nat) : State :=
  modPort s o fun q => { q with memActive := (partOfPort s o).isSome, st := if q.up then .attached else q.st }

/-- Firmware that reaches release in a slot under trial makes it the active one (R408). -/
def confirmTrial (b : Boot) : Boot :=
  if b.latch.trial then writeBoot (fun r => { r with active := b.latch.slot, pending := false }) b else b

/-- Step 14 (R407). -/
def releaseDevice (s : State) : State :=
  let s := (List.range 4).foldl releasePart s
  let s := (List.range 4).foldl releasePort s
  runWaiting { s with boot := confirmTrial { s.boot with phase := .released } }

/-- The conditions of R422 that the device holds. -/
def mainAllowed (s : State) : Bool :=
  let m := s.module_
  decide (s.boot.phase = .waitMain) && m.auxOn && m.wantMain && m.flowOk && !m.flowLatched && !m.epoLatched

/-- MAIN_POWER_ENABLE (R403-R405, R407, R422): every condition of R422 holds, EPO# high and the pairs equal among them; the main
path opens, and steps 7 to 14 run through release. -/
def execMainPowerEnable (r : StartupResult) (s : State) : Out :=
  if mainAllowed s then
    let s := { s with module_ := { s.module_ with mainOn := true, wantMain := false, epoHigh := true } }
    let s := startupColumns (startupTest r.badTiles (trainStacks r.badStacks s))
    .next (releaseDevice (setWatts r.power (gateSettled s)))
  else .next s

/-! ## EPO# and the flow interlock (R422, R425) -/

/-- Firmware runs on Sage and can report. -/
def sageRuns (s : State) : Bool := inService s || decide (s.boot.phase = .waitMain)

/-- EPO_ASSERT (R422): EPO# low for 1 ms opens the main path until a device reset, and raises SUPPLY_FAULT with DETAIL bit 0. -/
def execEpoAssert (s : State) : Out :=
  if !s.module_.auxOn then .next s
  else
    let s := { s with module_ := { s.module_ with epoHigh := false } }
    let s := if s.module_.mainOn then
        let s := loseMain s
        { s with module_ := { s.module_ with epoLatched := true } }
      else s
    .next (if sageRuns s then sageEvent s .supplyFault 0 1 else s)

/-- FLOW_INTERLOCK_CLOSE (R425): the interlock closes, unless it has opened since the last device reset or power cycle. -/
def execFlowInterlockClose (s : State) : Out :=
  if s.module_.auxOn ∧ !s.module_.flowLatched then .next { s with module_ := { s.module_ with flowOk := true } } else .next s

/-- The opening is recorded in the COOLANT_LOW record, with DETAIL bit 1: in one that Sage has not yet received, else in a further
one (R425). -/
def recordOpening (s : State) : State :=
  let q := s.sage.ev.q
  if q.any fun e => decide (e.code = .coolantLow) then
    { s with sage := { s.sage with ev := { s.sage.ev with q := q.map fun e =>
        if e.code = .coolantLow then { e with detail := e.detail ||| 2 } else e } } }
  else sageEvent s .coolantLow 0 2

/-- FLOW_INTERLOCK_OPEN (R425): a closed interlock opens and stays open; a conducting main path opens. -/
def execFlowInterlockOpen (s : State) : Out :=
  if !s.module_.flowOk then .next s
  else
    let s := { s with module_ := { s.module_ with flowOk := false, flowLatched := true } }
    if s.module_.mainOn then .next (recordOpening (loseMain s)) else .next s

/-! ## Sage's lockstep and memory (R411) -/

/-- Cycles of 10 min. -/
abbrev tenMinutes : Nat := 600 * 1800000000

/-- ROM hold: only the always-on domain and the management PHY are powered (R406). -/
def enterRomHold (s : State) : State :=
  let s := modPort (loseMain s) 0 fun q => { q with up := false }
  gateSettled { s with boot := { s.boot with phase := .romHold } }

/-- A lockstep failure with its DETAIL: the record is latched, Sage is reset, the device takes the FATAL path; the third within
10 min ends in ROM hold. -/
def lockstepFail (detail : Nat) (s : State) : State :=
  let e := mkEv .sageLockstep 0 detail s.cycle
  let s := fatalAll e (packRecord {} e 0) s
  let recent := s.boot.lockAt.filter fun c => decide (s.cycle < c + tenMinutes)
  let s := { s with boot := { s.boot with lockAt := recent ++ [s.cycle] }
                    sage := { s.sage with ev := {} }
                    module_ := { s.module_ with wantMain := false } }
  if recent.length ≥ 2 then enterRomHold s else s

/-- SAGE_LOCKSTEP (R295, R411). -/
def execSageLockstep (c : LockstepCause) (s : State) : Out :=
  if !(sageRuns s || decide (s.boot.phase = .recovery)) then .next s
  else match c with
    | .mismatch => .next (lockstepFail 0 s)
    | .sramDouble addr => .next (lockstepFail (2 ^ 63 + addr % 2 ^ 23) s)
    | .sramSingle _ => .next (sageEvent s .sageSramCorrected 0 0)

end Sys2Proof.Machine
end

