-- ==== Sys2Proof/Machine/Sync.lean ====
section
/-!
DEFINITION. Machine/Sync: the meanings of the commands of queues, signals, the stall watchdog and the halt wave (R32,
R171-R180, R194).
-/
namespace Sys2Proof.Machine

/-- QUEUE_FLIT_ARRIVAL (R174, R176-R178): the head of an input at its queue terminal. -/
def execQueueFlitArrival (t : TileId) (i : FlitIn) (s : State) : Out :=
  onTile t s (queueArrive t.x t.y (inputNum i))

/-- MERGE_QUEUE_GRANT (R175): a merge queue with no message open and room for one opens for the string whose first flit
waits longest. -/
def execMergeQueueGrant (t : TileId) (k : Fin 8) (s : State) : Out :=
  onTile t s fun s =>
    let tl := getTile s t.x t.y
    let q := mget {} tl.mu.queues k.val
    match mergeNext tl k.val with
    | none => s
    | some m =>
      match if q.st = .open_ ∧ q.writers.toNat > 1 ∧ q.openBy = none ∧ m.flit.epoch = q.epoch then
          qRoomAt q q.msglen.toNat (deliverAt s t.x t.y (max s.cycle m.due)) else none with
      | some c =>
        let q := qMark c { q with openBy := some m.flit.str, reserved := q.msglen.toNat }
        modTile (advanceTo s c) t.x t.y fun tl =>
          { closeCycle c tl with mu := { tl.mu with queues := mset {} tl.mu.queues k.val q } }
      | none => s

/-- The first refusal that reaches the writer, and the others. -/
def firstRefusal : List (Nat × Nat × Nat × Nat × Nat) →
    Option ((Nat × Nat × Nat × Nat × Nat) × List (Nat × Nat × Nat × Nat × Nat))
  | [] => none
  | r :: rest => match firstRefusal rest with
    | none => some (r, rest)
    | some (b, bs) => if b.2.2.2.2 < r.2.2.2.2 then some (b, r :: bs) else some (r, rest)

/-- PEER_RESET (R178): a refusal reaches the writer; a HALTED writer counts it, another halts and raises the event. -/
def execPeerReset (t : TileId) (s : State) : Out :=
  onTile t s fun s =>
    match firstRefusal (getTile s t.x t.y).fret.refusals with
    | none => s
    | some ((x, y, q, ch, due), rest) =>
      let c := max s.cycle due
      let (n, k) := tilePlace s t.x t.y
      let spans := spansOf s n k
      modTile (advanceTo s c) t.x t.y fun tl =>
        let tl := { tl with fret := { tl.fret with refusals := rest } }
        if tl.tab.st = .halted then bump c .qLate 1 tl
        else tileEvent c .peerReset q (packFields [(x, 10), (y, 9), (ch, 3)]) (haltTile spans c tl)

/-- The scalar word due first at a semaphore terminal, or at a register terminal. -/
def scalarTerm (signal : Bool) (t : Tile) : Option Term :=
  (t.fret.term.filter fun m => scalarInput m.inp && (decide (rTerm true (routeOf t m.inp) = 1) == signal)).foldl
    (fun best m => match best with
      | none => some m
      | some b => if m.due < b.due then some m else some b) none

/-- SCALAR_SIGNAL (R172, R194): a word that ends at a semaphore adds its low 16 bits at the end of its arrival cycle. -/
def execScalarSignal (t : TileId) (s : State) : Out :=
  onTile t s fun s =>
    match scalarTerm true (getTile s t.x t.y) with
    | none => s
    | some m =>
      let c := deliverAt s t.x t.y (max s.cycle m.due)
      let s := takeTerm t.x t.y m.inp c (modTile (advanceTo s c) t.x t.y (countDelivery true m.inp c))
      let s := modTile s t.x t.y fun tl =>
        remoteAdd c (rSemid (routeOf tl m.inp)) (fld m.flit.data.toNat 0 16) (closeCycle c tl)
      releaseToken c m.flit s

/-- SCALAR_REGISTER_WRITE (R194): a word is written into TAB_SRX once VALID is clear, and sets VALID. -/
def execScalarRegisterWrite (t : TileId) (s : State) : Out :=
  onTile t s fun s =>
    let tl := getTile s t.x t.y
    match scalarTerm false tl with
    | none => s
    | some m =>
      if tl.tab.srxValid then s
      else
        let c := deliverAt s t.x t.y (max (max s.cycle m.due) tl.tab.srxFreeAt)
        let s := takeTerm t.x t.y m.inp c (modTile (advanceTo s c) t.x t.y (countDelivery true m.inp c))
        modTile s t.x t.y fun tl =>
          let tl := closeCycle c tl
          { tl with tab := { tl.tab with srx := BitVec.ofNat 32 m.flit.data.toNat, srxValid := true
                                         srxPoison := m.flit.poison, srxWord := some m.flit } }

/-- STALL_TIMEOUT (R180): the stall count has reached 2^LIMIT since the last fire. -/
def execStallTimeout (t : TileId) (s : State) : Out :=
  onTile t s fun s =>
    let tl := getTile s t.x t.y
    if tl.tab.wdCount ≥ 2 ^ tl.tab.wdLimit.toNat ∧ tl.tab.wdTripped = false then
      modTile s t.x t.y fun tl =>
        tileEvent s.cycle .stallTimeout tl.tab.lastCause.toNat tl.tab.pc.toNat
          { tl with tab := { tl.tab with wdTripped := true } }
    else s

/-- The record of a tile joins the stall map of its partition and, with the records of the die in ascending r, the diagnostic
area of the die (R182, Table 11.14). -/
def keepStall (p x y : Nat) (r : BitVec 256) (s : State) : State :=
  let q := getPart s p
  let n := tileDie s x y
  let b := 8192 * (n - 6 * q.lo)
  let m := mset 0 q.stallMap (b + recIndex s x y) r
  let own := m.filter fun (k, _) => decide (b ≤ k ∧ k < b + 8192)
  putDiag n 0x1000000 (own.flatMap fun (_, v) => bytesLE v.toNat 32) (modPart s p fun q => { q with stallMap := m })

/-- A halt wave reaches a tile; that of a SECTION_DEADLOCK takes the stall record of a tile that ran with its PROGRESS clear in
the last tick (R32, R182). -/
def waveAt (p x y c : Nat) (s : State) : State :=
  let t := tileNow s x y
  let s' := haltAt x y c s
  if (getPart s p).mapping ∧ t.tab.st = .running ∧ t.tab.wdLast = false then keepStall p x y (stallRecord x y t) s' else s'

/-- HALT_WAVE (R32, R219): the wave of the tile's partition reaches it, along its column from the nearer edge. -/
def execHaltWave (t : TileId) (s : State) : Out :=
  onTile t s fun s =>
    match (partOfTile s t.x).bind fun p => (getPart s p).wave.map fun w => (p, w) with
    | none => s
    | some (p, w) =>
      let c := max s.cycle (w + min (fromNorth s t.x t.y) (fromSouth s t.x t.y))
      waveAt p t.x t.y c (advanceTo s c)

end Sys2Proof.Machine
end

