-- ==== Sys2Proof/Machine/Tab.lean ====
section
/-!
DEFINITION. Machine/Tab: the meanings of the tab commands: control, moves and semaphores (R21-R31).
-/
namespace Sys2Proof.Machine

/-- NEXT (R25): Tab entry with CTL NEXT fires when its guard holds and advances PC by one. -/
def execNext (t : TileId) (u : Upset) (s : State) : Out :=
  tabCommand (fun e => decide (eCtl e = 0)) t u s

/-- SETLC (R24): Loads loop counter LCSEL from CIMM, where 0 loads 65,536, and advances PC. -/
def execSetlc (t : TileId) (u : Upset) (s : State) : Out :=
  tabCommand (fun e => decide (eCtl e = 1)) t u s

/-- LOOP (R24): Decrements the selected loop counter and branches to the target while the result is non-zero. -/
def execLoop (t : TileId) (u : Upset) (s : State) : Out :=
  tabCommand (fun e => decide (eCtl e = 2)) t u s

/-- JUMP (R21): Sets PC to the target index. -/
def execJump (t : TileId) (u : Upset) (s : State) : Out :=
  tabCommand (fun e => decide (eCtl e = 3)) t u s

/-- DELAY (R31): Fires and starts CIMM idle cycles, during which no guard is evaluated. -/
def execDelay (t : TileId) (u : Upset) (s : State) : Out :=
  tabCommand (fun e => decide (eCtl e = 4)) t u s

/-- END (R278): Tile enters ENDED, records its END cycle, closes its queues and compares its counters with the prediction block into TAB_PLAN. -/
def execEndTab (t : TileId) (u : Upset) (s : State) : Out :=
  tabCommand (fun e => decide (eCtl e = 5)) t u s

/-- TAB_MOVE (R25): Entry with UNIT 0 moves a source flit, slot or scalar to the MU, the vector network or the scalar network. -/
def execTabMove (t : TileId) (u : Upset) (s : State) : Out :=
  tabCommand (fun e => decide (eUnit e = 0 ∧ eDst e ≠ 0)) t u s

/-- SEM_WAIT_GE (R28): Entry waits until the semaphore is at least SEMVAL, leaving it unchanged. -/
def execSemWaitGe (t : TileId) (u : Upset) (s : State) : Out :=
  tabCommand (fun e => decide (eSemop e = 1)) t u s

/-- SEM_ADD (R28): Adds SEMVAL to the semaphore at fire, judging local overflow against its capacity. -/
def execSemAdd (t : TileId) (u : Upset) (s : State) : Out :=
  tabCommand (fun e => decide (eSemop e = 2)) t u s

/-- SEM_SUB (R28): Subtracts SEMVAL at fire, or faults with SEM_UNDERFLOW when the result would fall below zero. -/
def execSemSub (t : TileId) (u : Upset) (s : State) : Out :=
  tabCommand (fun e => decide (eSemop e = 3)) t u s

/-- SEM_WAIT_GE_SUB (R28): Waits for the semaphore to be at least SEMVAL, then subtracts SEMVAL at fire. -/
def execSemWaitGeSub (t : TileId) (u : Upset) (s : State) : Out :=
  tabCommand (fun e => decide (eSemop e = 4)) t u s

/-- SEM2_ADD (R28): Second semaphore operation adds SEM2VAL at fire, with no guard term. -/
def execSem2Add (t : TileId) (u : Upset) (s : State) : Out :=
  tabCommand (fun e => decide (eSem2op e = 1)) t u s

/-- SEM2_SUB (R28): Second semaphore operation subtracts SEM2VAL at fire, with no guard term. -/
def execSem2Sub (t : TileId) (u : Upset) (s : State) : Out :=
  tabCommand (fun e => decide (eSem2op e = 2)) t u s

/-- DELAY_EXPIRY (R31): the idle cycles left are counted, stretched cycles among them as DROOP slips, and PC advances. -/
def execDelayExpiry (t : TileId) (s : State) : Out :=
  onTile t s fun s =>
    let tl := getTile s t.x t.y
    if tl.tab.st = .running ∧ tl.tab.delaying then
      let (n, q) := tilePlace s t.x t.y
      let after := idleUntil (spansOf s n q) (tl.tab.nextCore + 2 * tl.tab.delayLeft + 40 * (spansOf s n q).length + 2) tl
      setTile (advanceTo s (after.tab.nextCore - 1)) t.x t.y after
    else s

/-- TAB_MOVE_LAND (R25): the result of an entry without a CU operation lands in the cycle after its fire. -/
def execTabMoveLand (t : TileId) (s : State) : Out :=
  landCommand (fun w => match w with
    | .move _ => true
    | _ => false) t 0 s

end Sys2Proof.Machine
end

