-- ==== Sys2Proof/Machine/Vector.lean ====
section
/-!
DEFINITION. Machine/Vector: the meanings of the commands of the vector pipeline and compressor (R98-R117).
-/
namespace Sys2Proof.Machine

/-- VMOV (R100): Copies operand A bit for bit. -/
def execVmov (t : TileId) (u : Upset) (s : State) : Out :=
  tabCommand (fun e => decide (eUnit e = 3 ∧ eCuop e = 0x01)) t u s

/-- VADD (R102): Element-wise addition, rounded once. -/
def execVadd (t : TileId) (u : Upset) (s : State) : Out :=
  tabCommand (fun e => decide (eUnit e = 3 ∧ eCuop e = 0x02)) t u s

/-- VSUB (R102): Element-wise subtraction, rounded once. -/
def execVsub (t : TileId) (u : Upset) (s : State) : Out :=
  tabCommand (fun e => decide (eUnit e = 3 ∧ eCuop e = 0x03)) t u s

/-- VMUL (R102): Element-wise multiplication, rounded once. -/
def execVmul (t : TileId) (u : Upset) (s : State) : Out :=
  tabCommand (fun e => decide (eUnit e = 3 ∧ eCuop e = 0x04)) t u s

/-- VMIN (R102): Element-wise minimum. -/
def execVmin (t : TileId) (u : Upset) (s : State) : Out :=
  tabCommand (fun e => decide (eUnit e = 3 ∧ eCuop e = 0x05)) t u s

/-- VMAX (R102): Element-wise maximum. -/
def execVmax (t : TileId) (u : Upset) (s : State) : Out :=
  tabCommand (fun e => decide (eUnit e = 3 ∧ eCuop e = 0x06)) t u s

/-- VABS (R102): Element-wise absolute value. -/
def execVabs (t : TileId) (u : Upset) (s : State) : Out :=
  tabCommand (fun e => decide (eUnit e = 3 ∧ eCuop e = 0x07)) t u s

/-- VNEG (R102): Element-wise negation. -/
def execVneg (t : TileId) (u : Upset) (s : State) : Out :=
  tabCommand (fun e => decide (eUnit e = 3 ∧ eCuop e = 0x08)) t u s

/-- VCMPGT (R102): All ones where A is greater than B, else zero. -/
def execVcmpgt (t : TileId) (u : Upset) (s : State) : Out :=
  tabCommand (fun e => decide (eUnit e = 3 ∧ eCuop e = 0x09)) t u s

/-- VCMPEQ (R102): All ones where A equals B, else zero. -/
def execVcmpeq (t : TileId) (u : Upset) (s : State) : Out :=
  tabCommand (fun e => decide (eUnit e = 3 ∧ eCuop e = 0x0A)) t u s

/-- VAND (R100): Bitwise AND on 512 bits. -/
def execVand (t : TileId) (u : Upset) (s : State) : Out :=
  tabCommand (fun e => decide (eUnit e = 3 ∧ eCuop e = 0x0B)) t u s

/-- VOR (R100): Bitwise OR on 512 bits. -/
def execVor (t : TileId) (u : Upset) (s : State) : Out :=
  tabCommand (fun e => decide (eUnit e = 3 ∧ eCuop e = 0x0C)) t u s

/-- VXOR (R100): Bitwise XOR on 512 bits. -/
def execVxor (t : TileId) (u : Upset) (s : State) : Out :=
  tabCommand (fun e => decide (eUnit e = 3 ∧ eCuop e = 0x0D)) t u s

/-- VSHL (R102): Shifts integer elements left, with wrap. -/
def execVshl (t : TileId) (u : Upset) (s : State) : Out :=
  tabCommand (fun e => decide (eUnit e = 3 ∧ eCuop e = 0x0E)) t u s

/-- VSHR (R102): Shifts integer elements arithmetically right. -/
def execVshr (t : TileId) (u : Upset) (s : State) : Out :=
  tabCommand (fun e => decide (eUnit e = 3 ∧ eCuop e = 0x0F)) t u s

/-- VRCP (R102): Correctly rounded binary32 reciprocal. -/
def execVrcp (t : TileId) (u : Upset) (s : State) : Out :=
  tabCommand (fun e => decide (eUnit e = 3 ∧ eCuop e = 0x10)) t u s

/-- VRSQRT (R102): Correctly rounded binary32 reciprocal square root. -/
def execVrsqrt (t : TileId) (u : Upset) (s : State) : Out :=
  tabCommand (fun e => decide (eUnit e = 3 ∧ eCuop e = 0x11)) t u s

/-- VEXP2 (R102): Correctly rounded binary32 power of two. -/
def execVexp2 (t : TileId) (u : Upset) (s : State) : Out :=
  tabCommand (fun e => decide (eUnit e = 3 ∧ eCuop e = 0x12)) t u s

/-- VLOG2 (R102): Correctly rounded binary32 base-2 logarithm. -/
def execVlog2 (t : TileId) (u : Upset) (s : State) : Out :=
  tabCommand (fun e => decide (eUnit e = 3 ∧ eCuop e = 0x13)) t u s

/-- VRSUM (R103): Sums the 16 lanes in a fixed tree into lane 0. -/
def execVrsum (t : TileId) (u : Upset) (s : State) : Out :=
  tabCommand (fun e => decide (eUnit e = 3 ∧ eCuop e = 0x14)) t u s

/-- VRMAX (R103): Maximum of the 16 lanes in a fixed tree, into lane 0. -/
def execVrmax (t : TileId) (u : Upset) (s : State) : Out :=
  tabCommand (fun e => decide (eUnit e = 3 ∧ eCuop e = 0x15)) t u s

/-- CVT_W (R105): Widens element group g of operand A into 16 lanes. -/
def execCvtW (t : TileId) (u : Upset) (s : State) : Out :=
  tabCommand (fun e => decide (eUnit e = 3 ∧ 0x18 ≤ eCuop e ∧ eCuop e ≤ 0x1F)) t u s

/-- CVT_N (R106): Narrows 16 elements into the pack buffer and emits the buffer when DST is set. -/
def execCvtN (t : TileId) (u : Upset) (s : State) : Out :=
  tabCommand (fun e => decide (eUnit e = 3 ∧ eCuop e = 0x20)) t u s

/-- CVT_NB (R107): Block-scaled narrowing of 32 values into the pack buffer, with the block scale into the scale buffer. -/
def execCvtNb (t : TileId) (u : Upset) (s : State) : Out :=
  tabCommand (fun e => decide (eUnit e = 3 ∧ eCuop e = 0x21)) t u s

/-- PACK_SCL (R107): Emits the scale buffer and clears it. -/
def execPackScl (t : TileId) (u : Upset) (s : State) : Out :=
  tabCommand (fun e => decide (eUnit e = 3 ∧ eCuop e = 0x22)) t u s

/-- PACK_MSK (R110): Emits the mask buffer and clears it. -/
def execPackMsk (t : TileId) (u : Upset) (s : State) : Out :=
  tabCommand (fun e => decide (eUnit e = 3 ∧ eCuop e = 0x23)) t u s

/-- CVT_WB (R105): Widens and block-scales element group g of operand A. -/
def execCvtWb (t : TileId) (u : Upset) (s : State) : Out :=
  tabCommand (fun e => decide (eUnit e = 3 ∧ 0x28 ≤ eCuop e ∧ eCuop e ≤ 0x2F)) t u s

/-- CMP_24P (R130): 2:4 compression in PRUNE mode, keeping the two largest values of each group. -/
def execCmp24p (t : TileId) (u : Upset) (s : State) : Out :=
  tabCommand (fun e => decide (eUnit e = 3 ∧ eCuop e = 0x30)) t u s

/-- CMP_24F (R130): 2:4 compression in FAULT mode, poisoning and reporting overfull groups. -/
def execCmp24f (t : TileId) (u : Upset) (s : State) : Out :=
  tabCommand (fun e => decide (eUnit e = 3 ∧ eCuop e = 0x31)) t u s

/-- CMP_SEG (R111): Appends the non-zero elements to the segment buffer and writes a full segment. -/
def execCmpSeg (t : TileId) (u : Upset) (s : State) : Out :=
  tabCommand (fun e => decide (eUnit e = 3 ∧ eCuop e = 0x38)) t u s

/-- CMP_FLUSH (R111): Writes the pending pairs as a final padded segment. -/
def execCmpFlush (t : TileId) (u : Upset) (s : State) : Out :=
  tabCommand (fun e => decide (eUnit e = 3 ∧ eCuop e = 0x39)) t u s

/-- CMP_COUNT (R111): Emits SEGCNT as a unit. -/
def execCmpCount (t : TileId) (u : Upset) (s : State) : Out :=
  tabCommand (fun e => decide (eUnit e = 3 ∧ eCuop e = 0x3A)) t u s

/-- CMP_RESET (R111): Discards pending pairs, clears SEGCNT and sets POS. -/
def execCmpReset (t : TileId) (u : Upset) (s : State) : Out :=
  tabCommand (fun e => decide (eUnit e = 3 ∧ eCuop e = 0x3B)) t u s

/-- VECTOR_V6 (R98, R116): the oldest vector entry in flight leaves V6; the mask names the lanes with a residue mismatch
(R114). -/
def execVectorV6 (t : TileId) (mism : Nat) (s : State) : Out :=
  landCommand (fun w => match w with
    | .vec _ _ _ => true
    | _ => false) t mism s

end Sys2Proof.Machine
end

