-- ==== Sys2Proof/Machine/Dispatch.lean ====
section
/-!
DEFINITION. Machine/Dispatch: one arm per command, each a call of its meaning.
-/
namespace Sys2Proof.Machine

def exec (i : Instr) (s : State) : Host.Outcome State Fault Refusal :=
  match i with
  | .next t u => Sys2Proof.Machine.execNext t u s
  | .setlc t u => Sys2Proof.Machine.execSetlc t u s
  | .loop t u => Sys2Proof.Machine.execLoop t u s
  | .jump t u => Sys2Proof.Machine.execJump t u s
  | .delay t u => Sys2Proof.Machine.execDelay t u s
  | .delayExpiry t => Sys2Proof.Machine.execDelayExpiry t s
  | .endTab t u => Sys2Proof.Machine.execEndTab t u s
  | .tabMove t u => Sys2Proof.Machine.execTabMove t u s
  | .semWaitGe t u => Sys2Proof.Machine.execSemWaitGe t u s
  | .semAdd t u => Sys2Proof.Machine.execSemAdd t u s
  | .semSub t u => Sys2Proof.Machine.execSemSub t u s
  | .semWaitGeSub t u => Sys2Proof.Machine.execSemWaitGeSub t u s
  | .sem2Add t u => Sys2Proof.Machine.execSem2Add t u s
  | .sem2Sub t u => Sys2Proof.Machine.execSem2Sub t u s
  | .arrLoad t u => Sys2Proof.Machine.execArrLoad t u s
  | .arrLoadsc t u => Sys2Proof.Machine.execArrLoadsc t u s
  | .arrSwap t u => Sys2Proof.Machine.execArrSwap t u s
  | .mac t u => Sys2Proof.Machine.execMac t u s
  | .macHl t u => Sys2Proof.Machine.execMacHl t u s
  | .macLh t u => Sys2Proof.Machine.execMacLh t u s
  | .macHh t u => Sys2Proof.Machine.execMacHh t u s
  | .macP20 t u => Sys2Proof.Machine.execMacP20 t u s
  | .macP11 t u => Sys2Proof.Machine.execMacP11 t u s
  | .macP02 t u => Sys2Proof.Machine.execMacP02 t u s
  | .macP21 t u => Sys2Proof.Machine.execMacP21 t u s
  | .macP12 t u => Sys2Proof.Machine.execMacP12 t u s
  | .macP22 t u => Sys2Proof.Machine.execMacP22 t u s
  | .arrDrain t u => Sys2Proof.Machine.execArrDrain t u s
  | .mode t u => Sys2Proof.Machine.execMode t u s
  | .arrayContributionLand t mism => Sys2Proof.Machine.execArrayContributionLand t mism s
  | .drainFlit t => Sys2Proof.Machine.execDrainFlit t s
  | .spLoad t u => Sys2Proof.Machine.execSpLoad t u s
  | .loadm t u => Sys2Proof.Machine.execLoadm t u s
  | .spLoadsc t u => Sys2Proof.Machine.execSpLoadsc t u s
  | .spSwap t u => Sys2Proof.Machine.execSpSwap t u s
  | .mac24 t u => Sys2Proof.Machine.execMac24 t u s
  | .mac24Land t mism => Sys2Proof.Machine.execMac24Land t mism s
  | .gload t u => Sys2Proof.Machine.execGload t u s
  | .beginStep t u => Sys2Proof.Machine.execBeginStep t u s
  | .seg t u => Sys2Proof.Machine.execSeg t u s
  | .segLand t mism => Sys2Proof.Machine.execSegLand t mism s
  | .fallbackFetch t e => Sys2Proof.Machine.execFallbackFetch t e s
  | .fallbackChunkIssue t => Sys2Proof.Machine.execFallbackChunkIssue t s
  | .sparseStepComplete t => Sys2Proof.Machine.execSparseStepComplete t s
  | .spDrain t u => Sys2Proof.Machine.execSpDrain t u s
  | .vmov t u => Sys2Proof.Machine.execVmov t u s
  | .vadd t u => Sys2Proof.Machine.execVadd t u s
  | .vsub t u => Sys2Proof.Machine.execVsub t u s
  | .vmul t u => Sys2Proof.Machine.execVmul t u s
  | .vmin t u => Sys2Proof.Machine.execVmin t u s
  | .vmax t u => Sys2Proof.Machine.execVmax t u s
  | .vabs t u => Sys2Proof.Machine.execVabs t u s
  | .vneg t u => Sys2Proof.Machine.execVneg t u s
  | .vcmpgt t u => Sys2Proof.Machine.execVcmpgt t u s
  | .vcmpeq t u => Sys2Proof.Machine.execVcmpeq t u s
  | .vand t u => Sys2Proof.Machine.execVand t u s
  | .vor t u => Sys2Proof.Machine.execVor t u s
  | .vxor t u => Sys2Proof.Machine.execVxor t u s
  | .vshl t u => Sys2Proof.Machine.execVshl t u s
  | .vshr t u => Sys2Proof.Machine.execVshr t u s
  | .vrcp t u => Sys2Proof.Machine.execVrcp t u s
  | .vrsqrt t u => Sys2Proof.Machine.execVrsqrt t u s
  | .vexp2 t u => Sys2Proof.Machine.execVexp2 t u s
  | .vlog2 t u => Sys2Proof.Machine.execVlog2 t u s
  | .vrsum t u => Sys2Proof.Machine.execVrsum t u s
  | .vrmax t u => Sys2Proof.Machine.execVrmax t u s
  | .cvtW t u => Sys2Proof.Machine.execCvtW t u s
  | .cvtN t u => Sys2Proof.Machine.execCvtN t u s
  | .cvtNb t u => Sys2Proof.Machine.execCvtNb t u s
  | .packScl t u => Sys2Proof.Machine.execPackScl t u s
  | .packMsk t u => Sys2Proof.Machine.execPackMsk t u s
  | .cvtWb t u => Sys2Proof.Machine.execCvtWb t u s
  | .cmp24p t u => Sys2Proof.Machine.execCmp24p t u s
  | .cmp24f t u => Sys2Proof.Machine.execCmp24f t u s
  | .cmpSeg t u => Sys2Proof.Machine.execCmpSeg t u s
  | .cmpFlush t u => Sys2Proof.Machine.execCmpFlush t u s
  | .cmpCount t u => Sys2Proof.Machine.execCmpCount t u s
  | .cmpReset t u => Sys2Proof.Machine.execCmpReset t u s
  | .vectorV6 t mism => Sys2Proof.Machine.execVectorV6 t mism s
  | .extMark t => Sys2Proof.Machine.execExtMark t s
  | .nonTabWriteGrant t => Sys2Proof.Machine.execNonTabWriteGrant t s
  | .fillblockLand t => Sys2Proof.Machine.execFillblockLand t s
  | .packetReadClaim t => Sys2Proof.Machine.execPacketReadClaim t s
  | .packetReadGrant t e => Sys2Proof.Machine.execPacketReadGrant t e s
  | .bulkSlotWrite t e => Sys2Proof.Machine.execBulkSlotWrite t e s
  | .accumulateWriteArrival t => Sys2Proof.Machine.execAccumulateWriteArrival t s
  | .cbIdleDrain t => Sys2Proof.Machine.execCbIdleDrain t s
  | .cbDrain t => Sys2Proof.Machine.execCbDrain t s
  | .wwrite t => Sys2Proof.Machine.execWwrite t s
  | .mread t => Sys2Proof.Machine.execMread t s
  | .mcmd t => Sys2Proof.Machine.execMcmd t s
  | .resp p => Sys2Proof.Machine.execResp p s
  | .cfgw t => Sys2Proof.Machine.execCfgw t s
  | .queueFlitArrival t inp => Sys2Proof.Machine.execQueueFlitArrival t inp s
  | .mergeQueueGrant t q => Sys2Proof.Machine.execMergeQueueGrant t q s
  | .peerReset t => Sys2Proof.Machine.execPeerReset t s
  | .scalarSignal t => Sys2Proof.Machine.execScalarSignal t s
  | .scalarRegisterWrite t => Sys2Proof.Machine.execScalarRegisterWrite t s
  | .stallTimeout t => Sys2Proof.Machine.execStallTimeout t s
  | .managementTick m => Sys2Proof.Machine.execManagementTick m s
  | .sectionDeadlock p => Sys2Proof.Machine.execSectionDeadlock p s
  | .endedReduction p => Sys2Proof.Machine.execEndedReduction p s
  | .haltWave t => Sys2Proof.Machine.execHaltWave t s
  | .flitHop t inp u => Sys2Proof.Machine.execFlitHop t inp u s
  | .course5Aged t d => Sys2Proof.Machine.execCourse5Aged t d s
  | .hopCreditReturn t d lane => Sys2Proof.Machine.execHopCreditReturn t d lane s
  | .windowTokenReturn t ch => Sys2Proof.Machine.execWindowTokenReturn t ch s
  | .retryRequest t d net => Sys2Proof.Machine.execRetryRequest t d net s
  | .linkFail t d => Sys2Proof.Machine.execLinkFail t d s
  | .packetHop src => Sys2Proof.Machine.execPacketHop src s
  | .wireSteer w => Sys2Proof.Machine.execWireSteer w s
  | .cxlMemRead port hpa cached => Sys2Proof.Machine.execCxlMemRead port hpa cached s
  | .cxlMemWrite port w => Sys2Proof.Machine.execCxlMemWrite port w s
  | .dramReadReturn d sl e => Sys2Proof.Machine.execDramReadReturn d sl e s
  | .mergeEntryExpiry d sl => Sys2Proof.Machine.execMergeEntryExpiry d sl s
  | .refreshPhase e => Sys2Proof.Machine.execRefreshPhase e s
  | .stackStreamStart d k => Sys2Proof.Machine.execStackStreamStart d k s
  | .stackStreamPacket d k => Sys2Proof.Machine.execStackStreamPacket d k s
  | .eventRecord src => Sys2Proof.Machine.execEventRecord src s
  | .load p => Sys2Proof.Machine.execLoad p s
  | .restore p => Sys2Proof.Machine.execRestore p s
  | .finish p => Sys2Proof.Machine.execFinish p s
  | .drainStart p => Sys2Proof.Machine.execDrainStart p s
  | .drainSample p => Sys2Proof.Machine.execDrainSample p s
  | .spillsComplete p => Sys2Proof.Machine.execSpillsComplete p s
  | .checkpointCaptureComplete p => Sys2Proof.Machine.execCheckpointCaptureComplete p s
  | .forcedPathInflightClear p => Sys2Proof.Machine.execForcedPathInflightClear p s
  | .imageLoadComplete p => Sys2Proof.Machine.execImageLoadComplete p s
  | .release p => Sys2Proof.Machine.execRelease p s
  | .replayNextLoad p => Sys2Proof.Machine.execReplayNextLoad p s
  | .tileFault t trig => Sys2Proof.Machine.execTileFault t trig s
  | .repairHistoryWritten p => Sys2Proof.Machine.execRepairHistoryWritten p s
  | .remapCommitted p => Sys2Proof.Machine.execRemapCommitted p s
  | .selftestComplete r => Sys2Proof.Machine.execSelftestComplete r s
  | .selftestOverdue p => Sys2Proof.Machine.execSelftestOverdue p s
  | .spareTileTest d failed => Sys2Proof.Machine.execSpareTileTest d failed s
  | .markedUnitRetest r pass => Sys2Proof.Machine.execMarkedUnitRetest r pass s
  | .sensorCalibration => Sys2Proof.Machine.execSensorCalibration s
  | .historyCounterWrite => Sys2Proof.Machine.execHistoryCounterWrite s
  | .syslogSummary => Sys2Proof.Machine.execSyslogSummary s
  | .reportLost => Sys2Proof.Machine.execReportLost s
  | .partitionQuery m => Sys2Proof.Machine.execPartitionQuery m s
  | .policySet m => Sys2Proof.Machine.execPolicySet m s
  | .submitList m host => Sys2Proof.Machine.execSubmitList m host s
  | .eventRead m => Sys2Proof.Machine.execEventRead m s
  | .tileRead m => Sys2Proof.Machine.execTileRead m s
  | .spineRead m => Sys2Proof.Machine.execSpineRead m s
  | .stallMap m => Sys2Proof.Machine.execStallMap m s
  | .sectionRead m => Sys2Proof.Machine.execSectionRead m s
  | .diagRead m => Sys2Proof.Machine.execDiagRead m s
  | .selftest m => Sys2Proof.Machine.execSelftest m s
  | .attest m => Sys2Proof.Machine.execAttest m s
  | .ideKey m => Sys2Proof.Machine.execIdeKey m s
  | .detach m => Sys2Proof.Machine.execDetach m s
  | .detachTimeout port => Sys2Proof.Machine.execDetachTimeout port s
  | .attach m => Sys2Proof.Machine.execAttach m s
  | .recBegin m => Sys2Proof.Machine.execRecBegin m s
  | .recData m => Sys2Proof.Machine.execRecData m s
  | .recCommit m => Sys2Proof.Machine.execRecCommit m s
  | .listStart p eng => Sys2Proof.Machine.execListStart p eng s
  | .entryComplete p eng => Sys2Proof.Machine.execEntryComplete p eng s
  | .h2s p => Sys2Proof.Machine.execH2s p s
  | .s2h p => Sys2Proof.Machine.execS2h p s
  | .s2s p => Sys2Proof.Machine.execS2s p s
  | .img p => Sys2Proof.Machine.execImg p s
  | .h2t p => Sys2Proof.Machine.execH2t p s
  | .s2t p => Sys2Proof.Machine.execS2t p s
  | .t2h p => Sys2Proof.Machine.execT2h p s
  | .t2s p => Sys2Proof.Machine.execT2s p s
  | .tcmd p => Sys2Proof.Machine.execTcmd p s
  | .confirmPoll p => Sys2Proof.Machine.execConfirmPoll p s
  | .entryTimeout p => Sys2Proof.Machine.execEntryTimeout p s
  | .arm p => Sys2Proof.Machine.execArm p s
  | .disarm p => Sys2Proof.Machine.execDisarm p s
  | .cxlCacheResponse p r => Sys2Proof.Machine.execCxlCacheResponse p r s
  | .cxlCacheTimeout p => Sys2Proof.Machine.execCxlCacheTimeout p s
  | .birsp port line wb => Sys2Proof.Machine.execBirsp port line wb s
  | .hostSnoop port addr => Sys2Proof.Machine.execHostSnoop port addr s
  | .hdmDecoderCommit port base size ways => Sys2Proof.Machine.execHdmDecoderCommit port base size ways s
  | .ideEnable port keyset => Sys2Proof.Machine.execIdeEnable port keyset s
  | .ideIntegrityFail port => Sys2Proof.Machine.execIdeIntegrityFail port s
  | .cdatRead port => Sys2Proof.Machine.execCdatRead port s
  | .registerWrite port off v => Sys2Proof.Machine.execRegisterWrite port off v s
  | .functionLevelReset port => Sys2Proof.Machine.execFunctionLevelReset port s
  | .linkUp port r => Sys2Proof.Machine.execLinkUp port r s
  | .hostLinkDown port => Sys2Proof.Machine.execHostLinkDown port s
  | .linkDownTimeout port => Sys2Proof.Machine.execLinkDownTimeout port s
  | .keyPairExpiry port => Sys2Proof.Machine.execKeyPairExpiry port s
  | .partitionSet ps force => Sys2Proof.Machine.execPartitionSet ps force s
  | .capoSettings c => Sys2Proof.Machine.execCapoSettings c s
  | .redfishPolicySet p r lock => Sys2Proof.Machine.execRedfishPolicySet p r lock s
  | .redfishSelftest p r => Sys2Proof.Machine.execRedfishSelftest p r s
  | .firmwareUpdate img => Sys2Proof.Machine.execFirmwareUpdate img s
  | .computerSystemReset force => Sys2Proof.Machine.execComputerSystemReset force s
  | .commitVersion => Sys2Proof.Machine.execCommitVersion s
  | .enterRecovery => Sys2Proof.Machine.execEnterRecovery s
  | .prepareRemoval force => Sys2Proof.Machine.execPrepareRemoval force s
  | .devidCertWrite cert => Sys2Proof.Machine.execDevidCertWrite cert s
  | .recoveryImagePut img => Sys2Proof.Machine.execRecoveryImagePut img s
  | .recoveryStatusGet => Sys2Proof.Machine.execRecoveryStatusGet s
  | .chPrsntLow => Sys2Proof.Machine.execChPrsntLow s
  | .chPrsntHigh => Sys2Proof.Machine.execChPrsntHigh s
  | .auxPowerStable f => Sys2Proof.Machine.execAuxPowerStable f s
  | .mainPowerEnable r => Sys2Proof.Machine.execMainPowerEnable r s
  | .epoAssert => Sys2Proof.Machine.execEpoAssert s
  | .flowInterlockClose => Sys2Proof.Machine.execFlowInterlockClose s
  | .flowInterlockOpen => Sys2Proof.Machine.execFlowInterlockOpen s
  | .coolantLow c => Sys2Proof.Machine.execCoolantLow c s
  | .supplyFault c => Sys2Proof.Machine.execSupplyFault c s
  | .thermalTrip dom temp => Sys2Proof.Machine.execThermalTrip dom temp s
  | .quadrantTrip d q => Sys2Proof.Machine.execQuadrantTrip d q s
  | .quadrantOff d q => Sys2Proof.Machine.execQuadrantOff d q s
  | .droopTrip d q => Sys2Proof.Machine.execDroopTrip d q s
  | .dividerRampStep dom => Sys2Proof.Machine.execDividerRampStep dom s
  | .sageLockstep c => Sys2Proof.Machine.execSageLockstep c s
  | .tabMoveLand t => Sys2Proof.Machine.execTabMoveLand t s
  | .fallbackChunkLand t mism => Sys2Proof.Machine.execFallbackChunkLand t mism s
  | .powerSwitchRamp dom => Sys2Proof.Machine.execPowerSwitchRamp dom s
  | .bridgeWireTuning w bad => Sys2Proof.Machine.execBridgeWireTuning w bad s
  | .stackFailure d k => Sys2Proof.Machine.execStackFailure d k s
  | .ringFailure => Sys2Proof.Machine.execRingFailure s
  | .unknownOpcode m opcode => Sys2Proof.Machine.execUnknownOpcode m opcode s

end Sys2Proof.Machine
end

