-- ==== Sys2Proof/Machine/Step.lean ====
section
/-!
DEFINITION. Machine/Step: one step takes the command at the front of the queue; with no command waiting, a device cycle
passes.
-/
namespace Sys2Proof.Machine

/-- One step: the command at the front of the queue acts on the device with the queue's rest; on an empty queue the device
cycle count advances. -/
def step (s : State) : Host.Outcome State Fault Refusal :=
  match s.pending with
  | [] => .next { s with cycle := s.cycle + 1 }
  | c :: rest => exec c { s with pending := rest }

/-- The command a word spells, put at the front of the queue: the table of commands gives no bits, so no word spells one. -/
def State.withFetchWord (s : State) (_nbits _w : Nat) : State := s

end Sys2Proof.Machine
end

