-- ==== Sys2Proof/WellFormed.lean ====
section
/-!
DEFINITION. WellFormed: the operands a command can have: coordinates, domain and word numbers, lengths and addresses within
the ranges the spec gives them; the tile a command acts on. The meanings are total on every operand; this says which operands
name something.
-/
namespace Sys2Proof

/-- A coordinate of the largest logical grid: 1,024 columns and 384 rows (R7). -/
def TileId.wf (t : TileId) : Bool := decide (t.x < 1024 ∧ t.y < 384)

/-- A mailbox request fits SGM_REQ: at most 4,096 bytes (Table 12.4, R342). -/
def MailCmd.wf (m : MailCmd) : Bool := decide (m.len ≤ 4096 ∧ m.req.length ≤ 4096)

/-- A power domain of Table 13.1 (R365). -/
def domWf (d : Nat) : Bool := decide (d < 390)

/-- Readings name domains, and tiles of the grid (R366, R387). -/
def Meters.wf (m : Meters) : Bool :=
  m.dom.all (fun q => domWf q.1) && m.temps.all (fun q => domWf q.1) && m.silent.all TileId.wf

/-- A packet stands at a fret of the grid. -/
def PktSrc.wf : PktSrc → Bool
  | .ring t => t.wf
  | .fret t _ _ => t.wf

/-- The tile at whose fret the packet stands or enters. -/
def PktSrc.tile : PktSrc → TileId
  | .ring t => t
  | .fret t _ _ => t

/-- A bridge lane's wire group: 48 dies, 4 edges, a lane of at most 128 columns or 64 rows, 39 groups (R206). -/
def WireGroup.wf (w : WireGroup) : Bool := decide (w.die < 48 ∧ w.edge < 4 ∧ w.lane < 128 ∧ w.group < 39)

/-- A source of events exists (R297). -/
def EvSrc.wf : EvSrc → Bool
  | .tile t => t.wf
  | _ => true

/-- A physical tile: 48 dies of 128 columns and 66 rows (R2, R8). -/
def physWf (die c p : Nat) : Bool := decide (die < 48 ∧ c < 128 ∧ p < 66)

/-- A self-test result names a physical tile, a stack, or tiles of the grid (R313). -/
def TestResult.wf : TestResult → Bool
  | .tile _ die c p _ => physWf die c p
  | .stack _ _ _ => true
  | .ticket _ _ bad => bad.all TileId.wf

/-- A defect record has a kind of Table 11.8 and a place. -/
def DefectRec.wf (d : DefectRec) : Bool :=
  decide (1 ≤ d.kind ∧ d.kind ≤ 6) && physWf d.die d.c d.p && decide (d.edge < 4 ∧ d.stack < 2 ∧ d.quad < 4)

/-- Stacks and physical tiles of a start-up result (R404, R405). -/
def StartupResult.wf (r : StartupResult) : Bool :=
  r.badStacks.all (fun q => decide (q.1 < 48 ∧ q.2 < 2)) && r.badTiles.all (fun q => physWf q.1 q.2.1 q.2.2)
  && r.power.all (fun q => domWf q.1)

/-- A test request names every tile or one of the grid (R348). -/
def TestReq.wf (r : TestReq) : Bool :=
  match r.tile with
  | some t => t.wf
  | none => true

/-- The ranges of Table 13.3 are the request's to check; a request carries 16-bit numbers. -/
def CapoReq.wf (c : CapoReq) : Bool :=
  c.cap.all (fun v => decide (v < 65536)) && c.ramp.all (fun v => decide (v < 65536))
  && c.floor.all (fun v => decide (v < 65536)) && c.cpv.all (fun v => decide (v < 65536))

/-- Policies fit the fields of Table 12.11. -/
def PolicyReq.wf (r : PolicyReq) : Bool :=
  r.limit.all (fun v => decide (v < 32)) && r.dlticks.all (fun v => decide (v < 2048))
  && r.maint.all (fun q => decide (q.2 < 1024)) && r.hplim.all (fun v => decide (v < 65536))

/-- A supply fault names a regulator of a domain (R389). -/
def SupplyCause.wf : SupplyCause → Bool
  | .regulator d => domWf d
  | _ => true

/-- An address of Sage's memory as an event's DETAIL holds it (R411). -/
def LockstepCause.wf : LockstepCause → Bool
  | .mismatch => true
  | .sramDouble a => decide (a < 2 ^ 64)
  | .sramSingle a => decide (a < 2 ^ 64)

/-- A band of die columns 0-7 (R336). -/
def PartDef.wf (p : PartDef) : Bool := decide (p.lo ≤ p.hi ∧ p.hi < 8)

/-- A scrub finding names a die and a chunk of its 128 GiB (R242). -/
def ScrubFind.wf (f : ScrubFind) : Bool := decide (f.die < 48 ∧ f.chunk < 2 ^ 31)

/-- The command's operands are within their ranges. -/
def Instr.wf (i : Instr) : Bool :=
  match i with
  | .next t _ => t.wf
  | .setlc t _ => t.wf
  | .loop t _ => t.wf
  | .jump t _ => t.wf
  | .delay t _ => t.wf
  | .delayExpiry t => t.wf
  | .endTab t _ => t.wf
  | .tabMove t _ => t.wf
  | .semWaitGe t _ => t.wf
  | .semAdd t _ => t.wf
  | .semSub t _ => t.wf
  | .semWaitGeSub t _ => t.wf
  | .sem2Add t _ => t.wf
  | .sem2Sub t _ => t.wf
  | .arrLoad t _ => t.wf
  | .arrLoadsc t _ => t.wf
  | .arrSwap t _ => t.wf
  | .mac t _ => t.wf
  | .macHl t _ => t.wf
  | .macLh t _ => t.wf
  | .macHh t _ => t.wf
  | .macP20 t _ => t.wf
  | .macP11 t _ => t.wf
  | .macP02 t _ => t.wf
  | .macP21 t _ => t.wf
  | .macP12 t _ => t.wf
  | .macP22 t _ => t.wf
  | .arrDrain t _ => t.wf
  | .mode t _ => t.wf
  | .arrayContributionLand t mism => t.wf && decide (mism < 2 ^ 64)
  | .drainFlit t => t.wf
  | .spLoad t _ => t.wf
  | .loadm t _ => t.wf
  | .spLoadsc t _ => t.wf
  | .spSwap t _ => t.wf
  | .mac24 t _ => t.wf
  | .mac24Land t mism => t.wf && decide (mism < 2 ^ 16)
  | .gload t _ => t.wf
  | .beginStep t _ => t.wf
  | .seg t _ => t.wf
  | .segLand t mism => t.wf && decide (mism < 2 ^ 16)
  | .fallbackFetch t _ => t.wf
  | .fallbackChunkIssue t => t.wf
  | .sparseStepComplete t => t.wf
  | .spDrain t _ => t.wf
  | .vmov t _ => t.wf
  | .vadd t _ => t.wf
  | .vsub t _ => t.wf
  | .vmul t _ => t.wf
  | .vmin t _ => t.wf
  | .vmax t _ => t.wf
  | .vabs t _ => t.wf
  | .vneg t _ => t.wf
  | .vcmpgt t _ => t.wf
  | .vcmpeq t _ => t.wf
  | .vand t _ => t.wf
  | .vor t _ => t.wf
  | .vxor t _ => t.wf
  | .vshl t _ => t.wf
  | .vshr t _ => t.wf
  | .vrcp t _ => t.wf
  | .vrsqrt t _ => t.wf
  | .vexp2 t _ => t.wf
  | .vlog2 t _ => t.wf
  | .vrsum t _ => t.wf
  | .vrmax t _ => t.wf
  | .cvtW t _ => t.wf
  | .cvtN t _ => t.wf
  | .cvtNb t _ => t.wf
  | .packScl t _ => t.wf
  | .packMsk t _ => t.wf
  | .cvtWb t _ => t.wf
  | .cmp24p t _ => t.wf
  | .cmp24f t _ => t.wf
  | .cmpSeg t _ => t.wf
  | .cmpFlush t _ => t.wf
  | .cmpCount t _ => t.wf
  | .cmpReset t _ => t.wf
  | .vectorV6 t mism => t.wf && decide (mism < 2 ^ 16)
  | .extMark t => t.wf
  | .nonTabWriteGrant t => t.wf
  | .fillblockLand t => t.wf
  | .packetReadClaim t => t.wf
  | .packetReadGrant t _ => t.wf
  | .bulkSlotWrite t _ => t.wf
  | .accumulateWriteArrival t => t.wf
  | .cbIdleDrain t => t.wf
  | .cbDrain t => t.wf
  | .wwrite t => t.wf
  | .mread t => t.wf
  | .mcmd t => t.wf
  | .resp _ => true
  | .cfgw t => t.wf
  | .queueFlitArrival t _ => t.wf
  | .mergeQueueGrant t _ => t.wf
  | .peerReset t => t.wf
  | .scalarSignal t => t.wf
  | .scalarRegisterWrite t => t.wf
  | .stallTimeout t => t.wf
  | .managementTick m => m.wf
  | .sectionDeadlock _ => true
  | .endedReduction _ => true
  | .haltWave t => t.wf
  | .flitHop t _ _ => t.wf
  | .course5Aged t _ => t.wf
  | .hopCreditReturn t _ _ => t.wf
  | .windowTokenReturn t _ => t.wf
  | .retryRequest t _ _ => t.wf
  | .linkFail t _ => t.wf
  | .packetHop src => src.wf
  | .wireSteer w => w.wf
  | .cxlMemRead _ hpa _ => decide (hpa < 2 ^ 64)
  | .cxlMemWrite _ w => decide (w.hpa < 2 ^ 64)
  | .dramReadReturn _ _ _ => true
  | .mergeEntryExpiry _ _ => true
  | .refreshPhase e => e.all ScrubFind.wf
  | .stackStreamStart _ _ => true
  | .stackStreamPacket _ _ => true
  | .eventRecord src => src.wf
  | .load _ => true
  | .restore _ => true
  | .finish _ => true
  | .drainStart _ => true
  | .drainSample _ => true
  | .spillsComplete _ => true
  | .checkpointCaptureComplete _ => true
  | .forcedPathInflightClear _ => true
  | .imageLoadComplete _ => true
  | .release _ => true
  | .replayNextLoad _ => true
  | .tileFault t _ => t.wf
  | .repairHistoryWritten _ => true
  | .remapCommitted _ => true
  | .selftestComplete r => r.wf
  | .selftestOverdue _ => true
  | .spareTileTest _ failed => failed.all (fun q => decide (q.1 < 128 ∧ q.2 < 66))
  | .markedUnitRetest r _ => r.wf
  | .sensorCalibration => true
  | .historyCounterWrite => true
  | .syslogSummary => true
  | .reportLost => true
  | .partitionQuery m => m.wf
  | .policySet m => m.wf
  | .submitList m _ => m.wf
  | .eventRead m => m.wf
  | .tileRead m => m.wf
  | .spineRead m => m.wf
  | .stallMap m => m.wf
  | .sectionRead m => m.wf
  | .diagRead m => m.wf
  | .selftest m => m.wf
  | .attest m => m.wf
  | .ideKey m => m.wf
  | .detach m => m.wf
  | .detachTimeout _ => true
  | .attach m => m.wf
  | .recBegin m => m.wf
  | .recData m => m.wf
  | .recCommit m => m.wf
  | .listStart _ _ => true
  | .entryComplete _ _ => true
  | .h2s _ => true
  | .s2h _ => true
  | .s2s _ => true
  | .img _ => true
  | .h2t _ => true
  | .s2t _ => true
  | .t2h _ => true
  | .t2s _ => true
  | .tcmd _ => true
  | .confirmPoll _ => true
  | .entryTimeout _ => true
  | .arm _ => true
  | .disarm _ => true
  | .cxlCacheResponse _ _ => true
  | .cxlCacheTimeout _ => true
  | .birsp _ line _ => decide (line < 2 ^ 64)
  | .hostSnoop _ addr => decide (addr < 2 ^ 64)
  | .hdmDecoderCommit _ base size ways => decide (base < 2 ^ 64) && decide (size < 2 ^ 64) && decide (ways < 16)
  | .ideEnable _ _ => true
  | .ideIntegrityFail _ => true
  | .cdatRead _ => true
  | .registerWrite _ off _ => decide (off < 0x80000 ∧ off % 8 = 0)
  | .functionLevelReset _ => true
  | .linkUp _ _ => true
  | .hostLinkDown _ => true
  | .linkDownTimeout _ => true
  | .keyPairExpiry _ => true
  | .partitionSet ps _ => ps.all PartDef.wf
  | .capoSettings c => c.wf
  | .redfishPolicySet _ r _ => r.wf
  | .redfishSelftest _ r => r.wf
  | .firmwareUpdate _ => true
  | .computerSystemReset _ => true
  | .commitVersion => true
  | .enterRecovery => true
  | .prepareRemoval _ => true
  | .devidCertWrite _ => true
  | .recoveryImagePut _ => true
  | .recoveryStatusGet => true
  | .chPrsntLow => true
  | .chPrsntHigh => true
  | .auxPowerStable f => f.bad.all (fun i => decide (i < 1230)) && f.corrected.all (fun i => decide (i < 1230))
  | .mainPowerEnable r => r.wf
  | .epoAssert => true
  | .flowInterlockClose => true
  | .flowInterlockOpen => true
  | .coolantLow _ => true
  | .supplyFault c => c.wf
  | .thermalTrip dom temp => decide (dom < 390) && decide (temp < 2 ^ 16)
  | .quadrantTrip _ _ => true
  | .quadrantOff _ _ => true
  | .droopTrip _ _ => true
  | .dividerRampStep dom => decide (dom < 390)
  | .sageLockstep c => c.wf
  | .tabMoveLand t => t.wf
  | .fallbackChunkLand t mism => t.wf && decide (mism < 2 ^ 16)
  | .powerSwitchRamp dom => decide (dom < 390)
  | .bridgeWireTuning w _ => w.wf
  | .stackFailure _ _ => true
  | .ringFailure => true
  | .unknownOpcode m _ => m.wf

/-- The tile a command acts on, for the commands that act on one. -/
def Instr.tile? (i : Instr) : Option TileId :=
  match i with
  | .next t _ => some t
  | .setlc t _ => some t
  | .loop t _ => some t
  | .jump t _ => some t
  | .delay t _ => some t
  | .delayExpiry t => some t
  | .endTab t _ => some t
  | .tabMove t _ => some t
  | .semWaitGe t _ => some t
  | .semAdd t _ => some t
  | .semSub t _ => some t
  | .semWaitGeSub t _ => some t
  | .sem2Add t _ => some t
  | .sem2Sub t _ => some t
  | .arrLoad t _ => some t
  | .arrLoadsc t _ => some t
  | .arrSwap t _ => some t
  | .mac t _ => some t
  | .macHl t _ => some t
  | .macLh t _ => some t
  | .macHh t _ => some t
  | .macP20 t _ => some t
  | .macP11 t _ => some t
  | .macP02 t _ => some t
  | .macP21 t _ => some t
  | .macP12 t _ => some t
  | .macP22 t _ => some t
  | .arrDrain t _ => some t
  | .mode t _ => some t
  | .arrayContributionLand t _ => some t
  | .drainFlit t => some t
  | .spLoad t _ => some t
  | .loadm t _ => some t
  | .spLoadsc t _ => some t
  | .spSwap t _ => some t
  | .mac24 t _ => some t
  | .mac24Land t _ => some t
  | .gload t _ => some t
  | .beginStep t _ => some t
  | .seg t _ => some t
  | .segLand t _ => some t
  | .fallbackFetch t _ => some t
  | .fallbackChunkIssue t => some t
  | .sparseStepComplete t => some t
  | .spDrain t _ => some t
  | .vmov t _ => some t
  | .vadd t _ => some t
  | .vsub t _ => some t
  | .vmul t _ => some t
  | .vmin t _ => some t
  | .vmax t _ => some t
  | .vabs t _ => some t
  | .vneg t _ => some t
  | .vcmpgt t _ => some t
  | .vcmpeq t _ => some t
  | .vand t _ => some t
  | .vor t _ => some t
  | .vxor t _ => some t
  | .vshl t _ => some t
  | .vshr t _ => some t
  | .vrcp t _ => some t
  | .vrsqrt t _ => some t
  | .vexp2 t _ => some t
  | .vlog2 t _ => some t
  | .vrsum t _ => some t
  | .vrmax t _ => some t
  | .cvtW t _ => some t
  | .cvtN t _ => some t
  | .cvtNb t _ => some t
  | .packScl t _ => some t
  | .packMsk t _ => some t
  | .cvtWb t _ => some t
  | .cmp24p t _ => some t
  | .cmp24f t _ => some t
  | .cmpSeg t _ => some t
  | .cmpFlush t _ => some t
  | .cmpCount t _ => some t
  | .cmpReset t _ => some t
  | .vectorV6 t _ => some t
  | .extMark t => some t
  | .nonTabWriteGrant t => some t
  | .fillblockLand t => some t
  | .packetReadClaim t => some t
  | .packetReadGrant t _ => some t
  | .bulkSlotWrite t _ => some t
  | .accumulateWriteArrival t => some t
  | .cbIdleDrain t => some t
  | .cbDrain t => some t
  | .wwrite t => some t
  | .mread t => some t
  | .mcmd t => some t
  | .resp _ => none
  | .cfgw t => some t
  | .queueFlitArrival t _ => some t
  | .mergeQueueGrant t _ => some t
  | .peerReset t => some t
  | .scalarSignal t => some t
  | .scalarRegisterWrite t => some t
  | .stallTimeout t => some t
  | .managementTick _ => none
  | .sectionDeadlock _ => none
  | .endedReduction _ => none
  | .haltWave t => some t
  | .flitHop t _ _ => some t
  | .course5Aged t _ => some t
  | .hopCreditReturn t _ _ => some t
  | .windowTokenReturn t _ => some t
  | .retryRequest t _ _ => some t
  | .linkFail t _ => some t
  | .packetHop src => some src.tile
  | .wireSteer _ => none
  | .cxlMemRead _ _ _ => none
  | .cxlMemWrite _ _ => none
  | .dramReadReturn _ _ _ => none
  | .mergeEntryExpiry _ _ => none
  | .refreshPhase _ => none
  | .stackStreamStart _ _ => none
  | .stackStreamPacket _ _ => none
  | .eventRecord _ => none
  | .load _ => none
  | .restore _ => none
  | .finish _ => none
  | .drainStart _ => none
  | .drainSample _ => none
  | .spillsComplete _ => none
  | .checkpointCaptureComplete _ => none
  | .forcedPathInflightClear _ => none
  | .imageLoadComplete _ => none
  | .release _ => none
  | .replayNextLoad _ => none
  | .tileFault t _ => some t
  | .repairHistoryWritten _ => none
  | .remapCommitted _ => none
  | .selftestComplete _ => none
  | .selftestOverdue _ => none
  | .spareTileTest _ _ => none
  | .markedUnitRetest _ _ => none
  | .sensorCalibration => none
  | .historyCounterWrite => none
  | .syslogSummary => none
  | .reportLost => none
  | .partitionQuery _ => none
  | .policySet _ => none
  | .submitList _ _ => none
  | .eventRead _ => none
  | .tileRead _ => none
  | .spineRead _ => none
  | .stallMap _ => none
  | .sectionRead _ => none
  | .diagRead _ => none
  | .selftest _ => none
  | .attest _ => none
  | .ideKey _ => none
  | .detach _ => none
  | .detachTimeout _ => none
  | .attach _ => none
  | .recBegin _ => none
  | .recData _ => none
  | .recCommit _ => none
  | .listStart _ _ => none
  | .entryComplete _ _ => none
  | .h2s _ => none
  | .s2h _ => none
  | .s2s _ => none
  | .img _ => none
  | .h2t _ => none
  | .s2t _ => none
  | .t2h _ => none
  | .t2s _ => none
  | .tcmd _ => none
  | .confirmPoll _ => none
  | .entryTimeout _ => none
  | .arm _ => none
  | .disarm _ => none
  | .cxlCacheResponse _ _ => none
  | .cxlCacheTimeout _ => none
  | .birsp _ _ _ => none
  | .hostSnoop _ _ => none
  | .hdmDecoderCommit _ _ _ _ => none
  | .ideEnable _ _ => none
  | .ideIntegrityFail _ => none
  | .cdatRead _ => none
  | .registerWrite _ _ _ => none
  | .functionLevelReset _ => none
  | .linkUp _ _ => none
  | .hostLinkDown _ => none
  | .linkDownTimeout _ => none
  | .keyPairExpiry _ => none
  | .partitionSet _ _ => none
  | .capoSettings _ => none
  | .redfishPolicySet _ _ _ => none
  | .redfishSelftest _ _ => none
  | .firmwareUpdate _ => none
  | .computerSystemReset _ => none
  | .commitVersion => none
  | .enterRecovery => none
  | .prepareRemoval _ => none
  | .devidCertWrite _ => none
  | .recoveryImagePut _ => none
  | .recoveryStatusGet => none
  | .chPrsntLow => none
  | .chPrsntHigh => none
  | .auxPowerStable _ => none
  | .mainPowerEnable _ => none
  | .epoAssert => none
  | .flowInterlockClose => none
  | .flowInterlockOpen => none
  | .coolantLow _ => none
  | .supplyFault _ => none
  | .thermalTrip _ _ => none
  | .quadrantTrip _ _ => none
  | .quadrantOff _ _ => none
  | .droopTrip _ _ => none
  | .dividerRampStep _ => none
  | .sageLockstep _ => none
  | .tabMoveLand t => some t
  | .fallbackChunkLand t _ => some t
  | .powerSwitchRamp _ => none
  | .bridgeWireTuning _ _ => none
  | .stackFailure _ _ => none
  | .ringFailure => none
  | .unknownOpcode _ _ => none

end Sys2Proof
end

