-- ==== Sys2Proof/Safety.lean ====
section
/-!
DEFINITION. Safety: the terms in which statements speak: the canonical form of the device's memories and maps, what one step may
leave behind, and the tile as a firing entry finds it.
-/
namespace Sys2Proof.Machine

/-! ## The invariant of the device -/

/-- Stack memory is in canonical form: addresses rise, and no listed byte equals what an unlisted one reads as. -/
abbrev Memory.wf (m : List Host.Cell) : Prop := mwf 0 m = true

/-- Memories and maps of the device are in canonical form, so that equal contents are equal data. -/
structure Inv (s : State) : Prop where
  tiles : mwf {} s.tiles = true
  spines : mwf {} s.spines = true
  mem : Memory.wf s.stk.mem
  poison : mwf false s.stk.poison = true
  corrected : mwf false s.stk.corrected = true
  parts : mwf {} s.parts = true
  ports : mwf {} s.ports = true
  doms : mwf {} s.power.dom = true

/-! ## A tile that evaluates its entry -/

/-- The tile a command names. -/
abbrev tileOf (s : State) (t : TileId) : Tile := getTile s t.x t.y

/-- The device cycle in which the next tile cycle of an issuing tile begins. -/
def startCore (s : State) (t : TileId) : Nat := max s.cycle (tileOf s t).tab.nextCore

/-- What surrounds the tile in that cycle. -/
def envOf (s : State) (t : TileId) : TileEnv := tileEnv s t.x t.y (startCore s t)

/-- The tile at the start of that cycle: whatever was due has landed. -/
def atStart (s : State) (t : TileId) : Tile := settle (startCore s t) t.x t.y (tileOf s t).tab.tc (tileOf s t)

/-- The tile exists, issues, and its entry at PC is the one given. -/
structure Issues (s : State) (t : TileId) (e : TabEntry) : Prop where
  tile : tileExists s t = true
  maps : mwf {} s.tiles = true
  issues : issuing (tileOf s t) = true
  entry : curEntry (tileOf s t) = e

/-- The entry at PC fires in the tile's next cycle: every guard term of R25 holds, and none of the faults of R29. -/
structure Fires (s : State) (t : TileId) (u : Upset) (e : TabEntry) : Prop extends Issues s t e where
  fires : tabFires (envOf s t) u (tileOf s t) = true

/-- Operand A and operand B of a firing entry (Table 1.4), with the upsets of the cycle. -/
def operandA (s : State) (t : TileId) (u : Upset) (e : TabEntry) : Opd :=
  upsetOpd u (eSrca e) (readSrc (atStart s t) e (eSrca e))
def operandB (s : State) (t : TileId) (u : Upset) (e : TabEntry) : Opd :=
  upsetOpd u (eSrcb e) (readSrc (atStart s t) e (eSrcb e))

/-! ## The commands of the tab family: the rows that name an aspect of one entry -/

/-- The control operations with CTL (Table 1.3). -/
def ctlRows : List ((TileId → Upset → Instr) × Nat) :=
  [(.next, 0), (.setlc, 1), (.loop, 2), (.jump, 3), (.delay, 4), (.endTab, 5)]

/-- The commands of the dense array with the operation kind in CUOP[5:2] (Table 2.2). -/
def arrayRows : List ((TileId → Upset → Instr) × Nat) :=
  [(.arrLoad, 1), (.arrLoadsc, 2), (.arrSwap, 3), (.mac, 4), (.macHl, 5), (.macLh, 6), (.macHh, 7), (.macP20, 8),
   (.macP11, 9), (.macP02, 10), (.macP21, 11), (.macP12, 12), (.macP22, 13), (.arrDrain, 14), (.mode, 15)]

/-- The commands of the sparse engine with the operation kind in CUOP[5:2] (Table 5.1). -/
def sparseRows : List ((TileId → Upset → Instr) × Nat) :=
  [(.spLoad, 1), (.loadm, 2), (.spLoadsc, 3), (.spSwap, 4), (.mac24, 5), (.gload, 6), (.beginStep, 7), (.seg, 8),
   (.spDrain, 9)]

/-- The commands of the vector pipeline with CUOP (Table 4.2); the two converts with a group, which fill eight codes each, stand
in tabRows. -/
def vectorRows : List ((TileId → Upset → Instr) × Nat) :=
  [(.vmov, 0x01), (.vadd, 0x02), (.vsub, 0x03), (.vmul, 0x04), (.vmin, 0x05), (.vmax, 0x06), (.vabs, 0x07),
   (.vneg, 0x08), (.vcmpgt, 0x09), (.vcmpeq, 0x0A), (.vand, 0x0B), (.vor, 0x0C), (.vxor, 0x0D), (.vshl, 0x0E),
   (.vshr, 0x0F), (.vrcp, 0x10), (.vrsqrt, 0x11), (.vexp2, 0x12), (.vlog2, 0x13), (.vrsum, 0x14), (.vrmax, 0x15),
   (.cvtN, 0x20), (.cvtNb, 0x21), (.packScl, 0x22), (.packMsk, 0x23), (.cmp24p, 0x30), (.cmp24f, 0x31),
   (.cmpSeg, 0x38), (.cmpFlush, 0x39), (.cmpCount, 0x3A), (.cmpReset, 0x3B)]

/-- The semaphore operations and the move, with the entries they name (R25, R28). -/
def otherRows : List ((TileId → Upset → Instr) × (TabEntry → Bool)) :=
  [(.semWaitGe, fun e => decide (eSemop e = 1)),
   (.semAdd, fun e => decide (eSemop e = 2)),
   (.semSub, fun e => decide (eSemop e = 3)),
   (.semWaitGeSub, fun e => decide (eSemop e = 4)),
   (.sem2Add, fun e => decide (eSem2op e = 1)),
   (.sem2Sub, fun e => decide (eSem2op e = 2)),
   (.tabMove, fun e => decide (eUnit e = 0 ∧ eDst e ≠ 0)),
   (.cvtW, fun e => decide (eUnit e = 3 ∧ 0x18 ≤ eCuop e ∧ eCuop e ≤ 0x1F)),
   (.cvtWb, fun e => decide (eUnit e = 3 ∧ 0x28 ≤ eCuop e ∧ eCuop e ≤ 0x2F))]

/-- Every command of the tab family with the entries it names. -/
def tabRows : List ((TileId → Upset → Instr) × (TabEntry → Bool)) :=
  ctlRows.map (fun r => (r.1, fun e => decide (eCtl e = r.2)))
  ++ arrayRows.map (fun r => (r.1, fun e => decide (eUnit e = 1 ∧ eKind e = r.2)))
  ++ sparseRows.map (fun r => (r.1, fun e => decide (eUnit e = 2 ∧ eKind e = r.2)))
  ++ vectorRows.map (fun r => (r.1, fun e => decide (eUnit e = 3 ∧ eCuop e = r.2)))
  ++ otherRows

end Sys2Proof.Machine
end

