-- ==== Sys2Proof/Certificates/Slice0/Obligations.lean ====
section
/-!
DEFINITION. Certificates/Slice0/Obligations: the statements about the device, each citing the rules of the spec it rests on.
-/

open Sys2Proof Sys2Proof.Machine


/-- The tile of a command from outside the tab in the present device cycle: its cycle closes (R25). -/
def closedTile (s : State) (t : TileId) : Tile := closeCycle s.cycle (tileOf s t)

/-- The device with another tile at a coordinate. -/
def withTile (s : State) (t : TileId) (tl : Tile) : State := setTile s t.x t.y tl

/-- The tile exists and the map of tiles is canonical. -/
structure OnGrid (s : State) (t : TileId) : Prop where
  tile : tileExists s t = true
  maps : mwf {} s.tiles = true

/-- Lane-wise addition of 32-bit lanes modulo 2^32 (R142). -/
def LanesAdded (r a b : Unit512) : Prop :=
  ∀ j < 16, elem r.toNat 32 j = (elem a.toNat 32 j + elem b.toNat 32 j) % 2 ^ 32

/-! ## The machine -/

/-- A step takes the command at the front of the queue: it is that command's effect on the device with the queue's rest.
With no command waiting the cycle count advances by one and nothing else changes: the model's own choice (log entry 5). -/
def Obligations.StepTakesTheFront : Prop :=
  (∀ (s : State) (c : Instr) (rest : List Instr), s.pending = c :: rest → step s = exec c { s with pending := rest }) ∧
  (∀ s : State, s.pending = [] → step s = .next { s with cycle := s.cycle + 1 })

/-- R336, R373: the device after reset. A new device has one partition, index 0 over band 0-7 on port 0, with the policies
of Table 12.11 at their Reset values and the capo at its settings of Table 13.3; it is without power, every other partition
is unset, no port is up, and no command waits. -/
def Obligations.ResetState : Prop :=
  let s := State.reset
  let q := getPart s 0
  q.set_ = true ∧ q.lo = 0 ∧ q.hi = 7 ∧ q.port = 0 ∧ q.st = .idle ∧ q.epoch = 0 ∧
  q.policy.limit = 22 ∧ q.policy.dlticks = 8 ∧ q.policy.poison = false ∧ q.policy.maint = false ∧ q.policy.maintms = 100 ∧
  q.policy.hplim = 0 ∧ q.plock = false ∧ (∀ p, p ≠ 0 → getPart s p = {}) ∧
  s.power.capo.cap = 3400 ∧ s.power.capo.ramp = 1000 ∧ s.power.capo.floor = 0 ∧ s.power.capo.ballast = true ∧
  s.power.capo.cpv = 0 ∧ (∀ o, (getPort s o).up = false ∧ (getPort s o).st = .detached ∧ (getPort s o).go = false) ∧
  (∀ a, memByte s.stk.mem a = 0) ∧ s.boot.phase = .off ∧ s.module_.present = false ∧ s.pending = [] ∧ s.cycle = 0 ∧ Inv s

/-- Every step keeps the invariant: from any state whose maps and memories are in canonical form, whatever command waits,
the next state's are. -/
def Obligations.StepKeepsInvariant : Prop :=
  ∀ s s' : State, Inv s → step s = .next s' → Inv s'

/-- Every command completes: it answers a next state in every state of the device, but for one that names a tile outside the
logical grid in force (R7, R305), which is a fault, the model's own choice (log entry 2). No command is refused. -/
def Obligations.EveryCommandAnswers : Prop :=
  ∀ (i : Instr) (s : State), match i.tile? with
    | some t => if tileExists s t = true then ∃ s', exec i s = .next s' else exec i s = .fault .noSuchTile
    | none => ∃ s', exec i s = .next s'
/-! ## The tab: one firing cycle (R20-R44) -/

/-- R25, R26, R35: whatever the entry, the firing of every command of the tab family counts one cycle and one fire, starts
the next cycle one device cycle later (two when the cycle is stretched), resets the stall watchdog, and leaves every other
tile but the tokens owed to it, and everything but the tiles and the cycle, as they were. Model's choices: log entries 4, 6,
7. -/
def Obligations.TabEntryFires : Prop :=
  ∀ row ∈ tabRows, ∀ (s : State) (t : TileId) (u : Upset) (e : TabEntry), Fires s t u e → row.2 e = true →
    mwf 0 (atStart s t).ctr = true →
    ∃ s', exec (row.1 t u) s = .next s' ∧
      ctrVal (tileOf s' t) .fire = min (ctrVal (atStart s t) .fire + 1) ctrMax ∧
      (tileOf s' t).tab.cycle = (atStart s t).tab.cycle + 1 ∧
      (tileOf s' t).tab.tc = (tileOf s t).tab.tc + 1 ∧
      (tileOf s' t).tab.nextCore = startCore s t + (if (envOf s t).stretched then 2 else 1) ∧
      (tileOf s' t).tab.wdCount = 0 ∧ (tileOf s' t).tab.wdTripped = false ∧ (tileOf s' t).tab.wdProgress = true ∧
      s' = { s with tiles := s'.tiles, cycle := startCore s t } ∧
      ∀ x y, tileKey x y ≠ tileKey t.x t.y →
        ∃ o, getTile s' x y = { getTile s x y with fret := { (getTile s x y).fret with outst := o } }

/-- R21, R24, R31, R278: the control operations. NEXT goes to PC + 1; SETLC loads its counter, 0 meaning 65,536; LOOP counts
down and branches while the result is not 0, a counter at 0 falling through; JUMP goes to its target; DELAY starts CIMM idle
cycles; END ends the tile, with the index of its cycle recorded and TAB_PLAN marked DONE or SATSKIP. -/
def ControlOperations : Prop :=
  ∀ (s : State) (t : TileId) (u : Upset) (e : TabEntry), Fires s t u e → mwf 0 (atStart s t).tab.lc = true →
    let pre := atStart s t
    let n := pre.tab.pc + 1
    (eCtl e = 0 → ∃ s', exec (.next t u) s = .next s' ∧ (tileOf s' t).tab.pc = n ∧ (tileOf s' t).tab.lc = pre.tab.lc ∧
      (tileOf s' t).tab.st = .running ∧ (tileOf s' t).tab.delaying = false) ∧
    (eCtl e = 1 → ∃ s', exec (.setlc t u) s = .next s' ∧ (tileOf s' t).tab.pc = n ∧
      (mget 0 (tileOf s' t).tab.lc (eLcsel e)).toNat = (if eCimm e = 0 then 65536 else eCimm e) ∧
      ∀ k, k ≠ eLcsel e → mget 0 (tileOf s' t).tab.lc k = mget 0 pre.tab.lc k) ∧
    (eCtl e = 2 → ∃ s', exec (.loop t u) s = .next s' ∧
      let l := (mget 0 pre.tab.lc (eLcsel e)).toNat
      (mget 0 (tileOf s' t).tab.lc (eLcsel e)).toNat = l - 1 ∧
      (tileOf s' t).tab.pc = (if l ≤ 1 then n else BitVec.ofNat 10 (eTarget e)) ∧
      ∀ k, k ≠ eLcsel e → mget 0 (tileOf s' t).tab.lc k = mget 0 pre.tab.lc k) ∧
    (eCtl e = 3 → ∃ s', exec (.jump t u) s = .next s' ∧ (tileOf s' t).tab.pc.toNat = eTarget e ∧
      (tileOf s' t).tab.lc = pre.tab.lc) ∧
    (eCtl e = 4 → ∃ s', exec (.delay t u) s = .next s' ∧ (tileOf s' t).tab.lc = pre.tab.lc ∧
      (if eCimm e = 0 then (tileOf s' t).tab.pc = n ∧ (tileOf s' t).tab.delaying = false
       else (tileOf s' t).tab.pc = pre.tab.pc ∧ (tileOf s' t).tab.delaying = true ∧ (tileOf s' t).tab.delayLeft = eCimm e)) ∧
    (eCtl e = 5 → ∃ s', exec (.endTab t u) s = .next s' ∧ (tileOf s' t).tab.st = .ended ∧
      (tileOf s' t).tab.endCycle = pre.tab.cycle ∧
      ((tileOf s' t).tab.plan.getLsbD 0 = true ∨ (tileOf s' t).tab.plan = 0x20) ∧
      (tileOf s' t).tab.pc = pre.tab.pc)

/-- R28, R173: the semaphore operations of a firing entry. SEM_ADD and SEM2_ADD add, SEM_SUB, SEM_WAIT_GE_SUB and SEM2_SUB
subtract, exactly, for a firing entry neither overflows nor underflows; the two waits fire only at a value of at least
SEMVAL, and SEM_WAIT_GE leaves it; a semaphore that neither operation names keeps its value, and none changes its capacity.
-/
def Obligations.SemaphoreOperations : Prop :=
  ∀ (s : State) (t : TileId) (u : Upset) (e : TabEntry), Fires s t u e → mwf {} (atStart s t).mu.sems = true →
    let old := fun i => mget {} (atStart s t).mu.sems i
    let ends := fun (c : TileId → Upset → Instr) (p : (Nat → Sem) → Prop) =>
      ∃ s', exec (c t u) s = .next s' ∧ p (fun i => mget {} (tileOf s' t).mu.sems i) ∧
        (∀ i, (mget {} (tileOf s' t).mu.sems i).cap = (old i).cap) ∧
        ∀ i, ¬ (i = eSemid e ∧ eSemop e ≠ 0) → ¬ (i = eSem2id e ∧ eSem2op e ≠ 0) →
          mget {} (tileOf s' t).mu.sems i = old i
    (eSemop e = 1 → ends .semWaitGe fun new =>
      eSemval e ≤ (old (eSemid e)).val.toNat ∧ (new (eSemid e)).val = (old (eSemid e)).val) ∧
    (eSemop e = 2 → ends .semAdd fun new =>
      (new (eSemid e)).val.toNat = (old (eSemid e)).val.toNat + eSemval e ∧
      (eSemval e ≠ 0 → (new (eSemid e)).val.toNat ≤ (old (eSemid e)).cap.toNat)) ∧
    (eSemop e = 3 → ends .semSub fun new =>
      (new (eSemid e)).val.toNat + eSemval e = (old (eSemid e)).val.toNat) ∧
    (eSemop e = 4 → ends .semWaitGeSub fun new =>
      (new (eSemid e)).val.toNat + eSemval e = (old (eSemid e)).val.toNat) ∧
    (eSem2op e = 1 → ends .sem2Add fun new =>
      (new (eSem2id e)).val.toNat = (old (eSem2id e)).val.toNat + eSem2val e) ∧
    (eSem2op e = 2 → ends .sem2Sub fun new =>
      (new (eSem2id e)).val.toNat + eSem2val e = (old (eSem2id e)).val.toNat)

/-- R23, R26, R155, R156: the ports of a firing entry. Each popped source loses its head, once even when both sources name
it; no other queue changes its flits; the read port's generator steps as its operation says; a read with RDTAG 2 leaves the
slot empty unless the entry's own write marks it full; without a write the write port's generator and every other tag stand.
-/
def Obligations.FiringReadsAndPops : Prop :=
  ∀ row ∈ tabRows, ∀ (s : State) (t : TileId) (u : Upset) (e : TabEntry), Fires s t u e → row.2 e = true →
    mwf {} (atStart s t).mu.queues = true → mwf {} (atStart s t).mu.slots = true →
    ∃ s', exec (row.1 t u) s = .next s' ∧
      let pre := atStart s t
      let post := tileOf s' t
      (∀ k < 8, (mget {} post.mu.queues k).flits =
        if (eSrca e = 8 + k ∧ ePopa e) ∨ (eSrcb e = 8 + k ∧ ePopb e)
          then (mget {} pre.mu.queues k).flits.tail else (mget {} pre.mu.queues k).flits) ∧
      post.tab.srxValid = (pre.tab.srxValid && !((eSrca e = 2 && ePopa e) || (eSrcb e = 2 && ePopb e))) ∧
      post.mu.ag0 = agStep pre.mu.ag0 (eRdop e) ∧
      (dstMu e = false → post.mu.ag1 = pre.mu.ag1 ∧ ∀ i, (mget {} post.mu.slots i).full =
        ((mget {} pre.mu.slots i).full && !(eRdop e != 0 && eRdtag e == 2 && i == readSlot pre e)))

/-- R25, R33, R34: an entry that does not fire slips. The cause is that of the first term of the guard, in the order of
Table 1.7, that fails; PC, the sources, the units, semaphores and tags stand; the cycle counts, the total and the cause's
count rise by one, and LASTCAUSE names the cause. -/
def EntrySlips : Prop :=
  ∀ row ∈ tabRows, ∀ (s : State) (t : TileId) (u : Upset) (e : TabEntry) (c : Nat), Issues s t e → row.2 e = true →
    (atStart s t).tab.st = .running → u.parity = false → malformed e (atStart s t).tab.pc.toNat = false →
    guardSlip (envOf s t) (atStart s t) e = some c → mwf 0 (atStart s t).ctr = true →
    ∃ s', exec (row.1 t u) s = .next s' ∧
      let pre := atStart s t
      let post := tileOf s' t
      post.tab.pc = pre.tab.pc ∧ post.tab.st = .running ∧ post.tab.lastCause = BitVec.ofNat 3 c ∧
      post.tab.cycle = pre.tab.cycle + 1 ∧ post.tab.tc = pre.tab.tc + 1 ∧
      ctrVal post .slipTotal = min (ctrVal pre .slipTotal + 1) ctrMax ∧
      ctrVal post (.slip c) = min (ctrVal pre (.slip c) + 1) ctrMax ∧
      ctrVal post .fire = ctrVal pre .fire ∧
      post.mu = pre.mu ∧ post.fret = pre.fret ∧ post.arr = pre.arr ∧ post.sp = pre.sp ∧ post.vfire = pre.vfire ∧
      post.fly = pre.fly ∧ post.tab.lc = pre.tab.lc ∧ post.tab.srxValid = pre.tab.srxValid

/-- R25 (Table 1.7): the order of the guard's terms. A stretched cycle slips as DROOP (6); then a masked cycle of an array
entry as THROTTLE (5); then an empty source as SKIP (7) when every empty source is a skip queue, else as INPUT (1); then a
semaphore below SEMVAL as SEMAPHORE (3); then missing credits as OUTPUT (2); and an entry with no failing term fires. -/
def GuardOrder : Prop :=
  ∀ (env : TileEnv) (t : Tile) (e : TabEntry),
    let lacks := [eSrca e, eSrcb e].filter (srcEmpty t e)
    let waits := (eSemop e = 1 ∨ eSemop e = 4) ∧ (mget {} t.mu.sems (eSemid e)).val.toNat < eSemval e
    (env.stretched = true → guardSlip env t e = some 6) ∧
    (env.stretched = false → (eUnit e = 1 ∨ eUnit e = 2) → env.mask = false → guardSlip env t e = some 5) ∧
    (env.stretched = false → env.mask = true → lacks ≠ [] →
      guardSlip env t e = some (if lacks.all (srcSkip t) then 7 else 1)) ∧
    (env.stretched = false → env.mask = true → lacks = [] → waits → guardSlip env t e = some 3) ∧
    (env.stretched = false → env.mask = true → lacks = [] → ¬ waits →
      (credits t (eOutch e) < flitsEmitted t e ∨ (eDst e = 4 ∧ credits t 8 = 0)) → guardSlip env t e = some 2) ∧
    (guardSlip env t e = none → env.stretched = false ∧ lacks = [] ∧ ¬ waits ∧ flitsEmitted t e ≤ credits t (eOutch e) ∧
      (eDst e = 4 → credits t 8 ≠ 0))

/-- R25, R33, R34: when an entry slips, and the order of its guard terms. Model's choice: log entry 31. -/
def Obligations.GuardsAndSlips : Prop := EntrySlips ∧ GuardOrder

/-- R22, R28, R29, R52, R109, R123, R302: a tile that meets a fault at its entry halts without any effect of the entry. A
parity mismatch is TAB_PARITY, a malformed entry TAB_MALFORMED, and an entry that would fire is checked for its semaphores
before its unit; the event is raised, and PC, the units, the semaphores and the sources stand. Model's choices: log entries
10, 26. -/
def Obligations.EntryFaultHalts : Prop :=
  ∀ row ∈ tabRows, ∀ (s : State) (t : TileId) (u : Upset) (e : TabEntry), Issues s t e → row.2 e = true →
    (atStart s t).tab.st = .running →
    let pre := atStart s t
    let b := operandB s t u e
    let halts := fun (c : EvCode) (sub : Nat) =>
      ∃ s', exec (row.1 t u) s = .next s' ∧
        let post := tileOf s' t
        post.tab.st = .halted ∧ post.tab.pc = pre.tab.pc ∧ post.tab.cycle = pre.tab.cycle ∧
        post.ev = raisePort pre.ev (mkEv c sub pre.tab.pc.toNat (startCore s t)) ∧
        post.mu = pre.mu ∧ post.arr = pre.arr ∧ post.sp = pre.sp ∧ post.vfire = pre.vfire ∧ post.fly = pre.fly ∧
        post.ctr = pre.ctr
    let reaches := u.parity = false ∧ malformed e pre.tab.pc.toNat = false ∧ guardSlip (envOf s t) pre e = none
    (u.parity = true → halts .tabParity 0) ∧
    (u.parity = false → malformed e pre.tab.pc.toNat = true → halts .tabMalformed 0) ∧
    (∀ c id, reaches → semFault pre e = some (c, id) → halts c id) ∧
    (reaches → semFault pre e = none → eUnit e = 1 → arrayFault pre.arr e = true → halts .arrayFormat 0) ∧
    (reaches → semFault pre e = none → eUnit e = 2 → sparseFault pre.sp e b = true → halts .sparseState 0) ∧
    (reaches → semFault pre e = none → eUnit e = 3 → vecFault pre.vfire e = true → halts .vecPack 0)

/-- R25, R26: a move. The source of an entry without a compute operation, A before B, leaves in the next cycle for the slot
its write port names, for its output channel or for the scalar string, as DST says, with its poison. -/
def TabMoves : Prop :=
  ∀ (s : State) (t : TileId) (u : Upset) (e : TabEntry), Fires s t u e → eUnit e = 0 → eDst e ≠ 0 →
    ∃ s', exec (.tabMove t u) s = .next s' ∧
      let pre := atStart s t
      let o := if eSrca e ≠ 0 then operandA s t u e else operandB s t u e
      let em : Emit :=
        { slot := if dstMu e then some (agAddr pre.mu.ag1 (eWrop e)) else none
          chan := if dstNet e then some (eOutch e) else none
          scalar := decide (eDst e = 4), data := o.data, poison := o.poison, last := eLastm e }
      (tileOf s' t).fly = addFlight pre.fly ⟨pre.tab.tc + 1, .move em⟩ ∧
      (tileOf s' t).arr = pre.arr ∧ (tileOf s' t).sp = pre.sp ∧ (tileOf s' t).vfire = pre.vfire

/-- R31, R35: a DELAY that runs out. In a quadrant whose clock is not stretched its idle cycles are counted, none of them as
a slip, and the tile goes on at PC + 1 in the first device cycle after them. -/
def DelayRunsOut : Prop :=
  ∀ (s : State) (t : TileId), tileExists s t = true → mwf {} s.tiles = true →
    (tileOf s t).tab.st = .running → (tileOf s t).tab.delaying = true → (tileOf s t).tab.delayLeft ≠ 0 →
    mwf 0 (tileOf s t).ctr = true →
    spansOf s (tilePlace s t.x t.y).1 (tilePlace s t.x t.y).2 = [] →
    ∃ s', exec (.delayExpiry t) s = .next s' ∧
      let pre := tileOf s t
      let post := tileOf s' t
      post.tab.delaying = false ∧ post.tab.delayLeft = 0 ∧ post.tab.pc = pre.tab.pc + 1 ∧
      post.tab.cycle = pre.tab.cycle + BitVec.ofNat 64 pre.tab.delayLeft ∧
      post.tab.nextCore = pre.tab.nextCore + pre.tab.delayLeft ∧
      ctrVal post .idle = min (ctrVal pre .idle + pre.tab.delayLeft) ctrMax ∧
      ctrVal post .slipTotal = min (ctrVal pre .slipTotal) ctrMax ∧
      post.mu = pre.mu ∧ post.fret = pre.fret ∧ post.arr = pre.arr ∧ post.sp = pre.sp ∧ post.fly = pre.fly

/-- R21, R24, R31, R35, R278: the control operations, and the end of a DELAY. Model's choice: log entry 33. -/
def Obligations.ControlFlow : Prop := ControlOperations ∧ DelayRunsOut

/-! ## The dense array (R45-R73) -/

/-- R53, R55, R57, R63: the operations that load and arrange the banks. LOAD writes row LROW of the shadow bank: 8 x rb bits
of operand B selected by G, or, of a row of more than 64 bytes, the bytes of part LPART alone; it steps LPART or LROW; the
load of row 0 part 0 gives the bank its format, validity and unity scales and the operand's poison, and any other only adds
its poison. LOADSC loads column scales of the shadow bank or the four streaming scales. SWAP exchanges the banks, sets the
orientation and clears LROW and LPART. MODE leaves a fresh array in the mode CUFLAG names, its issues in flight gone. None
of them touches the sparse engine or the vector pipeline. Model's choice: log entry 127. -/
def Obligations.ArrayBankOperations : Prop :=
  ∀ (s : State) (t : TileId) (u : Upset) (e : TabEntry), Fires s t u e → eUnit e = 1 →
    let a := (atStart s t).arr
    let b := operandB s t u e
    let mode := a.mode.toNat
    let ends := fun (c : TileId → Upset → Instr) (p : ArrayUnit → Prop) =>
      ∃ s', exec (c t u) s = .next s' ∧ p (tileOf s' t).arr ∧ (tileOf s' t).sp = (atStart s t).sp ∧
        (tileOf s' t).vfire = (atStart s t).vfire ∧ (tileOf s' t).fly = (atStart s t).fly
    (eKind e = 1 → mwf 0 a.shadow.rows = true → ends .arrLoad fun r =>
      let rb := rowBytes mode (eCufmt e)
      let from_ := 64 * a.lpart
      let row := fun (x : ArrayUnit) (k : Nat) => (mget 0 x.shadow.rows k).toNat
      r = { a with shadow := r.shadow, lrow := r.lrow, lpart := r.lpart } ∧
      (rb ≤ 64 → row r a.lrow = fld b.data.toNat (8 * rb * (if rb ≤ 32 then eG e else 0)) (8 * rb)) ∧
      (64 < rb → ∀ k < 256, elem (row r a.lrow) 8 k =
        if from_ ≤ k ∧ k < from_ + min 64 (rb - from_) then elem b.data.toNat 8 (k - from_) else elem (row a a.lrow) 8 k) ∧
      (if rb ≤ max 64 (from_ + 64) then r.lrow = (a.lrow + 1) % arrRows mode ∧ r.lpart = 0
       else r.lrow = a.lrow ∧ r.lpart = a.lpart + 1) ∧
      (if a.lrow = 0 ∧ a.lpart = 0 then
        r.shadow.fmt.toNat = eCufmt e ∧ r.shadow.valid = true ∧ r.shadow.poison = b.poison ∧ r.shadow.scales = []
      else
        r.shadow.fmt = a.shadow.fmt ∧ r.shadow.valid = a.shadow.valid ∧ r.shadow.scales = a.shadow.scales ∧
        r.shadow.poison = (a.shadow.poison || b.poison)) ∧
      ∀ k, k ≠ a.lrow → row r k = row a k) ∧
    (eKind e = 2 → ends .arrLoadsc fun r =>
      if bit (eCuflag e) 0 then
        (∀ f < 4, (mget 127 r.ascl f).toNat = elem b.data.toNat 8 (f / 2 ^ eG e)) ∧
        r = { a with ascl := r.ascl, scPoison := b.poison }
      else
        (∀ c < arrCols mode, (mget 127 r.shadow.scales c).toNat = elem b.data.toNat 8 c) ∧
        r = { a with shadow := { a.shadow with scales := r.shadow.scales, poison := a.shadow.poison || b.poison } }) ∧
    (eKind e = 3 → ends .arrSwap fun r => r =
      { a with active := a.shadow, shadow := a.active, orient := bit (eCuflag e) 0, lrow := 0, lpart := 0 }) ∧
    (eKind e = 15 → ∃ s', exec (.mode t u) s = .next s' ∧
      (tileOf s' t).arr = { mode := BitVec.ofNat 2 (eFlagLow e), busyTo := (atStart s t).tab.tc + 1 } ∧
      (∀ f ∈ (tileOf s' t).fly, ∀ rows, f.work ≠ .issue .arr rows) ∧
      (∀ f ∈ (atStart s t).fly, (∀ rows, f.work ≠ .issue .arr rows) → f ∈ (tileOf s' t).fly) ∧
      (tileOf s' t).sp = (atStart s t).sp ∧ (tileOf s' t).vfire = (atStart s t).vfire)

/-- The issues of the array with the pieces each multiplies (Tables 2.2 and 2.7): command, kind, stationary, streaming. -/
def macRows : List ((TileId → Upset → Instr) × Nat × Piece × Piece) :=
  [(.mac, 4, .whole, .whole), (.macHl, 5, .h16, .l16), (.macLh, 6, .l16, .h16), (.macHh, 7, .h16, .h16),
   (.macP20, 8, .p2, .p0), (.macP11, 9, .p1, .p1), (.macP02, 10, .p0, .p2), (.macP21, 11, .p2, .p1),
   (.macP12, 12, .p1, .p2), (.macP22, 13, .p2, .p2)]

/-- R45, R55, R58, R59, R61, R64, R67, R71: an issue. After its swap, if S is set, it multiplies, in every column c, the
stationary elements of the active bank with the streaming elements of operand A, piece by piece, adds them under R64 and R65
with the scales of block-scaled formats, and puts the column values in flight for row AP, to land L cycles on in issue
order; AP steps, and a row is poisoned by its operand, its bank or its scales. Model's choice: log entry 134. -/
def Obligations.ArrayIssues : Prop :=
  ∀ row ∈ macRows, ∀ (s : State) (t : TileId) (u : Upset) (e : TabEntry), Fires s t u e →
    eUnit e = 1 → eKind e = row.2.1 →
    ∃ s', exec (row.1 t u) s = .next s' ∧
      let pre := atStart s t
      let mode := pre.arr.mode.toNat
      let f := eCufmt e
      let bank := if eFlag2 e then pre.arr.shadow else pre.arr.active
      let ap := if eFlag2 e then 0 else pre.arr.ap
      let a := operandA s t u e
      ∃ r : RowAdd, (tileOf s' t).fly = addFlight pre.fly ⟨pre.tab.tc + arrLatency mode, .issue .arr [r]⟩ ∧
        r.row = ap ∧ r.z = eFlag3 e ∧ r.int = isInt f ∧
        r.poison = (a.poison || bank.poison || (isBlockScaled f && pre.arr.scPoison)) ∧
        (∃ g, r.groups = [g] ∧ g.length = arrCols mode ∧ ∀ c < arrCols mode, g[c]? = some
          (columnValue
            (if isBlockScaled f then scaleExp (mget 127 pre.arr.ascl (eFlagLow e)) (mget 127 bank.scales c) else some 0)
            ((List.range (arrRows mode * perCell f)).map fun i =>
              mkProd row.2.2.1 row.2.2.2 (decodeElem f (bankElem bank pre.arr.orient f i c))
                (decodeElem f (fld a.data.toNat (8 * streamBytes mode f * eFlagLow e + fmtBits f * i) (fmtBits f)))))) ∧
        (tileOf s' t).arr.ap = (ap + 1) % arrDepth mode ∧
        (tileOf s' t).arr.active = bank ∧ (tileOf s' t).arr.acc = pre.arr.acc ∧
        (eSrcb e = 0 → (tileOf s' t).arr.shadow = if eFlag2 e then pre.arr.active else pre.arr.shadow) ∧
        (tileOf s' t).sp = pre.sp ∧ (tileOf s' t).vfire = pre.vfire

/-- R64, R66: INT8 and INT4 columns are exact. Whatever the codes, the column sum added into an INT32 row is the exact sum
of the products, saturated to 32 bits, and saturation is reported exactly when the sum leaves the range. -/
def Obligations.IntegerColumnsExact : Prop :=
  ∀ (f : Nat), f = fInt8 ∨ f = fInt4 → ∀ (z : Bool) (old : Nat) (l : List (Nat × Nat)),
    let b := fmtBits f
    let sum : Int := (l.map fun p => sext (fld p.1 0 b) b * sext (fld p.2 0 b) b).sum
    let total := (if z then 0 else sext old 32) + sum
    accAdd true z old (columnValue (some 0) (l.map fun p =>
      mkProd .whole .whole (decodeElem f p.1) (decodeElem f p.2))) =
      (toTwos (max (-(2 ^ 31)) (min total (2 ^ 31 - 1))) 32, decide (total < -(2 ^ 31) ∨ 2 ^ 31 - 1 < total))

/-- R60: DRAIN. Row DP is cut into units of 16 columns, first columns first; unit m leaves in cycle n + 1 + m for the slot
the write generator gives it, one step after the other, the channel and the string that DST names, LASTM on the last alone;
DP steps, from 0 when CUFLAG[2] is set, VACCP returns to 0, and CUFLAG[3] clears the row. -/
def Obligations.ArrayDrain : Prop :=
  ∀ (s : State) (t : TileId) (u : Upset) (e : TabEntry), Fires s t u e → eUnit e = 1 → eKind e = 14 →
    mwf {} (atStart s t).arr.acc = true →
    ∃ s', exec (.arrDrain t u) s = .next s' ∧
      let pre := atStart s t
      let a := pre.arr
      let units := arrCols a.mode.toNat / 16
      let dp := if eFlag2 e then 0 else a.dp
      let old := mget {} a.acc dp
      let g := pre.mu.ag1
      let slots := fun m => if units = 1 then agAddr g (eWrop e) else (Nat.repeat (agStep · 1) m g).cur.toNat
      (∃ fs : List Flight, fs.length = units ∧ (tileOf s' t).fly = fs.foldl addFlight pre.fly ∧
        ∀ m < units, ∃ em : Emit, fs[m]? = some ⟨pre.tab.tc + 1 + m, .drain false em⟩ ∧
          em.data.toNat = fld old.bits.toNat (512 * m) 512 ∧ em.poison = old.poison ∧
          em.last = (decide (m + 1 = units) && eLastm e) ∧
          em.chan = (if dstNet e then some (eOutch e) else none) ∧ em.scalar = decide (eDst e = 4) ∧
          em.slot = (if dstMu e then some (slots m) else none)) ∧
      (∀ r, mget {} (tileOf s' t).arr.acc r = if r = dp ∧ eFlag3 e then {} else mget {} a.acc r) ∧
      (tileOf s' t).arr = { a with dp := (dp + 1) % arrDepth a.mode.toNat, vaccp := 0, acc := (tileOf s' t).arr.acc
                                   busyTo := (tileOf s' t).arr.busyTo } ∧
      (tileOf s' t).sp = pre.sp ∧ (tileOf s' t).vfire = pre.vfire ∧
      (tileOf s' t).mu.ag1 = (if dstMu e then (if units = 1 then agStep g (eWrop e) else Nat.repeat (agStep · 1) units g)
        else g)

/-! ## Landings (R25, R60, R61, R70, R98, R127, R135, R136) -/

/-- The landing of column values: the command, and the issues it lands. -/
def issueLandings : List ((TileId → Nat → Instr) × IssueKind) :=
  [(.arrayContributionLand, .arr), (.mac24Land, .mac24), (.segLand, .seg), (.fallbackChunkLand, .chunk)]

/-- The accumulator an issue lands in. -/
def accOf (k : IssueKind) (t : Tile) : SMap AccRow := if k = .arr then t.arr.acc else t.sp.acc

/-- R61, R64, R70, R127, R135, R136, R146: the contribution of the oldest issue of a kind lands, once its cycle has come.
Each lane of its row takes the column values one group after the other; the row is poisoned by its old poison unless it is
overwritten, by the issue, or by a residue mismatch, and no other row changes. A mismatch raises one residue event that
names the lowest column and all of them. Model's choice: log entry 132. -/
def Obligations.IssuesLand : Prop :=
  ∀ row ∈ issueLandings, ∀ (s : State) (t : TileId) (mism : Nat) (vis : Nat) (r : RowAdd) (rest : List Flight),
    tileExists s t = true → mwf {} s.tiles = true → issuing (tileOf s t) = true → vis ≤ (tileOf s t).tab.tc →
    (tileOf s t).fly = ⟨vis, .issue row.2 [r]⟩ :: rest → mwf {} (accOf row.2 (tileOf s t)) = true → mism < 2 ^ 64 →
    ∃ s', exec (row.1 t mism) s = .next s' ∧
      let old := accOf row.2 (tileOf s t)
      let new := accOf row.2 (tileOf s' t)
      (mget {} new r.row).bits =
        BitVec.ofNat 2048 (addGroups r.int r.z (mget {} old r.row).bits.toNat r.groups).1 ∧
      (mget {} new r.row).poison = (((mget {} old r.row).poison && !r.z) || r.poison || decide (mism ≠ 0)) ∧
      (∀ k, k ≠ r.row → mget {} new k = mget {} old k) ∧
      (tileOf s' t).fly = rest ∧ (tileOf s' t).mu = (tileOf s t).mu ∧ (tileOf s' t).tab = (tileOf s t).tab ∧
      s' = { s with tiles := s'.tiles, cycle := max s.cycle (tileOf s t).tab.lastCore }

/-- R25, R60: the two commands that land data of an entry in a slot. The unit of a move or of a drain reaches its slot with
its poison in its landing cycle, the slot's tag and every other slot standing. -/
def UnitsLandInSlots : Prop :=
  ∀ (s : State) (t : TileId) (vis i : Nat) (em : Emit) (rest : List Flight),
    tileExists s t = true → mwf {} s.tiles = true → issuing (tileOf s t) = true → vis ≤ (tileOf s t).tab.tc →
    em.slot = some i → em.chan = none → em.scalar = false → mwf {} (tileOf s t).mu.slots = true →
    let lands := fun (i' : Instr) => ∃ s', exec i' s = .next s' ∧
      let old := (tileOf s t).mu.slots
      let new := (tileOf s' t).mu.slots
      (mget {} new i).data = em.data ∧ (mget {} new i).poison = em.poison ∧
      (mget {} new i).full = (mget {} old i).full ∧ (∀ k, k ≠ i → mget {} new k = mget {} old k) ∧
      (tileOf s' t).fly = rest ∧ (tileOf s' t).fret = (tileOf s t).fret ∧ (tileOf s' t).arr = (tileOf s t).arr ∧
      (tileOf s' t).sp = (tileOf s t).sp ∧ (tileOf s' t).tab = (tileOf s t).tab
    ((tileOf s t).fly = ⟨vis, .move em⟩ :: rest → lands (.tabMoveLand t)) ∧
    (∀ sp, (tileOf s t).fly = ⟨vis, .drain sp em⟩ :: rest → lands (.drainFlit t))

/-- R25, R26, R60: moves, and what the units write into the scratchpad. Model's choices: log entries 7, 11. -/
def Obligations.MovesAndLandings : Prop := TabMoves ∧ UnitsLandInSlots

/-- R98, R112, R114, R116: the oldest vector entry leaves V6. A register read sees the buffers as the entry left them, the
counters of observed elements, zeros and saturations rise by what it produced, and its unit, poisoned by any residue
mismatch, reaches its slot. -/
def Obligations.VectorLeavesV6 : Prop :=
  ∀ (s : State) (t : TileId) (mism vis i : Nat) (em : Emit) (fx : VecFx) (b : VBuf) (rest : List Flight),
    tileExists s t = true → mwf {} s.tiles = true → issuing (tileOf s t) = true → vis ≤ (tileOf s t).tab.tc →
    (tileOf s t).fly = ⟨vis, .vec (some em) fx b⟩ :: rest → fx.packWrite = false → fx.overflowGroup = none →
    em.slot = some i → em.chan = none → em.scalar = false →
    mwf {} (tileOf s t).mu.slots = true → mwf 0 (tileOf s t).ctr = true → mism < 2 ^ 16 →
    ∃ s', exec (.vectorV6 t mism) s = .next s' ∧
      let pre := tileOf s t
      let post := tileOf s' t
      post.vshow = b ∧ post.vfire = pre.vfire ∧ post.fly = rest ∧
      (mget {} post.mu.slots i).data = em.data ∧ (mget {} post.mu.slots i).poison = (em.poison || decide (mism ≠ 0)) ∧
      (∀ k, k ≠ i → mget {} post.mu.slots k = mget {} pre.mu.slots k) ∧
      ctrVal post .vecElem = min (ctrVal pre .vecElem + fx.elems) ctrMax ∧
      ctrVal post .vecZero = min (ctrVal pre .vecZero + fx.zeros) ctrMax ∧
      ctrVal post .cvtSat = min (ctrVal pre .cvtSat + fx.sat) ctrMax ∧
      (mism = 0 → ctrVal post .vecResidue = ctrVal pre .vecResidue) ∧
      (mism ≠ 0 → ctrVal post .vecResidue = min (ctrVal pre .vecResidue + popcount mism 16) ctrMax) ∧
      post.arr = pre.arr ∧ post.sp = pre.sp ∧ post.tab = pre.tab ∧ post.fret = pre.fret

/-! ## The sparse engine (R118-R149) -/

/-- R125, R132: the loads of the sparse engine. LOAD writes column LCOL of the shadow bank from the part of operand B that G
selects and steps LCOL; LOADM writes the masks of 16 columns, or of 8 in the double-rate formats; LOADSC loads scales; SWAP
exchanges the banks; GLOAD writes 4 gather rows of an 8-bit format or 2 of bfloat16 behind GROW, from 0 when it restarts. -/
def SparseLoads : Prop :=
  ∀ (s : State) (t : TileId) (u : Upset) (e : TabEntry), Fires s t u e → eUnit e = 2 →
    let a := (atStart s t).sp
    let b := operandB s t u e
    let f := eCufmt e
    let ends := fun (c : TileId → Upset → Instr) (p : SparseUnit → Prop) =>
      ∃ s', exec (c t u) s = .next s' ∧ p (tileOf s' t).sp ∧ (tileOf s' t).arr = (atStart s t).arr ∧
        (tileOf s' t).vfire = (atStart s t).vfire ∧ (tileOf s' t).fly = (atStart s t).fly
    (eKind e = 1 → mwf 0 a.shadow.cols = true → ends .spLoad fun r =>
      (mget 0 r.shadow.cols a.lcol).toNat = fld b.data.toNat (8 * colBytes f * eG e) (8 * colBytes f) ∧
      r.lcol = (a.lcol + 1) % 16 ∧ r.active = a.active ∧ r.acc = a.acc ∧ r.gather = a.gather ∧ r.step = a.step ∧
      (a.lcol = 0 → r.shadow.fmt.toNat = f ∧ r.shadow.valid = true ∧ r.shadow.masks = [] ∧ r.shadow.poison = b.poison) ∧
      ∀ k, k ≠ a.lcol → mget 0 r.shadow.cols k = mget 0 a.shadow.cols k) ∧
    (eKind e = 2 → mwf 0 a.shadow.masks = true → ends .loadm fun r =>
      (∀ c < (if bankDouble a.shadow then 8 else 16),
        (mget 0 r.shadow.masks (if bankDouble a.shadow then 8 * eG e + c else c)).toNat =
          if bankDouble a.shadow then elem b.data.toNat 64 c else elem b.data.toNat 32 c) ∧
      r.shadow.cols = a.shadow.cols ∧ r.shadow.poison = (a.shadow.poison || b.poison) ∧ r.active = a.active ∧
      r.acc = a.acc ∧ r.step = a.step) ∧
    (eKind e = 3 → ends .spLoadsc fun r => r.active = a.active ∧ r.acc = a.acc ∧ r.step = a.step ∧
      (if bit (eCuflag e) 0 then
        (∀ i < 4, (mget 127 r.ascl i).toNat = elem b.data.toNat 8 i) ∧ r.scPoison = b.poison ∧ r.shadow = a.shadow
      else
        (∀ c < (if bankDouble a.shadow then 32 else 16), (mget 127 r.shadow.scales c).toNat = elem b.data.toNat 8 c) ∧
        r.shadow.masks = a.shadow.masks ∧ r.ascl = a.ascl)) ∧
    (eKind e = 4 → ends .spSwap fun r => r = { a with active := a.shadow, shadow := a.active, lcol := 0 }) ∧
    (eKind e = 6 → mwf 0 a.gather = true → ends .gload fun r =>
      let grow := if eFlag3 e then 0 else a.grow
      let n := if fmtBits f = 8 then 4 else 2
      (∀ i < n, (mget 0 r.gather (grow + i)).toNat = fld b.data.toNat (16 * fmtBits f * i) (16 * fmtBits f)) ∧
      (∀ k, k < grow ∨ grow + n ≤ k → mget 0 r.gather k = mget 0 a.gather k) ∧
      r.grow = grow + n ∧ r.gk = grow + n ∧ r.gPoison = ((a.gPoison && !eFlag3 e) || b.poison) ∧
      r.active = a.active ∧ r.shadow = a.shadow ∧ r.acc = a.acc ∧ r.step = a.step)

/-- R124, R126, R128: a 2:4 issue. Each of the 16 columns multiplies its used values, the two lowest set bits of each
group's mask, with the streaming elements at those positions, the two halves of a double-rate column as two groups added in
order, and lands 36 cycles on in row AP, poisoned also by a mask with more than two bits set in a group. -/
def Obligations.SparseIssues : Prop :=
  ∀ (s : State) (t : TileId) (u : Upset) (e : TabEntry), Fires s t u e → eUnit e = 2 → eKind e = 5 →
    ∃ s', exec (.mac24 t u) s = .next s' ∧
      let pre := atStart s t
      let f := eCufmt e
      let bank := if eFlag2 e then pre.sp.shadow else pre.sp.active
      let ap := if eFlag2 e then 0 else pre.sp.ap
      let a := operandA s t u e
      let halves := if isDouble f then 2 else 1
      ∃ r : RowAdd, (tileOf s' t).fly = addFlight pre.fly ⟨pre.tab.tc + 36, .issue .mac24 [r]⟩ ∧
        r.row = ap ∧ r.z = eFlag3 e ∧ r.int = isInt f ∧
        r.poison = (a.poison || bank.poison
          || (List.range 16).any (fun c => decide (overGroups (isDouble f) (mget 0 bank.masks c) ≠ []))
          || (isBlockScaled f && pre.sp.scPoison)) ∧
        r.groups.length = halves ∧
        (∀ h < halves, ∃ g, r.groups[h]? = some g ∧ g.length = 16 ∧ ∀ c < 16, g[c]? = some
          (columnValue
            (if isBlockScaled f then
              (if isDouble f then scaleExp (mget 127 pre.sp.ascl (2 * eFlagLow e + h)) (mget 127 bank.scales (2 * c + h))
               else scaleExp (mget 127 pre.sp.ascl (eFlagLow e)) (mget 127 bank.scales c))
             else some 0)
            ((usedValues f (mget 0 bank.cols c) (mget 0 bank.masks c) (8 * h) 8).map fun q =>
              mkProd .whole .whole (decodeElem f q.1)
                (decodeElem f (fld a.data.toNat (8 * stream24 f * eFlagLow e + fmtBits f * q.2) (fmtBits f)))))) ∧
        (tileOf s' t).sp.ap = (ap + 1) % 64 ∧ (tileOf s' t).sp.active = bank ∧ (tileOf s' t).sp.acc = pre.sp.acc ∧
        (tileOf s' t).arr = pre.arr ∧ (tileOf s' t).vfire = pre.vfire

/-- R133: BEGIN opens a step. The count and the descriptor are read from the operands; the step runs in mode FALLBACK when
the count exceeds the budget or an operand is poisoned; the accumulator rows of the step are cleared, poisoned when an
operand is; MAXCNT keeps the largest count. -/
def SparseStepOpens : Prop :=
  ∀ (s : State) (t : TileId) (u : Upset) (e : TabEntry), Fires s t u e → eUnit e = 2 → eKind e = 7 →
    mwf {} (atStart s t).sp.acc = true →
    ∃ s', exec (.beginStep t u) s = .next s' ∧
      let pre := (atStart s t).sp
      let a := operandA s t u e
      let b := operandB s t u e
      let bad := a.poison || b.poison
      let w := b.data.toNat
      let count := fld a.data.toNat 0 32
      pre.step = none ∧
      (∃ p, (tileOf s' t).sp.step = some p ∧ p.count = count ∧ p.budget = fld w 0 16 ∧ p.rows = fld w 16 8 ∧
        p.kt = fld w 24 9 ∧ p.dbase = fld w 40 11 ∧ p.fmt = fld w 56 4 ∧ p.semid = fld w 64 6 ∧
        p.fallback = (decide (fld w 0 16 < count) || bad) ∧ p.segn = 0 ∧ p.fetched = 0 ∧ p.issued = 0 ∧
        p.begun = (atStart s t).tab.tc) ∧
      (tileOf s' t).sp.frame = sext (fld w 72 8) 8 ∧
      (∀ r, mget {} (tileOf s' t).sp.acc r =
        if r < fld w 16 8 then { bits := 0, poison := bad } else mget {} pre.acc r) ∧
      (tileOf s' t).sp.maxcnt.toNat = max pre.maxcnt.toNat count ∧
      (tileOf s' t).sp.active = pre.active ∧ (tileOf s' t).sp.gather = pre.gather ∧ (tileOf s' t).fly = (atStart s t).fly

/-- R134: a SEG of the open step. While the step is SPARSE and fewer segments than COUNT have issued, it is a real issue, in
flight for 40 cycles; otherwise a pad, which only counts. Both are counted toward BUDGET, and the BUDGET-th fixes the cycle
of completion. -/
def SegmentIssues : Prop :=
  ∀ (s : State) (t : TileId) (u : Upset) (e : TabEntry) (p : SpStep), Fires s t u e → eUnit e = 2 → eKind e = 8 →
    (atStart s t).sp.step = some p → mwf 0 (atStart s t).ctr = true →
    ∃ s', exec (.seg t u) s = .next s' ∧
      let pre := atStart s t
      let post := tileOf s' t
      p.segn < p.budget ∧
      post.sp.step = some { p with
        segn := p.segn + 1, lastSeg := if p.segn + 1 = p.budget then some pre.tab.tc else p.lastSeg } ∧
      (if p.fallback = false ∧ p.segn < p.count then
        (∃ rows, post.fly = addFlight pre.fly ⟨pre.tab.tc + 40, .issue .seg rows⟩) ∧
        ctrVal post .spPad = ctrVal pre .spPad ∧ ctrVal post .spIssue = min (ctrVal pre .spIssue + 1) ctrMax
      else
        post.fly = pre.fly ∧ ctrVal post .spPad = min (ctrVal pre .spPad + 1) ctrMax ∧
        ctrVal post .spIssue = ctrVal pre .spIssue) ∧
      post.sp.acc = pre.sp.acc ∧ post.arr = pre.arr

/-- R133, R134: the sparse step and its segments. Model's choices: log entries 14, 15, 133. -/
def Obligations.SparseStepsAndSegments : Prop := SparseStepOpens ∧ SegmentIssues

/-- R136, R160: the engine in mode FALLBACK. While no packet read waits and none claims the cycle, a fetch takes the next
slot of the dense slice, with its poison, into a fetch buffer of two, changing no tag; a chunk issues from the first slot of
the buffer, at the earliest in the cycle after its fetch, in a cycle that is neither masked nor stretched, 40 cycles in
flight, and a slot whose last chunk has issued leaves the buffer. -/
def FallbackEngine : Prop :=
  ∀ (s : State) (t : TileId) (p : SpStep), tileExists s t = true → mwf {} s.tiles = true →
    issuing (tileOf s t) = true → (tileOf s t).sp.step = some p → p.fallback = true →
    let pre := tileOf s t
    let q := pre.tab.tc - 1
    (p.fetched < stepSlots p → p.buf.length < 2 → pre.mu.reads = [] → pre.mu.rUsed ≤ q → p.begun < q → readClaimed pre q = false →
      ∃ s', exec (.fallbackFetch t .clean) s = .next s' ∧
        let o := mget {} pre.mu.slots (p.dbase + p.fetched)
        (tileOf s' t).sp.step = some { p with fetched := p.fetched + 1, buf := p.buf ++ [(o.data, o.poison, q)] } ∧
        (tileOf s' t).mu.slots = pre.mu.slots ∧ (tileOf s' t).mu.rUsed = q + 1 ∧ (tileOf s' t).fly = pre.fly) ∧
    (∀ d poison f rest, p.buf = (d, poison, f) :: rest → f < q → p.issued < stepChunks p →
      (if p.issued = 0 then p.begun + 1 else p.lastChunk + 1) ≤ q → pre.sp.mac24At ≤ q →
      (tileEnv s t.x t.y s.cycle).mask = true → (tileEnv s t.x t.y s.cycle).stretched = false →
      ∃ s', exec (.fallbackChunkIssue t) s = .next s' ∧
        (tileOf s' t).sp.step = some { p with
          issued := p.issued + 1, lastChunk := q
          buf := if (p.issued + 1) % chunksPerSlot p.fmt = 0 then rest else p.buf } ∧
        (tileOf s' t).fly = addFlight pre.fly
          ⟨q + 40, .issue .chunk (chunkIssue pre.sp p p.issued d poison).rows⟩ ∧
        (tileOf s' t).mu = pre.mu ∧ (tileOf s' t).sp.acc = pre.sp.acc)

/-- R137, R28: a step completes when its last issue has landed: the step closes and its semaphore takes 1, capacity
allowing. -/
def SparseStepCompletes : Prop :=
  ∀ (s : State) (t : TileId) (p : SpStep) (d : Nat), tileExists s t = true → mwf {} s.tiles = true →
    issuing (tileOf s t) = true → (tileOf s t).sp.step = some p → stepDone p = some d → d ≤ (tileOf s t).tab.tc →
    let sem := mget {} (tileOf s t).mu.sems p.semid
    mwf {} (tileOf s t).mu.sems = true → sem.at_ ≠ (tileOf s t).tab.lastCore + 1 → sem.val.toNat < sem.cap.toNat →
    ∃ s', exec (.sparseStepComplete t) s = .next s' ∧
      (tileOf s' t).sp.step = none ∧
      (mget {} (tileOf s' t).mu.sems p.semid).val.toNat = sem.val.toNat + 1 ∧
      (∀ i, i ≠ p.semid → mget {} (tileOf s' t).mu.sems i = mget {} (tileOf s t).mu.sems i) ∧
      (tileOf s' t).sp.acc = (tileOf s t).sp.acc ∧ (tileOf s' t).mu.slots = (tileOf s t).mu.slots ∧
      (tileOf s' t).fly = (tileOf s t).fly ∧ (tileOf s' t).arr = (tileOf s t).arr

/-- R28, R136, R137: the fallback engine, and the end of a sparse step. Model's choice: log entry 13. -/
def Obligations.FallbackAndCompletion : Prop := FallbackEngine ∧ SparseStepCompletes

/-- R141: DRAIN of the sparse engine. The row at DP leaves in the next cycle, natively as it stands; in fixed point each
lane is scaled by 2^-FRAME and rounded to INT32; DP steps, and CUFLAG[3] clears the row. -/
def SparseDrain : Prop :=
  ∀ (s : State) (t : TileId) (u : Upset) (e : TabEntry), Fires s t u e → eUnit e = 2 → eKind e = 9 →
    mwf {} (atStart s t).sp.acc = true →
    ∃ s', exec (.spDrain t u) s = .next s' ∧
      let pre := atStart s t
      let dp := if eFlag2 e then 0 else pre.sp.dp
      let old := mget {} pre.sp.acc dp
      (∃ em : Emit, (tileOf s' t).fly = addFlight pre.fly ⟨pre.tab.tc + 1, .drain true em⟩ ∧
        em.last = eLastm e ∧ em.chan = (if dstNet e then some (eOutch e) else none) ∧
        em.slot = (if dstMu e then some (agAddr pre.mu.ag1 (eWrop e)) else none) ∧
        (eFlagLow e ≠ 1 → em.data.toNat = fld old.bits.toNat 0 512 ∧ em.poison = old.poison) ∧
        (eFlagLow e = 1 → ∀ j < 16, elem em.data.toNat 32 j =
          (convInt fInt32 .rne (vScale (decodeFloat fBinary32 (elem old.bits.toNat 32 j)) (-pre.sp.frame))).code % 2 ^ 32)) ∧
      (tileOf s' t).sp.dp = (dp + 1) % 64 ∧
      (∀ r, mget {} (tileOf s' t).sp.acc r = if r = dp ∧ eFlag3 e then {} else mget {} pre.sp.acc r) ∧
      (tileOf s' t).sp.active = pre.sp.active ∧ (tileOf s' t).arr = pre.arr

/-- R125, R132, R141: the loads of the sparse engine, and its drain. Model's choices: log entries 17, 28. -/
def Obligations.SparseLoadsAndDrains : Prop := SparseLoads ∧ SparseDrain

/-! ## The vector pipeline and the compressor (R98-R117) -/

/-- What a lane computes (R102): the operation of a code on two lane codes of a format. -/
def laneOf (op f x y : Nat) : Nat :=
  let w := fmtBits f
  let int2 := fun (g : Int → Int → Int) => toTwos (satInt (g (sext x w) (sext y w)) w) w
  let flt2 := fun (g : Val → Val → Val) => roundTo f (g (decodeFloat f x) (decodeFloat f y))
  match op with
  | 0x02 => if isInt f then int2 (· + ·) else flt2 vAdd
  | 0x03 => if isInt f then int2 (· - ·) else flt2 fun a b => vAdd a (vNeg b)
  | 0x04 => if isInt f then int2 (· * ·) else flt2 vMul
  | 0x05 => if isInt f then int2 min else flt2 vMin
  | 0x06 => if isInt f then int2 max else flt2 vMax
  | 0x07 => if isInt f then int2 fun a _ => a.natAbs else flt2 fun a _ => vAbs a
  | 0x08 => if isInt f then int2 fun a _ => -a else flt2 fun a _ => vNeg a
  | 0x09 => if (if isInt f then decide (sext y w < sext x w) else vLt (decodeFloat f y) (decodeFloat f x))
      then 2 ^ w - 1 else 0
  | 0x0A => if (if isInt f then decide (sext x w = sext y w) else vEq (decodeFloat f x) (decodeFloat f y))
      then 2 ^ w - 1 else 0
  | 0x0E => x * 2 ^ (y % w)
  | 0x0F => toTwos (sext x w / (2 : Int) ^ (y % w)) w
  | 0x10 => flt2 fun a _ => vRcp a
  | 0x11 => flt2 fun a _ => vRsqrt a
  | 0x12 => flt2 fun a _ => vExp2 a
  | _ => flt2 fun a _ => vLog2 a

/-- The commands whose lanes are independent, with their codes. -/
def laneRows : List ((TileId → Upset → Instr) × Nat) :=
  [(.vadd, 0x02), (.vsub, 0x03), (.vmul, 0x04), (.vmin, 0x05), (.vmax, 0x06), (.vabs, 0x07), (.vneg, 0x08),
   (.vcmpgt, 0x09), (.vcmpeq, 0x0A), (.vshl, 0x0E), (.vshr, 0x0F), (.vrcp, 0x10), (.vrsqrt, 0x11), (.vexp2, 0x12),
   (.vlog2, 0x13)]

/-- An entry of the vector pipeline with an operation code. -/
def VecEntry (e : TabEntry) (op : Nat) : Prop := eUnit e = 3 ∧ eCuop e = op

/-- Part VACCP of accumulator row DP as an operand (R104). -/
def accOperand (r : ArrayUnit) : Opd :=
  { data := BitVec.ofNat 512 (fld (mget {} r.acc r.dp).bits.toNat (512 * r.vaccp) 512), poison := (mget {} r.acc r.dp).poison }

/-- VACCP advances, and DP with it past the last part of a row (R104). -/
def accNext (r : ArrayUnit) : ArrayUnit :=
  if arrCols r.mode.toNat / 16 ≤ r.vaccp + 1 then { r with vaccp := 0, dp := (r.dp + 1) % arrDepth r.mode.toNat }
  else { r with vaccp := r.vaccp + 1 }

/-- Operands A and B of a vector entry, and the array after it (R100, R104): the sources; with SRCA 0 an accumulator part,
and for the operations on a pair of operands with SRCB 0 the next part too. -/
def vecReads (s : State) (t : TileId) (u : Upset) (e : TabEntry) : Opd × Opd × ArrayUnit :=
  let r := (atStart s t).arr
  if eSrca e ≠ 0 then (operandA s t u e, operandB s t u e, r)
  else if (eCuop e = 0x21 ∨ eCuop e = 0x30 ∨ eCuop e = 0x31) ∧ eSrcb e = 0 then
    (accOperand r, accOperand (accNext r), accNext (accNext r))
  else (accOperand r, operandB s t u e, accNext r)

/-- The place a unit of a vector entry goes to. -/
def vecEmit (s : State) (t : TileId) (e : TabEntry) (d : Unit512) (poison : Bool) : Emit :=
  { slot := if dstMu e then some (agAddr (atStart s t).mu.ag1 (eWrop e)) else none
    chan := if dstNet e then some (eOutch e) else none, scalar := decide (eDst e = 4)
    data := d, poison := poison, last := eLastm e }

/-- The unit an entry sends, when it has a DST. -/
def vecSent (s : State) (t : TileId) (e : TabEntry) (d : Unit512) (poison : Bool) : Option Emit :=
  if eDst e = 0 then none else some (vecEmit s t e d poison)

/-- R98, R99, R102, R104: element-wise operations. Every lane of the unit that leaves V6 six cycles after the fire, when the
entry has a DST, is the operation of the two lanes of the operands, rounded once or saturated; the compressor's buffers and
the sparse engine stand, and the array but for the pointers of an accumulator operand. -/
def LaneOperations : Prop :=
  ∀ row ∈ laneRows, ∀ (s : State) (t : TileId) (u : Upset) (e : TabEntry), Fires s t u e → VecEntry e row.2 →
    ∃ s', exec (row.1 t u) s = .next s' ∧
      let pre := atStart s t
      let f := eCufmt e
      let w := fmtBits f
      let (a, b, arr) := vecReads s t u e
      ∃ d fx, (tileOf s' t).fly = addFlight pre.fly ⟨pre.tab.tc + 6,
          .vec (vecSent s t e d (a.poison || (vecUsesB row.2 && b.poison))) fx pre.vfire⟩ ∧
        (∀ j < 512 / w, elem d.toNat w j =
          laneOf row.2 f (elem a.data.toNat w j) (elem b.data.toNat w j) % 2 ^ w) ∧
        (eDst e ≠ 0 → fx.elems = 512 / w) ∧
        (tileOf s' t).vfire = pre.vfire ∧ (tileOf s' t).arr = arr ∧ (tileOf s' t).sp = pre.sp

/-- R98, R100, R104: moves and logic. The unit that leaves is operand A, or the AND, OR or exclusive OR of both, bit for
bit. -/
def BitwiseOperations : Prop :=
  ∀ row ∈ ([(.vmov, 0x01, fun a _ => a), (.vand, 0x0B, (· &&& ·)), (.vor, 0x0C, (· ||| ·)), (.vxor, 0x0D, (· ^^^ ·))] :
      List ((TileId → Upset → Instr) × Nat × (Unit512 → Unit512 → Unit512))),
    ∀ (s : State) (t : TileId) (u : Upset) (e : TabEntry), Fires s t u e → VecEntry e row.2.1 →
    ∃ s', exec (row.1 t u) s = .next s' ∧
      let pre := atStart s t
      let (a, b, arr) := vecReads s t u e
      (∃ fx, (tileOf s' t).fly = addFlight pre.fly ⟨pre.tab.tc + 6,
        .vec (vecSent s t e (row.2.2 a.data b.data) (a.poison || (vecUsesB row.2.1 && b.poison))) fx pre.vfire⟩) ∧
      (tileOf s' t).vfire = pre.vfire ∧ (tileOf s' t).arr = arr ∧ (tileOf s' t).sp = pre.sp

/-- R103: the reductions. Lane 0 holds the value of a fixed tree over the 16 lanes, neighbours first; every other lane is
+0. -/
def Obligations.TreeReductions : Prop :=
  ∀ row ∈ ([(.vrsum, 0x14, true), (.vrmax, 0x15, false)] : List ((TileId → Upset → Instr) × Nat × Bool)),
    ∀ (s : State) (t : TileId) (u : Upset) (e : TabEntry), Fires s t u e → VecEntry e row.2.1 →
    ∃ s', exec (row.1 t u) s = .next s' ∧
      let pre := atStart s t
      let f := eCufmt e
      let (a, _, arr) := vecReads s t u e
      let op := fun x y => if row.2.2 then laneOf 0x02 f x y else laneOf 0x06 f x y
      let l := fun j => elem a.data.toNat 32 j
      let p := fun j => op (l (2 * j)) (l (2 * j + 1))
      let q := fun j => op (p (2 * j)) (p (2 * j + 1))
      let r := fun j => op (q (2 * j)) (q (2 * j + 1))
      ∃ d fx, (tileOf s' t).fly = addFlight pre.fly ⟨pre.tab.tc + 6, .vec (vecSent s t e d a.poison) fx pre.vfire⟩ ∧
        elem d.toNat 32 0 = op (r 0) (r 1) % 2 ^ 32 ∧ (∀ j, 1 ≤ j → j < 16 → elem d.toNat 32 j = 0) ∧
        (tileOf s' t).vfire = pre.vfire ∧ (tileOf s' t).arr = arr ∧ (tileOf s' t).sp = pre.sp

/-- R98, R99, R100, R102, R104: the lane-wise and bitwise operations of the vector pipeline. -/
def Obligations.VectorArithmetic : Prop := LaneOperations ∧ BitwiseOperations

/-- The rounding of element j of a convert (R87, R89, R108): to nearest even, toward zero, or stochastic with the random
integer of its lane, the top 24 bits of the lane's word for operand A and bits [39:16] for operand B. -/
def laneRnd (s : State) (t : TileId) (e : TabEntry) (j : Nat) : Rnd :=
  let b := (atStart s t).tab
  let w := srWord b.seed.toNat t.x t.y b.section_.toNat b.srn.toNat (j % 16)
  if eCuflag e % 4 = 0 then .rne
  else if eCuflag e % 4 = 1 then .rtz
  else .sr (if j < 16 then w / 2 ^ 40 else w / 2 ^ 16 % 2 ^ 24)

/-- The wide format of a convert. -/
def wideOf (e : TabEntry) : Nat := if bit (eCuflag e) 3 then fInt32 else fBinary32

/-- TAB_CVT_SRN after a convert (R89). -/
def srnAfter (e : TabEntry) (n : Reg64) : Reg64 := if eCuflag e % 4 = 2 then n + 1 else n

/-- R89, R93, R104, R105: the widening converts. Lane j of the unit is element 16 g + j of operand A in the wide format,
rounded as the entry says, in CVT.WB scaled by the E8M0 code of its block; the six-bit elements beyond the 85th are zero. -/
def WideningConverts : Prop :=
  ∀ row ∈ ([(.cvtW, 0x18, false), (.cvtWb, 0x28, true)] : List ((TileId → Upset → Instr) × Nat × Bool)),
    ∀ (s : State) (t : TileId) (u : Upset) (e : TabEntry) (g : Nat), g < 8 → Fires s t u e → VecEntry e (row.2.1 + g) →
    ∃ s', exec (row.1 t u) s = .next s' ∧
      let pre := atStart s t
      let f := eCufmt e
      let (a, b, arr) := vecReads s t u e
      ∃ d fx, (tileOf s' t).fly = addFlight pre.fly ⟨pre.tab.tc + 6,
          .vec (vecSent s t e d (a.poison || (row.2.2 && b.poison))) fx pre.vfire⟩ ∧
        (∀ j < 16, elem d.toNat 32 j =
          if fmtBits f = 6 ∧ 85 ≤ 16 * g + j then 0
          else
            let v := decodeElem f (elem a.data.toNat (fmtBits f) (16 * g + j))
            let x := elem b.data.toNat 8 ((16 * g + j) / 32)
            let v := if row.2.2 then (if x = 0xFF then .nan else vScale v ((x : Int) - 127)) else v
            (convElem (wideOf e) (bit (eCuflag e) 2) (laneRnd s t e j) v).code % 2 ^ 32) ∧
        (tileOf s' t).vfire = pre.vfire ∧ (tileOf s' t).arr = arr ∧ (tileOf s' t).sp = pre.sp ∧
        (tileOf s' t).tab.srn = srnAfter e pre.tab.srn

/-- Codes written into the pack buffer from an element on: those elements, and no other bit. -/
def PackedAt (f first n : Nat) (code : Nat → Nat) (old new : Unit512) : Prop :=
  (∀ k < 512 / fmtBits f, elem new.toNat (fmtBits f) k =
    if first ≤ k ∧ k < first + n then code (k - first) % 2 ^ fmtBits f else elem old.toNat (fmtBits f) k) ∧
  (fmtBits f = 6 → fld new.toNat 510 2 = fld old.toNat 510 2)

/-- The narrow codes of a convert's 32 elements, 16 of each operand: under the block scale in CVT.NB, which is 0xFF for a
block that is not finite (R89, R91, R92, R110). -/
def narrowCode (s : State) (t : TileId) (e : TabEntry) (val : Nat → Val) (x i : Nat) : Nat :=
  let conv := fun v => (convElem (eCufmt e) (bit (eCuflag e) 2) (laneRnd s t e i) v).code
  if eCuop e = 0x21 then (if x = 0xFF then 0 else conv (vScale (val i) (127 - (x : Int)))) else conv (val i)

/-- R89, R91, R92, R104, R106, R107, R110, R130: narrowing into the pack buffer. CVT.N adds one group of 16 codes, CVT.NB
one block of two groups with its scale, the 2:4 compressions one group of the values kept, with 32 mask bits; in FP6 group 5
only five codes fit. Without a DST the buffer keeps them, with one it leaves and is empty. -/
def NarrowingConverts : Prop :=
  ∀ row ∈ ([(.cvtN, 0x20), (.cvtNb, 0x21), (.cmp24p, 0x30), (.cmp24f, 0x31)] : List ((TileId → Upset → Instr) × Nat)),
    ∀ (s : State) (t : TileId) (u : Upset) (e : TabEntry), Fires s t u e → VecEntry e row.2 →
    ∃ s', exec (row.1 t u) s = .next s' ∧
      let pre := atStart s t
      let w := pre.vfire
      let v := (tileOf s' t).vfire
      let f := eCufmt e
      let two := decide (row.2 = 0x21)
      let cmp := decide (0x30 ≤ row.2)
      let (a, b, arr) := vecReads s t u e
      let val := fun i => decodeElem (wideOf e) (elem (if i < 16 then a.data else b.data).toNat 32 (i % 16))
      let x := blockScale f ((List.range 32).map val)
      let narrow := narrowCode s t e val x
      let group := fun k => compressGroup f (decide (row.2 = 0x30)) ((List.range 4).map fun i => narrow (4 * k + i))
      let code := fun i => if cmp then nth (group (i / 2)).2.1 (i % 2) 0 else narrow i
      let n := if two then 32 else if fmtBits f = 6 ∧ w.pkg = 5 then 5 else 16
      let bad := a.poison || (vecUsesB row.2 && b.poison)
        || (decide (row.2 = 0x31) && (List.range 8).any fun k => (group k).2.2.2)
      (∃ (pack : Unit512) (fx : VecFx), PackedAt f (16 * w.pkg) n code w.pack pack ∧
        (tileOf s' t).fly = addFlight pre.fly ⟨pre.tab.tc + 6, .vec (vecSent s t e pack (w.packPoison || bad)) fx v⟩ ∧
        v.pack = (if eDst e = 0 then pack else 0) ∧
        v.pkg = (if eDst e = 0 then w.pkg + (if two then 2 else 1) else 0) ∧
        v.packPoison = (decide (eDst e = 0) && (w.packPoison || bad)) ∧
        fx.overflowGroup = (if row.2 = 0x31 then (List.range 8).find? fun k => (group k).2.2.2 else none)) ∧
      (if two then
        v.skp = w.skp + 1 ∧ v.scalePoison = (w.scalePoison || bad) ∧
        ∀ k < 64, elem v.scale.toNat 8 k = if k = w.skp then x % 256 else elem w.scale.toNat 8 k
      else v.skp = w.skp ∧ v.scale = w.scale ∧ v.scalePoison = w.scalePoison) ∧
      (if cmp then
        v.mkp = w.mkp + 1 ∧ v.maskPoison = (w.maskPoison || bad) ∧
        ∀ k < 128, elem v.mask.toNat 4 k = if k / 8 = w.mkp then (group (k % 8)).1 else elem w.mask.toNat 4 k
      else v.mkp = w.mkp ∧ v.mask = w.mask ∧ v.maskPoison = w.maskPoison) ∧
      v.pend = w.pend ∧ v.segcnt = w.segcnt ∧ v.pos = w.pos ∧ v.segPoison = w.segPoison ∧
      (tileOf s' t).tab.srn = srnAfter e pre.tab.srn ∧ (tileOf s' t).arr = arr ∧ (tileOf s' t).sp = pre.sp

/-- R89, R91, R92, R93, R104, R105, R106, R107, R108, R110, R130: the converts of the vector pipeline. Model's choices: log
entries 128, 130. -/
def Obligations.Converts : Prop := WideningConverts ∧ NarrowingConverts

/-- R106, R107, R110, R111: the buffers the compressor emits. PACK.SCL and PACK.MSK emit the scale and the mask buffer and
clear it; CMP.COUNT emits SEGCNT; CMP.RESET discards the pending pairs, clears SEGCNT and sets POS; CMP.SEG appends the
non-zero codes of 16 lanes with their positions and, with 16 pairs or more, writes the oldest 16 as a segment at CUR +
SEGCNT; CMP.FLUSH writes what is pending. Model's choices: log entries 8, 12, 16, 129, 131. -/
def Obligations.CompressorBuffers : Prop :=
  ∀ (s : State) (t : TileId) (u : Upset) (e : TabEntry), Fires s t u e → eUnit e = 3 →
    let pre := atStart s t
    let ends := fun (c : TileId → Upset → Instr) (p : VBuf → Prop) (em : Option Emit) => ∃ s', exec (c t u) s = .next s' ∧
      p (tileOf s' t).vfire ∧
      (∃ fx, (tileOf s' t).fly = addFlight pre.fly ⟨pre.tab.tc + 6, .vec em fx (tileOf s' t).vfire⟩) ∧
      (tileOf s' t).arr = pre.arr ∧ (tileOf s' t).sp = pre.sp
    let w := pre.vfire
    let seg := agWrap pre.mu.ag1 (pre.mu.ag1.cur.toNat + w.segcnt.toNat)
    (eCuop e = 0x22 → ends .packScl (fun v => v = { w with scale := 0, skp := 0, scalePoison := false })
      (some (vecEmit s t e w.scale w.scalePoison))) ∧
    (eCuop e = 0x23 → ends .packMsk (fun v => v = { w with mask := 0, mkp := 0, maskPoison := false })
      (some (vecEmit s t e w.mask w.maskPoison))) ∧
    (eCuop e = 0x3A → ends .cmpCount (fun v => v = w)
      (some (vecEmit s t e (BitVec.ofNat 512 w.segcnt.toNat) false))) ∧
    (eCuop e = 0x3B → ends .cmpReset (fun v => v = { w with
      pend := [], segcnt := 0, pos := if eSrcb e = 0 then 0 else BitVec.ofNat 32 (fld (operandB s t u e).data.toNat 0 32) })
      none) ∧
    (eCuop e = 0x39 → w.pend = [] → ends .cmpFlush (fun v => v = w) none) ∧
    (eCuop e = 0x39 → w.pend ≠ [] → ends .cmpFlush
      (fun v => v = { w with pend := [], segcnt := w.segcnt + 1, segPoison := false })
      (some { vecEmit s t e (BitVec.ofNat 512 (joinElems 32 (w.pend.map (·.toNat)))) w.segPoison with slot := some seg })) ∧
    (eCuop e = 0x38 → ∃ s', exec (.cmpSeg t u) s = .next s' ∧
      let f := eCufmt e
      let (a, _, arr) := vecReads s t u e
      let code := fun j => (convElem f (bit (eCuflag e) 2) (laneRnd s t e j)
        (decodeElem (wideOf e) (elem a.data.toNat 32 j))).code
      let pairs := ((List.range 16).filter fun j => !vIsZero (decodeElem f (code j))).map fun j =>
        BitVec.ofNat 32 (code j % 2 ^ 16 + min (w.pos.toNat + j) 0xFFFF * 2 ^ 16)
      let all := w.pend ++ pairs
      let bad := w.segPoison || a.poison
      let full := 16 ≤ all.length
      let v := (tileOf s' t).vfire
      v = (if full then { w with pend := all.drop 16, pos := w.pos + 16, segcnt := w.segcnt + 1, segPoison := false }
        else { w with pend := all, pos := w.pos + 16, segPoison := bad }) ∧
      (∃ fx, (tileOf s' t).fly = addFlight pre.fly ⟨pre.tab.tc + 6, .vec
        (if full then some { vecEmit s t e (BitVec.ofNat 512 (joinElems 32 ((all.take 16).map (·.toNat)))) bad with
          slot := some seg } else none) fx v⟩) ∧
      (tileOf s' t).arr = arr ∧ (tileOf s' t).sp = pre.sp ∧ (tileOf s' t).tab.srn = srnAfter e pre.tab.srn)

/-! ## The memory unit and its ports (R142-R170, R211) -/

/-- R159, R162, R211: requests delivered at a tile's terminal. A WWRITE flit that its window allows waits in the ingress
buffer as a write of its issuer's class; an MREAD queues its reads; an MU command is accepted, waits behind the one in
progress, or is refused as malformed with MU_CMD and no other effect. The request leaves the terminal, and nothing else
changes. -/
def DeliveredRequests : Prop :=
  ∀ (s : State) (t : TileId) (p : Packet) (rest : List Packet), tileExists s t = true →
    (tileOf s t).fret.inbox = p :: rest →
    let pre := { tileOf s t with fret := { (tileOf s t).fret with inbox := rest } }
    let now := arrivalTime s.cycle pre
    let ends := fun (i : Instr) (tl : Tile) => exec i s = .next (withTile s t tl)
    (∀ d poison, hKind p.header = 1 → p.payload = [(d, poison)] →
      let c := issuerClass (hIssuer p.header)
      let w := mget 0 pre.mu.win (hWin p.header)
      let ofs := hOffset p.header + p.done
      classCount pre c < 4 → wValid w = true → ofs < wLen w → wAllows w c = true → wAccum w = false →
      ends (.wwrite t) { pre with mu := { pre.mu with
        nextId := pre.mu.nextId + 1
        ingress := pre.mu.ingress ++ [{ id := pre.mu.nextId, cls := c, win := hWin p.header, slot := wBase w + ofs
                                        boff := hBoff p.header, bcnt := hBcnt p.header, data := d, poison := poison
                                        arr := now, since := now }] } }) ∧
    (hKind p.header = 2 → ends (.mread t) { pre with mu := { pre.mu with
      nextId := pre.mu.nextId + 1
      reads := pre.mu.reads ++ [{ id := pre.mu.nextId, issuer := hIssuer p.header, header := p.header, arr := now
                                  epoch := p.epoch }] } }) ∧
    (hKind p.header = 3 →
      let w := BitVec.ofNat 64 (hCmd p.header)
      let pat := p.payload.head?.getD (0, false)
      let b : Bulk := { cmd := w, pattern := pat.1, patPoison := pat.2, accepted := now, issuer := hIssuer p.header }
      let ok := muCmdBad w = false ∧ (bOp w = 1 → p.payload ≠ [])
      (¬ ok → ends (.mcmd t) { pre with ev := raisePort pre.ev (mkEv .muCmd 0 w.toNat s.cycle) }) ∧
      (ok → pre.mu.bulk = none → ends (.mcmd t) { pre with mu := { pre.mu with bulk := some b } }) ∧
      (ok → pre.mu.bulk ≠ none → ends (.mcmd t) { pre with mu := { pre.mu with bulkWait := pre.mu.bulkWait ++ [b] } }))

/-- R158: the write port's calendar. With none held by FILLBLOCK, the write or drain that has waited longest, 16 cycles at
least, and has no mark is given the cycle seven after the present one, unless a bulk operation paces that cycle; nothing
else changes. -/
def ExtensionMarks : Prop :=
  ∀ (s : State) (t : TileId), tileExists s t = true → issuing (tileOf s t) = true →
    let pre := tileOf s t
    let now := pre.tab.tc - 1
    (∀ v ∈ pre.mu.ingress, fillHeld pre v = false ∧ v.cls ≠ .cbDrain) → (∀ m ∈ pre.mu.marks, m.cycle ≠ now + 7) →
    (∀ b, pre.mu.bulk = some b → bulkCycle b (now + 7) = false) →
    let marked := fun (id : Nat) => exec (.extMark t) s = .next (withTile s t { closedTile s t with mu := { pre.mu with
      marks := pre.mu.marks ++ [{ cycle := now + 7, owner := id }] } })
    (∀ w ∈ pre.mu.ingress, hasMark pre (now + 1) w.id = false → w.since + 15 ≤ now →
      (∀ v ∈ pre.mu.ingress, v ≠ w → w.since < v.since) →
      (∀ e ∈ pre.mu.cb, ∀ a, e.wants = some a → w.since < a) → marked w.id) ∧
    (∀ e ∈ pre.mu.cb, ∀ a, e.wants = some a → hasMark pre (now + 1) e.id = false → e.last ≤ now → a + 15 ≤ now →
      (∀ v ∈ pre.mu.ingress, a < v.since) → (∀ f ∈ pre.mu.cb, ∀ b, f ≠ e → f.wants = some b → a < b) → marked e.id)

/-- R153, R154, R157, R159, R166, R169, R185: a window write that the port goes to lands in one cycle, before the tab of an
issuing tile reads in it. Its bytes replace those of its slot and the slot takes its poison; at the end of the cycle the
slot is marked full when its window sets tags, every window of FILLBLOCK among them, and the window's arrival counter takes
1; the port is used, the count of non-tab writes rises by one, and no other slot changes. -/
def WindowWritesLand : Prop :=
  ∀ (s : State) (t : TileId) (w : MuWrite), OnGrid s t → issuing (tileOf s t) = true →
    let pre := tileOf s t
    let now := pre.tab.tc
    let r := if w.raw = true then 0 else mget 0 pre.mu.win w.win
    portOwner pre now = some (.write w) → mwf {} pre.mu.slots = true → mwf 0 pre.ctr = true →
    let lands := fun (i : Instr) => ∃ s', exec i s = .next s' ∧
      let post := tileOf s' t
      let old := mget {} pre.mu.slots w.slot
      let new := mget {} post.mu.slots w.slot
      (∀ k < 64, elem new.data.toNat 8 k =
        if w.bcnt = 0 ∨ (w.boff ≤ k ∧ k < w.boff + w.bcnt) then elem w.data.toNat 8 k else elem old.data.toNat 8 k) ∧
      new.poison = w.poison ∧ new.full = old.full ∧
      (wTagmode r ≠ 0 ∨ wAcnten r = true → post.mu.ends = pre.mu.ends ++
        [{ vis := now + 1, core := max s.cycle pre.tab.nextCore, tag := if wTagmode r = 0 then none else some (w.slot, true)
           count := if wAcnten r = true then some (wAcnt r, 1) else none }]) ∧
      (wAcnten r = false → pre.mu.ends = [] → ∀ k, (mget {} (settleEnds (now + 1) post).mu.slots k).full =
        ((mget {} pre.mu.slots k).full || decide (k = w.slot ∧ wTagmode r ≠ 0))) ∧
      (∀ k, k ≠ w.slot → mget {} post.mu.slots k = mget {} pre.mu.slots k) ∧
      post.mu.ingress = pre.mu.ingress.filter (fun v => decide (v.id ≠ w.id)) ∧ post.mu.wUsed = now + 1 ∧
      ctrVal post .muExtw = min (ctrVal pre .muExtw + 1) ctrMax ∧
      post.mu.acnt = pre.mu.acnt ∧ post.mu.sems = pre.mu.sems ∧
      post.mu.queues = pre.mu.queues ∧ post.arr = pre.arr ∧ post.sp = pre.sp ∧ post.vfire = pre.vfire ∧
      post.fly = pre.fly ∧ post.tab.pc = pre.tab.pc
    w.boff + w.bcnt ≤ 64 → lands (.nonTabWriteGrant t) ∧ (w.raw = false → wTagmode r = 2 → lands (.fillblockLand t))

/-- R153, R154, R157, R158, R159, R166, R169, R185: window writes, and the extension marks of their strings. Model's
choices: log entries 20, 164. -/
def Obligations.WindowsAndMarks : Prop := ExtensionMarks ∧ WindowWritesLand

/-- R154, R160, R211: packet reads. A read that has waited 16 cycles claims the port, the one that arrived first and of
these the one of the best issuer; in a free cycle the claimed read, else the one of the best issuer, takes the data, the tag
and the poison of its next slot, no tag changing, and after its last slot the response with all of them enters the fret. An
error of the slot raises its event; a double error poisons the slot and what the read takes. Model's choice: log entry 18.
-/
def Obligations.PacketReads : Prop :=
  ∀ (s : State) (t : TileId) (r : PRead), tileExists s t = true → issuing (tileOf s t) = true →
    let pre := closedTile s t
    let now := pre.tab.tc - 1
    r ∈ pre.mu.reads →
    ((∀ v ∈ pre.mu.reads, v.claimed = false) → r.arr + 15 ≤ now →
      (∀ v ∈ pre.mu.reads, v ≠ r → r.arr < v.arr ∨ r.arr = v.arr ∧ issuerRank r.issuer < issuerRank v.issuer) →
      exec (.packetReadClaim t) s = .next (withTile s t { pre with mu := { pre.mu with
        reads := pre.mu.reads.map fun v => if v.id = r.id then { v with claimed := true } else v } })) ∧
    (∀ e : Ecc, hOffset r.header + r.got.length < 2048 → pre.mu.rUsed ≤ now →
      (∀ b, pre.mu.bulk = some b → bOp b.cmd = 2 → bulkCycle b (now + 1) = false) →
      (∀ v ∈ pre.mu.reads, v ≠ r → v.claimed = false ∧
        (r.claimed = true ∨ issuerRank r.issuer < issuerRank v.issuer)) →
      let k := hOffset r.header + r.got.length
      let o := mget {} pre.mu.slots k
      let r' := { r with claimed := false, got := r.got ++ [(o.data, o.full, o.poison || decide (e = .double))] }
      let up := match e with
        | .clean => pre
        | .single => { pre with ev := raisePort pre.ev (mkEv .spadCorrected 0 k s.cycle) }
        | .double => { pre with
            ev := raisePort pre.ev { mkEv .spadUncorrected 0 k s.cycle with fresh := !o.poison }
            mu := { pre.mu with slots := mset {} pre.mu.slots k { o with poison := true } } }
      (r.got.length + 1 < hNpay r.header → exec (.packetReadGrant t e) s = .next (withTile s t
        { up with mu := { up.mu with
          rUsed := now + 1, reads := pre.mu.reads.map fun v => if v.id = r.id then r' else v } })) ∧
      (hNpay r.header ≤ r.got.length + 1 → exec (.packetReadGrant t e) s = .next (withTile s t
        { up with
          mu := { up.mu with rUsed := now + 1, reads := pre.mu.reads.filter fun v => decide (v.id ≠ r.id) }
          fret := { pre.fret with
            pkts := mmod [] pre.fret.pkts 4 (· ++ packetFlits s.cycle (respPacket r')) } })))

/-- R163, R154: a write of a bulk operation. In its paced cycle FILL writes the pattern, unpoisoned, and COPY the source
slot with its poison, downward when DST lies above SRC; a double error of the source slot poisons it and the copy; at the
end of the cycle TAGSET sets or clears the tag or leaves it, and the last write advances the arrival counter; no other slot
changes. The last write lets a waiting command begin in the next cycle. -/
def Obligations.BulkSlots : Prop :=
  ∀ (s : State) (t : TileId) (b : Bulk) (ecc : Ecc), OnGrid s t → issuing (tileOf s t) = true →
    let pre := tileOf s t
    pre.mu.bulk = some b → bulkDue b ≤ pre.tab.tc → mwf {} pre.mu.slots = true → b.done < bCount b.cmd →
    ∃ s', exec (.bulkSlotWrite t ecc) s = .next s' ∧
      let post := tileOf s' t
      let i := if bOp b.cmd = 2 ∧ bSrc b.cmd < bDst b.cmd then bCount b.cmd - 1 - b.done else b.done
      let d := bDst b.cmd + i
      let src := mget {} pre.mu.slots (bSrc b.cmd + i)
      let upset := bOp b.cmd = 2 ∧ ecc = .double
      let new := mget {} post.mu.slots d
      new.data = (if bOp b.cmd = 1 then b.pattern else src.data) ∧
      new.poison = (if bOp b.cmd = 1 then false else src.poison || decide upset) ∧
      new.full = (mget {} pre.mu.slots d).full ∧
      (b.done + 1 < bCount b.cmd → pre.mu.ends = [] → (mget {} (settleEnds (pre.tab.tc + 1) post).mu.slots d).full =
        (if bTagset b.cmd = 1 then true else if bTagset b.cmd = 2 then false else (mget {} pre.mu.slots d).full)) ∧
      (b.done + 1 = bCount b.cmd → bAcnten b.cmd = true → ∃ e, post.mu.ends = pre.mu.ends ++ [e] ∧ e.vis = pre.tab.tc + 1 ∧
        e.count = some (bAcnt b.cmd, bCount b.cmd)) ∧
      (∀ k, k ≠ d → mget {} post.mu.slots k =
        if upset ∧ k = bSrc b.cmd + i then { mget {} pre.mu.slots k with poison := true } else mget {} pre.mu.slots k) ∧
      (b.done + 1 < bCount b.cmd → post.mu.bulk = some { b with done := b.done + 1 } ∧
        post.mu.bulkWait = pre.mu.bulkWait) ∧
      (b.done + 1 = bCount b.cmd → post.mu.bulkWait = pre.mu.bulkWait.tail ∧
        post.mu.bulk = pre.mu.bulkWait.head?.map (fun n => { n with accepted := pre.tab.tc + 1 })) ∧
      post.mu.acnt = pre.mu.acnt ∧ post.mu.sems = pre.mu.sems ∧
      post.mu.queues = pre.mu.queues ∧ post.arr = pre.arr ∧ post.sp = pre.sp ∧ post.fly = pre.fly ∧
      post.tab.pc = pre.tab.pc

/-- R142, R143, R144: the combining buffer. An accumulate-write adds lane by lane into the entry of its slot, or takes a
free one of eight; with none free the entry allocated first wants to drain and the write waits. An entry idle for 32 cycles
wants to drain. A drain adds the entry into its slot, poison included, and frees it. -/
def Obligations.CombiningBuffer : Prop :=
  ∀ (s : State) (t : TileId), OnGrid s t → issuing (tileOf s t) = true →
    let pre := tileOf s t
    let now := arrivalTime s.cycle pre
    let ends := fun (i : Instr) (p : Tile → Prop) => ∃ s', exec i s = .next s' ∧ p (tileOf s' t) ∧
      (tileOf s' t).mu.queues = pre.mu.queues ∧ (tileOf s' t).arr = pre.arr ∧ (tileOf s' t).sp = pre.sp ∧
      (tileOf s' t).fly = pre.fly ∧ (tileOf s' t).tab.pc = pre.tab.pc
    (∀ w rest e, pre.mu.accq = w :: rest → pre.mu.cb = [e] → e.slot = w.slot → ends (.accumulateWriteArrival t) fun post =>
      post.mu.accq = rest ∧ post.mu.slots = pre.mu.slots ∧ ∃ l, LanesAdded l e.lanes w.data ∧
        post.mu.cb = [{ e with lanes := l, poison := e.poison || w.poison, count := e.count + 1, last := now }]) ∧
    (∀ w rest, pre.mu.accq = w :: rest → (∀ e ∈ pre.mu.cb, e.slot ≠ w.slot) → pre.mu.cb.length < 8 →
      ends (.accumulateWriteArrival t) fun post =>
        post.mu.accq = rest ∧ post.mu.slots = pre.mu.slots ∧
        ∃ id, post.mu.cb = pre.mu.cb ++ [{ slot := w.slot, win := w.win, lanes := w.data, poison := w.poison, count := 1
                                           last := now, id := id }]) ∧
    (∀ w rest e es, pre.mu.accq = w :: rest → pre.mu.cb = e :: es → (∀ v ∈ pre.mu.cb, v.slot ≠ w.slot) → 7 ≤ es.length →
      ends (.accumulateWriteArrival t) fun post =>
        post.mu.accq = pre.mu.accq ∧ post.mu.slots = pre.mu.slots ∧
        post.mu.cb = { e with wants := some (e.wants.getD now) } :: es) ∧
    (∀ e, pre.mu.cb = [e] → e.wants = none → e.last + 32 ≤ pre.tab.tc - 1 → ends (.cbIdleDrain t) fun post =>
      post.mu.cb = [{ e with wants := some (pre.tab.tc - 1) }] ∧ post.mu.slots = pre.mu.slots ∧ post.ctr = pre.ctr) ∧
    (∀ e, portOwner pre pre.tab.tc = some (.drain e) → mwf {} pre.mu.slots = true → ends (.cbDrain t) fun post =>
      let r := mget 0 pre.mu.win e.win
      let old := mget {} pre.mu.slots e.slot
      let new := mget {} post.mu.slots e.slot
      LanesAdded new.data old.data e.lanes ∧ new.poison = (old.poison || e.poison) ∧ new.full = old.full ∧
      (∀ k, k ≠ e.slot → mget {} post.mu.slots k = mget {} pre.mu.slots k) ∧
      post.mu.ends = pre.mu.ends ++ (if wAcnten r = true then [{
        vis := pre.tab.tc + 1, core := max s.cycle pre.tab.nextCore, count := some (wAcnt r, e.count) }] else []) ∧
      post.mu.cb = pre.mu.cb.filter (fun v => decide (v.id ≠ e.id)) ∧ post.mu.wUsed = pre.tab.tc + 1)

/-! ## Queues, signals, the watchdog, the halt wave (R32, R171-R180, R194) -/

/-- R174, R175, R176, R177, R178: a flit at a queue terminal. An open queue of the flit's epoch with room takes it at its
tail and counts it; one of another epoch drops it as stale; a closed queue discards it, counting it as late, with LATE_WRITE
for the first; a queue in reset takes nothing, and a refusal starts back to its writer. A merge queue with room for a
message opens for the string that waits longest, and reserves MSGLEN; it holds the flits of the open message until the one
with LASTM shows them all, or until MSGLEN flits without one, the last then poisoned. No other queue changes. -/
def QueueArrivals : Prop :=
  ∀ (s : State) (t : TileId) (i : FlitIn) (m : Term), OnGrid s t →
    let pre := tileOf s t
    headTerm pre (inputNum i) = some m → scalarInput (inputNum i) = false → mwf {} pre.mu.queues = true →
    mwf 0 pre.ctr = true →
    let k := rQsel (routeOf pre (inputNum i))
    let q := mget {} pre.mu.queues k
    let ends := fun (i : Instr) (p : State → Tile → Prop) => ∃ s', exec i s = .next s' ∧ p s' (tileOf s' t) ∧
      (∀ j, j ≠ k → mget {} (tileOf s' t).mu.queues j = mget {} pre.mu.queues j) ∧
      (tileOf s' t).mu.slots = pre.mu.slots ∧ (tileOf s' t).mu.sems = pre.mu.sems ∧ (tileOf s' t).arr = pre.arr ∧
      (tileOf s' t).tab.pc = pre.tab.pc
    (q.st = .open_ → q.writers.toNat ≤ 1 → m.flit.epoch = q.epoch → qOcc q < 32 →
      ends (.queueFlitArrival t i) fun _ post =>
        (mget {} post.mu.queues k).flits = q.flits ++ [m.flit] ∧
        ctrVal post (.qIn k) = min (ctrVal pre (.qIn k) + 1) ctrMax) ∧
    (q.st = .open_ → 1 < q.writers.toNat → m.flit.epoch = q.epoch → q.openBy = some m.flit.str →
      let held := q.held ++ [m.flit]
      ends (.queueFlitArrival t i) fun _ post =>
        let q' := mget {} post.mu.queues k
        (m.flit.last = true → q'.flits = q.flits ++ held ∧ q'.held = [] ∧ q'.reserved = 0 ∧ q'.openBy = none) ∧
        (m.flit.last = false → held.length < q.msglen.toNat →
          q'.flits = q.flits ∧ q'.held = held ∧ q'.reserved = q.reserved - 1 ∧ q'.openBy = q.openBy) ∧
        (m.flit.last = false → q.msglen.toNat ≤ held.length →
          q'.flits = q.flits ++ q.held ++ [{ m.flit with poison := true }] ∧ q'.held = [] ∧ q'.openBy = none)) ∧
    (q.st = .open_ → m.flit.epoch ≠ q.epoch → ends (.queueFlitArrival t i) fun _ post =>
      mget {} post.mu.queues k = q ∧ ctrVal post .stale = min (ctrVal pre .stale + 1) ctrMax) ∧
    (q.st = .closed → ends (.queueFlitArrival t i) fun _ post =>
      (mget {} post.mu.queues k).flits = q.flits ∧ (mget {} post.mu.queues k).lateRaised = true ∧
      ctrVal post .qLate = min (ctrVal pre .qLate + 1) ctrMax) ∧
    (q.st = .reset → ends (.queueFlitArrival t i) fun s' post =>
      mget {} post.mu.queues k = q ∧ ∃ due,
        (getTile s' m.flit.str.x m.flit.str.y).fret.refusals =
          (getTile s m.flit.str.x m.flit.str.y).fret.refusals ++ [(t.x, t.y, k, m.flit.str.ch, due)]) ∧
    (mergeNext pre k = some m → q.st = .open_ → 1 < q.writers.toNat → q.openBy = none → m.flit.epoch = q.epoch →
      qOcc q + q.msglen.toNat ≤ 32 → ∀ j : Fin 8, j.val = k → ends (.mergeQueueGrant t j) fun _ post =>
        (mget {} post.mu.queues k).openBy = some m.flit.str ∧
        (mget {} post.mu.queues k).reserved = q.msglen.toNat ∧ (mget {} post.mu.queues k).flits = q.flits)

/-- R172, R194, R28: scalar words. A word at a semaphore terminal adds its low 16 bits when the sum stays within the
capacity, no other semaphore changing; a word at a register terminal fills TAB_SRX with its poison once VALID is clear. -/
def ScalarArrivals : Prop :=
  ∀ (s : State) (t : TileId) (m : Term), OnGrid s t →
    let pre := tileOf s t
    mwf {} pre.mu.sems = true →
    (scalarTerm true pre = some m →
      let id := rSemid (routeOf pre m.inp)
      let old := mget {} pre.mu.sems id
      let k := fld m.flit.data.toNat 0 16
      old.at_ ≤ s.cycle → old.val.toNat + k ≤ old.cap.toNat →
      ∃ s', exec (.scalarSignal t) s = .next s' ∧
        let post := tileOf s' t
        (mget {} post.mu.sems id).val.toNat = old.val.toNat + k ∧ (mget {} post.mu.sems id).cap = old.cap ∧
        (∀ j, j ≠ id → mget {} post.mu.sems j = mget {} pre.mu.sems j) ∧
        post.mu.queues = pre.mu.queues ∧ post.mu.slots = pre.mu.slots ∧ post.tab.srxValid = pre.tab.srxValid ∧
        post.tab.st = pre.tab.st ∧ post.arr = pre.arr) ∧
    (scalarTerm false pre = some m → pre.tab.srxValid = false →
      ∃ s', exec (.scalarRegisterWrite t) s = .next s' ∧
        let post := tileOf s' t
        post.tab.srx.toNat = m.flit.data.toNat % 2 ^ 32 ∧ post.tab.srxValid = true ∧
        post.tab.srxPoison = m.flit.poison ∧ post.tab.srxWord = some m.flit ∧ post.tab.pc = pre.tab.pc ∧
        post.mu = pre.mu ∧ post.arr = pre.arr ∧ post.tab.st = pre.tab.st)

/-- R28, R172, R174, R175, R177, R178, R194: what reaches a queue, and what reaches a register or a semaphore. Model's
choices: log entries 29, 39, 42. -/
def Obligations.ArrivalsAtQueues : Prop := QueueArrivals ∧ ScalarArrivals

/-- R178, R180: a refusal that reaches its writer, and a stalled tile. A halted writer counts a late flit and stays halted;
a running one halts with PEER_RESET. A tile whose stall count has reached 2^LIMIT raises STALL_TIMEOUT once, with its last
cause and PC, and goes on. -/
def RefusalsAndStalls : Prop :=
  ∀ (s : State) (t : TileId), OnGrid s t →
    let pre := tileOf s t
    (∀ x y q ch due, pre.fret.refusals = [(x, y, q, ch, due)] → mwf 0 pre.ctr = true → pre.tab.delaying = false →
      ∃ s', exec (.peerReset t) s = .next s' ∧ s'.cycle = max s.cycle due ∧
        let post := tileOf s' t
        post.fret.refusals = [] ∧ post.tab.pc = pre.tab.pc ∧ post.mu = pre.mu ∧ post.arr = pre.arr ∧
        (pre.tab.st = .halted → post.tab = pre.tab ∧ ctrVal post .qLate = min (ctrVal pre .qLate + 1) ctrMax) ∧
        (pre.tab.st = .running → post.tab.st = .halted ∧
          post.ev = raisePort pre.ev (mkEv .peerReset q (packFields [(x, 10), (y, 9), (ch, 3)]) (max s.cycle due)))) ∧
    (2 ^ pre.tab.wdLimit.toNat ≤ pre.tab.wdCount → pre.tab.wdTripped = false →
      exec (.stallTimeout t) s = .next (withTile s t { pre with
        tab := { pre.tab with wdTripped := true }
        ev := raisePort pre.ev (mkEv .stallTimeout pre.tab.lastCause.toNat pre.tab.pc.toNat s.cycle) }))

/-- R32, R182, R219: a halt wave. It reaches a tile of its partition after the latency from the nearer edge of its column; a
tile that runs, its entry not delaying, and a loaded one become HALTED, PC and the units standing; any other tile keeps its
state. The wave of a SECTION_DEADLOCK takes the stall record of a running tile whose PROGRESS was clear. -/
def HaltWaveReaches : Prop :=
  ∀ (s : State) (t : TileId) (p w : Nat), OnGrid s t → partOfTile s t.x = some p → (getPart s p).wave = some w →
    ∃ s', exec (.haltWave t) s = .next s' ∧
      let pre := tileOf s t
      let post := tileOf s' t
      s'.cycle = max s.cycle (w + min (fromNorth s t.x t.y) (fromSouth s t.x t.y)) ∧
      ((pre.tab.st = .running ∧ pre.tab.delaying = false) ∨ pre.tab.st = .loaded → post.tab.st = .halted ∧
        post.tab.pc = pre.tab.pc ∧ post.tab.cycle = pre.tab.cycle ∧ post.mu = pre.mu ∧ post.arr = pre.arr ∧
        post.sp = pre.sp ∧ post.fly = pre.fly ∧ post.fret = pre.fret ∧ post.ctr = pre.ctr) ∧
      (pre.tab.st = .ended ∨ pre.tab.st = .halted → post = pre) ∧
      (∀ x y, tileKey x y ≠ tileKey t.x t.y → getTile s' x y = getTile s x y) ∧
      let now := tileNow (advanceTo s s'.cycle) t.x t.y
      let maps := (getPart s p).mapping = true ∧ now.tab.st = .running ∧ now.tab.wdLast = false
      (¬ maps → s'.parts = s.parts ∧ s'.stk = s.stk) ∧
      (maps → mwf {} s.parts = true → mwf 0 (getPart s p).stallMap = true →
        mget 0 (getPart s' p).stallMap (8192 * (tileDie s t.x t.y - 6 * (getPart s p).lo) + recIndex s t.x t.y) =
          stallRecord t.x t.y now ∧ (getPart s' p).st = (getPart s p).st ∧ (∀ k, k ≠ p → getPart s' k = getPart s k))

/-- R32, R178, R180, R219: refusals, stalls, and the halt wave. Model's choices: log entries 21, 47, 51, 155. -/
def Obligations.StallsAndHaltWaves : Prop := RefusalsAndStalls ∧ HaltWaveReaches

/-! ## Frets, packets, bridges (R197-R213) -/

/-- R197, R198, R200, R204, R213, R302: a hop. A flit at the head of an input, alone in its fret, whose valid entry names
one link output with a credit, leaves on it in the first cycle it can: it is on its way to the input of the neighbour that
faces the port, ready one hop latency and its pad later, takes one credit of its lane, and is counted; an uncorrectable flit
goes on poisoned. Without a valid entry it is discarded and counted; a parity error of the entry halts the tile. Model's
choices: log entries 38, 43, 52. -/
def Obligations.FlitHops : Prop :=
  ∀ (s : State) (t : TileId) (i : FlitIn) (f : Flit) (u : Upset), OnGrid s t → fretOn s t.x t.y = true →
    let pre := tileOf s t
    let inp := inputNum i
    let r := routeOf pre inp
    let sc := scalarInput inp
    let lane := if sc then 6 else rCourse r
    pre.fret.bufs = [(inp, [f])] → pre.fret.term = [] → f.arr = true → f.left = [] → f.epoch = pre.fret.epoch →
    heldOnLink pre inp f = false → mwf 0 pre.ctr = true →
    (u.parity = true → pre.tab.st ≠ .halted → ∃ s', exec (.flitHop t i u) s = .next s' ∧
      let post := tileOf s' t
      s'.cycle = max s.cycle f.ready ∧ post.tab.st = .halted ∧ post.fret.bufs = pre.fret.bufs ∧
      post.ev = raisePort pre.ev (mkEv .tabParity 1 inp (max s.cycle f.ready)) ∧ post.mu = pre.mu) ∧
    (u.parity = false → rValid r = false → ∃ s', exec (.flitHop t i u) s = .next s' ∧
      let post := tileOf s' t
      s'.cycle = max s.cycle f.ready ∧ mget [] post.fret.bufs inp = [] ∧
      ctrVal post .discard = min (ctrVal pre .discard + 1) ctrMax ∧ post.mu = pre.mu) ∧
    (∀ o x2 y2, u.parity = false → rValid r = true → routeOuts r = [o] → o < 4 → linkTo s t.x t.y o = some (x2, y2) →
    tileKey x2 y2 ≠ tileKey t.x t.y →
    mget 0 pre.fret.used (8 * o + lane) < 8 → mget false pre.fret.c5Aged o = false →
    mwf 0 pre.fret.used = true → mwf [] (getTile s x2 y2).fret.bufs = true →
    ∃ s', exec (.flitHop t i u) s = .next s' ∧
      let post := tileOf s' t
      let c := outFree pre sc o (max s.cycle f.ready)
      let h := hopLat s t.x t.y x2 y2
      let inp2 := 8 * oppDir o + lane
      let there := getTile s x2 y2
      s'.cycle = c ∧ mget [] post.fret.bufs inp = [] ∧
      mget 0 post.fret.used (8 * o + lane) = mget 0 pre.fret.used (8 * o + lane) + 1 ∧
      ctrVal post (if sc then .sOut o else .vOut o) = min (ctrVal pre (if sc then .sOut o else .vOut o) + 1) ctrMax ∧
      mget [] (getTile s' x2 y2).fret.bufs inp2 = mget [] there.fret.bufs inp2 ++
        [{ f with poison := f.poison || u.flit, lat := f.lat + h, arr := false
                  ready := c + linkLat pre sc o h c + rPad (scalarInput inp2) (routeOf there inp2) }] ∧
      post.mu = pre.mu ∧ post.arr = pre.arr ∧ (getTile s' x2 y2).mu = there.mu)

/-- R199, R200, R201: what comes back to a fret. A course-5 packet that has been eligible for 16 cycles goes first on its
output; the earliest credit of a link lane counts again in its cycle, one item fewer being in use; a flit whose tokens have
all been released widens its string's window by one when the last reaches the source. Nothing else changes but the cycle.
Model's choice: log entry 53. -/
def Obligations.CreditsAndTokens : Prop :=
  ∀ (s : State) (t : TileId), tileExists s t = true →
    let pre := tileOf s t
    let ends := fun (i : Instr) (c : Nat) (tl : Tile) => exec i s = .next (withTile (advanceTo s c) t tl)
    (∀ (d : Dir) (r : Nat), leastOf (course5From s t.x t.y (dirNum d)) = some r →
      ends (.course5Aged t d) (max s.cycle (r + 16))
        { pre with fret := { pre.fret with c5Aged := mset false pre.fret.c5Aged (dirNum d) true } }) ∧
    (∀ (d : Dir) (lane : Fin 7) (c : Nat),
      let k := 8 * dirNum d + lane.val
      leastOf (mget [] pre.fret.credit k) = some c → (∀ x2 y2, neighbour s t.x t.y (dirNum d) = some (x2, y2) →
        mget [] (getTile s x2 y2).fret.bufs (8 * oppDir (dirNum d) + lane.val) = []) →
      ends (.hopCreditReturn t d lane) (max s.cycle c) { pre with fret := { pre.fret with
        credit := mset [] pre.fret.credit k (removeOne c (mget [] pre.fret.credit k))
        used := mset 0 pre.fret.used k (mget 0 pre.fret.used k - 1)
        c5Since := if lane.val = 5 ∧ mget 0 pre.fret.used k = 8 then
          mmod 0 pre.fret.c5Since (dirNum d) (max (max s.cycle c)) else pre.fret.c5Since } }) ∧
    (∀ (ch : Fin 9) (o : Outst) (rest : List Outst), takeToken ch.val pre.fret.outst = some (o, rest) →
      ends (.windowTokenReturn t ch) (max s.cycle o.due) { closeCycle (o.due - 1) pre with fret := { pre.fret with
        outst := rest, win := mset 0 pre.fret.win ch.val (mget 0 pre.fret.win ch.val + 1) } })

/-- R204, R205: retries and failures of a link. The item that arrives next fails its check: the retry is counted, its
attempts rise, it and what is still crossing the link arrive two hop latencies later, and the sender replays from its retry
buffer; after three attempts the fourth failure fails the port at both ends as the replay arrives, with LINK_FAIL. -/
def LinkRetriesAndFailures : Prop :=
  ∀ (s : State) (t : TileId) (d : Dir) (x2 y2 : Nat), OnGrid s t →
    let pre := tileOf s t
    let k := dirNum d
    neighbour s t.x t.y k = some (x2, y2) → tileKey x2 y2 ≠ tileKey t.x t.y → bit pre.fret.failed.toNat k = false →
    let h := hopLat s t.x t.y x2 y2
    let tries := fun (net : Net) => mget (0, 0) pre.fret.attempts (3 * k + netNum net)
    (∀ (net : Net) (a : Nat), nextArrival pre k s.cycle net = some a → attemptsOf pre k net a < 3 →
      mwf (0, 0) pre.fret.attempts = true → mwf 0 pre.ctr = true → mwf [] pre.fret.bufs = true → mwf [] pre.fret.pkts = true →
      ∃ s', exec (.retryRequest t d net) s = .next s' ∧ s'.cycle = max s.cycle a ∧
        let post := tileOf s' t
        let there := getTile s x2 y2
        mget (0, 0) post.fret.attempts (3 * k + netNum net) = (attemptsOf pre k net a + 1, a + 2 * h) ∧
        ctrVal post (.retry k) = min (ctrVal pre (.retry k) + 1) ctrMax ∧
        (∀ l ∈ netLanes net, mget [] post.fret.bufs (8 * k + l) = (mget [] pre.fret.bufs (8 * k + l)).map fun f =>
          if f.arr = false ∧ a ≤ arrivedAt pre (8 * k + l) f then { f with ready := f.ready + 2 * h } else f) ∧
        (net = .vector → mget [] post.fret.pkts k = (mget [] pre.fret.pkts k).map fun g =>
          if a ≤ g.ready then { g with ready := g.ready + 2 * h } else g) ∧
        (net ≠ .control → mwf (0, 0) there.fret.retryTo = true →
          mget (0, 0) (getTile s' x2 y2).fret.retryTo (netKey (decide (net = .scalar)) (oppDir k)) = (a + h, 2 * h)) ∧
        post.mu = pre.mu ∧ post.tab = pre.tab ∧ post.fret.failed = pre.fret.failed) ∧
    (∀ net : Net, 3 ≤ (tries net).1 → s.cycle ≤ (tries net).2 → (∀ n, n ≠ net → (tries n).1 < 3) →
      ∃ s', exec (.linkFail t d) s = .next s' ∧ s'.cycle = (tries net).2 ∧
      bit (tileOf s' t).fret.failed.toNat k = true ∧
      bit (getTile s' x2 y2).fret.failed.toNat (oppDir k) = true ∧
      (tileOf s' t).ev = raisePort pre.ev (mkEv .linkFail k 0 (tries net).2) ∧ (tileOf s' t).mu = pre.mu ∧
      (tileOf s' t).tab = pre.tab ∧ (getTile s' x2 y2).tab = (getTile s x2 y2).tab)

/-- R209, R212, R231: an issued packet enters at a fret its issuer may use, from the tap of a die one cycle later: its
flits, the header with its route first, stand at the local port one a cycle. A bad header is discarded with
PACKET_MALFORMED, one of a foreign epoch as stale. -/
def PacketsEnter : Prop :=
  ∀ (s : State) (t : TileId) (p : Packet) (tap : Option Nat) (rest : List (Packet × Option Nat)), OnGrid s t →
    fretOn s t.x t.y = true → takeIssued s t s.issued = some (p, tap, rest) →
    let pre := tileOf s t
    let h := entryHeader s t p.header
    let c := max s.cycle p.ready + (if tap.isSome then 1 else 0)
    (p.epoch = pre.fret.epoch → hdrBad h = false → exec (.packetHop (.ring t)) s = .next
      { withTile (advanceTo s c) t { pre with fret := { pre.fret with
          pkts := mset [] pre.fret.pkts 4 (mget [] pre.fret.pkts 4 ++ packetFlits c { p with header := h, ready := c }) } }
        with issued := rest }) ∧
    (p.epoch ≠ pre.fret.epoch ∨ hdrBad h = true → mwf 0 pre.ctr = true →
      let n := if p.epoch = pre.fret.epoch then TileCtr.discard else .stale
      ∃ s', exec (.packetHop (.ring t)) s = .next s' ∧ s'.issued = rest ∧ s'.cycle = max s.cycle c ∧
        (tileOf s' t).fret.pkts = pre.fret.pkts ∧ ctrVal (tileOf s' t) n = min (ctrVal pre n + 1) ctrMax)

/-- R199, R204, R209, R210, R211, R212, R213: the flit of a packet at the head of a port. At its destination it is taken
from the port and, with the last, the packet is delivered; a header without segments left at any other tile is discarded as
misrouted, one that would leave the array or cross a fence with its event; otherwise the flit takes one hop, the length of a
header's segment one less, and one hop credit; a response leaves the array for its issuer. An uncorrectable flit goes on
poisoned. -/
def PacketFlitsHop : Prop :=
  ∀ (s : State) (t : TileId) (port : Fin 5) (g : PFlit) (bad : Bool), OnGrid s t → fretOn s t.x t.y = true →
    let pre := tileOf s t
    pre.fret.pkts = [(port.val, [g])] → g.epoch = pre.fret.epoch → bit pre.fret.failed.toNat port.val = false →
    mwf 0 pre.fret.used = true → mwf .lost pre.fret.way = true → mwf noPacket pre.fret.asm = true → mwf 0 pre.ctr = true →
    let c := max s.cycle (max g.ready (mget 0 pre.fret.pktAt port.val))
    let g1 := { g with poison := g.poison || bad }
    let p := gatherPkt g1 (mget noPacket pre.fret.asm port.val)
    let ends := fun (k : State → Tile → Prop) => ∃ s', exec (.packetHop (.fret t port bad)) s = .next s' ∧
      mget [] (tileOf s' t).fret.pkts port.val = [] ∧ k s' (tileOf s' t) ∧ (tileOf s' t).mu = pre.mu ∧
      (tileOf s' t).tab = pre.tab ∧ (tileOf s' t).arr = pre.arr
    let head := g.idx = 0
    ((head ∧ nextSeg g.data = none ∧ hDx g.data = t.x ∧ hDy g.data = t.y ∧
        issuerAllowed (hKind g.data) (hIssuer g.data) = true ∧ (hKind g.data = 5 → pre.tab.st ≠ .running)) ∨
        (¬ head ∧ mget .lost pre.fret.way port.val = .here) → ends fun _ post =>
      (g.last = true → post.fret.inbox = pre.fret.inbox ++ [{ p with ready := deliverAt s t.x t.y c }] ∧
        mget .lost post.fret.way port.val = .lost) ∧
      (g.last = false → post.fret.inbox = pre.fret.inbox ∧ mget .lost post.fret.way port.val = .here ∧
        mget noPacket post.fret.asm port.val = p)) ∧
    (head → nextSeg g.data = none → hDx g.data ≠ t.x ∨ hDy g.data ≠ t.y → ends fun _ post =>
      post.fret.inbox = pre.fret.inbox ∧ ctrVal post .discard = min (ctrVal pre .discard + 1) ctrMax) ∧
    (∀ k d x2 y2, head → nextSeg g.data = some (k, d) → hKind g.data ≠ 4 → neighbour s t.x t.y d = some (x2, y2) →
      fencedTo s t.x x2 = true → ends fun _ post =>
        post.fret.inbox = pre.fret.inbox ∧ ctrVal post .discard = min (ctrVal pre .discard + 1) ctrMax) ∧
    (∀ d extra, (flitWay s t.x t.y port.val g).1 = .out d extra → g.last = true → ends fun s' post =>
      post.fret.inbox = pre.fret.inbox ∧ ∃ (r : Packet) (ready : Nat), s'.resps = s.resps ++ [{ r with ready := ready }] ∧
        r.payload = p.payload ∧ r.by_ = p.by_ ∧ outFree pre false d c + extra = ready) ∧
    (∀ d x2 y2, (flitWay s t.x t.y port.val g).1 = .link d → linkTo s t.x t.y d = some (x2, y2) →
      tileKey x2 y2 ≠ tileKey t.x t.y → pre.fret.bufs = [] → mget 0 pre.fret.used (8 * d + 5) < 8 → mayOwn pre d port.val = true →
      mwf [] (getTile s x2 y2).fret.pkts = true → mwf 0 pre.fret.c5Own = true →
      let c' := outFree pre false d c
      let h := hopLat s t.x t.y x2 y2
      ends fun s' post => s'.cycle = c' ∧
        mget 0 post.fret.used (8 * d + 5) = mget 0 pre.fret.used (8 * d + 5) + 1 ∧
        mget 0 post.fret.c5Own d = (if g.last = true then 0 else port.val + 1) ∧
        ctrVal post (.vOut d) = min (ctrVal pre (.vOut d) + 1) ctrMax ∧
        mget [] (getTile s' x2 y2).fret.pkts (oppDir d) = mget [] (getTile s x2 y2).fret.pkts (oppDir d) ++
          [{ g1 with data := if head then decSeg g.data (((nextSeg g.data).map (·.1)).getD 0) else g.data
                     ready := c' + linkLat pre false d h c' }])

/-- R199, R204, R209, R210, R211, R212, R213, R231: packets, from their entry on. Model's choices: log entries 24, 44, 45,
46, 142, 149, 151. -/
def Obligations.PacketsTravel : Prop := PacketsEnter ∧ PacketFlitsHop

/-- R18, R213, R255: a CFGW of one flit. In a tile that is not RUNNING one at a multiple of 64 in scratchpad data waits for
the write port with the flit's bytes and poison; one of the Array engine in tab memory writes the four entries there; tab
words of Sage are lost. In a RUNNING tile, at an address that is no multiple of 8 or that lies in no region of Table 9.6 to
its end, it is discarded as malformed. -/
def ControlSpaceWrites : Prop :=
  ∀ (s : State) (t : TileId) (p : Packet) (rest : List Packet) (d : Unit512) (poison : Bool), OnGrid s t →
    let pre := tileOf s t
    pre.fret.inbox = p :: rest → hKind p.header = 5 → p.payload = [(d, poison)] → p.done = 0 →
    let a := fld (hCmd p.header) 0 20
    let sage := hIssuer p.header = 1
    let ends := fun (k : Tile → Prop) => ∃ s', exec (.cfgw t) s = .next s' ∧
      let post := tileOf s' t
      k post ∧ post.fret.inbox = rest ∧ post.mu.slots = pre.mu.slots ∧ post.arr = pre.arr ∧ post.sp = pre.sp ∧
        post.mu.sems = pre.mu.sems ∧ post.mu.win = pre.mu.win ∧ post.tab.st = pre.tab.st ∧ post.tab.pc = pre.tab.pc
    (∀ k < 2048, pre.tab.st ≠ .running → a = 0x20000 + 64 * k → classCount pre (issuerClass (hIssuer p.header)) < 4 →
      ends fun post => post.tab = pre.tab ∧ post.mu = { pre.mu with
        nextId := pre.mu.nextId + 1
        ingress := pre.mu.ingress ++ [{ id := pre.mu.nextId, cls := issuerClass (hIssuer p.header), win := 0, slot := k
                                        boff := 0, bcnt := 0, data := d, poison := poison, arr := arrivalTime s.cycle pre
                                        since := arrivalTime s.cycle pre, raw := true }] }) ∧
    (∀ k < 256, pre.tab.st ≠ .running → a = 0x10000 + 64 * k → mwf 0 pre.tab.mem = true → ends fun post =>
      post.mu = pre.mu ∧ (sage → post.tab.mem = pre.tab.mem) ∧
      (¬ sage → ∀ e, (mget 0 post.tab.mem e).toNat =
        if 4 * k ≤ e ∧ e < 4 * k + 4 then elem d.toNat 128 (e - 4 * k) else (mget 0 pre.tab.mem e).toNat)) ∧
    (pre.tab.st = .running ∨ a % 8 ≠ 0 ∨
        (∀ r ∈ [(0, 0x800), (0x8000, 0x8100), (0x10000, 0x14280), (0x20000, 0x40000)], a < r.1 ∨ r.2 < a + 64) →
      mwf 0 pre.ctr = true → ends fun post =>
        post.mu = pre.mu ∧ post.tab = pre.tab ∧ ctrVal post .discard = min (ctrVal pre .discard + 1) ctrMax)

/-- R159, R162, R211, R255: requests that reach a tile, and writes of the control space. Model's choices: log entries 19,
20, 148, 153. -/
def Obligations.RequestsAndConfiguration : Prop := DeliveredRequests ∧ ControlSpaceWrites

/-- R205, R206, R207, R316: wires of a bridge. A free spare measures the copy of the group's next wire and a bad one is
marked; a marked wire is steered onto the spare while no section runs on either side, with WIRE_STEERED, and a second one
fails the lane; so does a bad wire of a group whose spare is in use. -/
def BridgeWires : Prop :=
  ∀ (s : State) (w : WireGroup),
    let g := mget {} s.wires (wireNum w)
    (∀ bad : Bool, wireExists s w = true → g.steered = none → exec (.bridgeWireTuning w bad) s = .next { s with
      wires := mset {} s.wires (wireNum w) { g with
        tune := (g.tune + 1) % 16
        bad := if bad = true ∧ g.tune ∉ g.bad then g.bad ++ [g.tune] else g.bad } }) ∧
    (wireExists s w = true → g.steered ≠ none → exec (.bridgeWireTuning w false) s = .next s ∧
      exec (.bridgeWireTuning w true) s = .next (failLane w s)) ∧
    (∀ b more, g.bad = b :: more → g.steered = none → dieQuiet s w.die = true → dieQuiet s (acrossBridge w) = true →
      let steered := sageEvent
        { s with wires := mset {} s.wires (wireNum w) { g with steered := some b, bad := [] } }
        .wireSteered (w.group % 256) (packFields [(w.lane, 8), (w.edge, 2), (b2n w.outward, 1), (b, 4)])
        (partOfDie s w.die) (some w.die) none
      exec (.wireSteer w) s = .next (if more = [] then steered else failLane w steered))

/-- R204, R205, R206, R207, R316: retries and failures of links, and the wires of bridges. Model's choices: log entries 48,
49, 50, 144. -/
def Obligations.LinksAndWires : Prop := LinkRetriesAndFailures ∧ BridgeWires

/-! ## Stack memory, spines, hosts' lines (R223-R246, R330-R332) -/

/-- R229, R230, R237, R238, R242, R243, R331, R332: a host's read. Outside the port's window it is answered with poison, and
STACK_RANGE is raised; of a die that does not serve it is answered with poison; one that asks for a copy while the filter is
full waits for the oldest line to come back. Any other reaches the slice after 24 cycles for each chain hop, in a cycle of
its own; it joins the open merge entry of its granule, or opens a read that takes the granule's bytes and poison as they
stand and returns 96 cycles or more later; when it returns every read joined to it is answered with its line and the line's
poison, and a chunk found uncorrectable is marked. No byte of memory changes. -/
def HostReads : Prop :=
  ∀ (s : State) (o : Fin 4) (hpa : Nat), mwf {} s.spines = true → mwf {} s.ports = true →
    let line := hpa - hpa % 64
    (hostAddr s o.val hpa = none → ∀ cached : Bool, exec (.cxlMemRead o hpa cached) s = .next
      (modPort (sageEvent s .stackRange o.val hpa (partOfPort s o.val)) o.val fun q =>
        { q with out := q.out ++ [.memData line 0 true] })) ∧
    (∀ p pa, hostAddr s o.val hpa = some (p, pa) →
      let da := paToDa (getPart s p) (pa - pa % 64)
      let n := da / 2 ^ 37
      let g := da % 2 ^ 37 / 256
      let sl := sliceOf (256 * g)
      let l := mget [] (getSpine s n).reads sl
      let at_ := max (s.cycle + 24 * min (n % 6) (5 - n % 6)) (mget 0 (getSpine s n).accept sl)
      let lines := (getPort s o.val).filter
      (dieServes s da = false → ∀ cached : Bool, exec (.cxlMemRead o hpa cached) s = .next
        (modPort s o.val fun q => { q with out := q.out ++ [.memData line 0 true] })) ∧
      (dieServes s da = true → pa / 64 ∉ lines → 2 ^ 21 ≤ lines.length → exec (.cxlMemRead o hpa true) s = .next
        (snoopLines o.val (lines.take 1) (modPort s o.val fun q => { q with heldReads := q.heldReads ++ [hpa] }))) ∧
      (∀ cached : Bool, dieServes s da = true → mwf [] (getSpine s n).reads = true →
        (cached = true → lines.length < 2 ^ 21 ∨ pa / 64 ∈ lines) →
        let rd := Reader.host o.val line cached (da % 256)
        let reads := fun (k : List DramRead → State → Prop) => ∃ s', exec (.cxlMemRead o hpa cached) s = .next s' ∧
          k (mget [] (getSpine s' n).reads sl) s' ∧
          (getPort s' o.val).filter = (if cached = true ∧ pa / 64 ∉ lines then lines ++ [pa / 64] else lines) ∧
          (getPort s' o.val).out = (getPort s o.val).out ∧
          s'.stk = s.stk ∧ s'.tiles = s.tiles ∧ s'.parts = s.parts ∧ s'.cycle = s.cycle
        ((∀ r ∈ l, r.granule ≠ g) → reads fun l' s' => ∃ r : DramRead, l' = l ++ [r] ∧ r.granule = g ∧ r.joins = [rd] ∧
          r.returned = false ∧ r.opened = at_ ∧ at_ + 96 ≤ r.due ∧
          r.data.toNat = memNat s.stk.mem (devAddr n (256 * g)) 256 ∧
          (∀ k < 4, bit r.poison.toNat k = mget false s'.stk.poison (devAddr n (256 * g) / 64 + k))) ∧
        (∀ r, l = [r] → r.granule = g → r.entry = true → r.joinable = true → at_ ≤ r.opened + 63 →
          reads fun l' _ => l' = [{ r with joins := r.joins ++ [rd] }]))) ∧
    (∀ (d : Fin 48) (sl : Fin 64) (r : DramRead) (ofs : Nat) (cached : Bool) (e : ChunkEcc), ofs < 256 →
      mget [] (getSpine s d.val).reads sl.val = [r] → r.returned = false → r.joins = [.host o.val line cached ofs] →
      let da := devAddr d.val (256 * r.granule)
      let lost := fun (k : Nat) => bit r.poison.toNat k = false ∧ eccAt e k = .double
      mwf false s.stk.poison = true →
      ∃ s', exec (.dramReadReturn d sl e) s = .next s' ∧ s'.cycle = max s.cycle r.due ∧
        (getPort s' o.val).out = (getPort s o.val).out ++
          [.memData line (BitVec.ofNat 512 (fld r.data.toNat (512 * (ofs / 64)) 512))
            (bit r.poison.toNat (ofs / 64) || decide (lost (ofs / 64)))] ∧
        (∀ k < 4, mget false s'.stk.poison (da / 64 + k) = (mget false s.stk.poison (da / 64 + k) || decide (lost k))) ∧
        (∀ c, c < da / 64 ∨ da / 64 + 4 ≤ c → mget false s'.stk.poison c = mget false s.stk.poison c) ∧
        s'.stk.mem = s.stk.mem ∧ s'.tiles = s.tiles)

/-- R236, R242, R243, R244, R332: a host's write. Outside the port's window it is answered and STACK_RANGE is raised; of a
die that does not serve it is answered. A full line writes its 64 bytes and takes the write's poison as its marker; a write
under a mask writes the bytes selected, an unmarked chunk taking the write's poison, a marked one staying marked, and one
found uncorrectable becoming marked with no byte written. No other byte of stack memory and no other marker changes, and the
host is answered. -/
def HostWrites : Prop :=
  ∀ (s : State) (o : Fin 4) (w : HostWrite),
    let done := HostOut.memDone (w.hpa - w.hpa % 64)
    (hostAddr s o.val w.hpa = none → exec (.cxlMemWrite o w) s = .next
      (modPort (sageEvent s .stackRange o.val w.hpa (partOfPort s o.val)) o.val fun q => { q with out := q.out ++ [done] })) ∧
    ∀ p pa, hostAddr s o.val w.hpa = some (p, pa) →
    let da := paToDa (getPart s p) (pa - pa % 64)
    let marked := mget false s.stk.poison (da / 64)
    let full := w.mask = BitVec.allOnes 64
    let lost := ¬ full ∧ marked = false ∧ w.e = .double
    (dieServes s da = false → exec (.cxlMemWrite o w) s = .next
      (modPort s o.val fun q => { q with out := q.out ++ [done] })) ∧
    (dieServes s da = true → Memory.wf s.stk.mem → mwf false s.stk.poison = true → mwf {} s.ports = true →
    ∃ s', exec (.cxlMemWrite o w) s = .next s' ∧
      (∀ k < 64, memByte s'.stk.mem (da + k) =
        if bit w.mask.toNat k = true ∧ ¬ lost then BitVec.ofNat 8 (elem w.data.toNat 8 k) else memByte s.stk.mem (da + k)) ∧
      (∀ a, a < da ∨ da + 64 ≤ a → memByte s'.stk.mem a = memByte s.stk.mem a) ∧
      (mget false s'.stk.poison (da / 64) = true ↔ (w.poison = true ∧ (full ∨ marked = false)) ∨
        (marked = true ∧ ¬ full) ∨ lost) ∧
      (∀ c, c ≠ da / 64 → mget false s'.stk.poison c = mget false s.stk.poison c) ∧
      (getPort s' o.val).out = (getPort s o.val).out ++ [done] ∧
      s'.tiles = s.tiles ∧ s'.cycle = s.cycle)

/-- R236, R237, R238, R242, R243, R244, R332: a host's reads and writes of stack memory. Model's choices: log entries 35,
54, 55, 56, 145, 146. -/
def Obligations.HostMemory : Prop := HostReads ∧ HostWrites

/-- R238, R239, R241: time in a spine. The window of a merge entry that has delivered its data ends 64 cycles after it
opened, and the entry is free; the refresh calendar passes to its next slice in the next multiple of 110 cycles, and patrol
scrub of every die whose slice is up moves on by two granules; a chunk in them that is found uncorrectable is marked. No
byte of memory changes. -/
def SpineHousekeeping : Prop :=
  ∀ (s : State), mwf {} s.spines = true →
    (∀ (d : Fin 48) (sl : Fin 64) (r : DramRead) (l : List DramRead),
      mget [] (getSpine s d.val).reads sl.val = r :: l → r.entry = true → r.returned = true →
      mwf [] (getSpine s d.val).reads = true →
      ∃ s', exec (.mergeEntryExpiry d sl) s = .next s' ∧ s'.cycle = max s.cycle (r.opened + 64) ∧
        (∃ rest, mget [] (getSpine s' d.val).reads sl.val = rest ∧ List.Sublist rest l ∧
          ∀ x ∈ l, x.returned = false → x ∈ rest) ∧
        s'.stk = s.stk ∧ s'.tiles = s.tiles ∧ s'.parts = s.parts) ∧
    (∀ e : List ScrubFind, mwf false s.stk.poison = true →
      ∃ s', exec (.refreshPhase e) s = .next s' ∧ s'.cycle = (s.cycle / 110 + 1) * 110 ∧ s'.stk.mem = s.stk.mem ∧
      s'.tiles = s.tiles ∧
      let sl := (s.cycle / 110 + 1) % 64
      (∀ c, mget false s.stk.poison c = true → mget false s'.stk.poison c = true) ∧
      (∀ f ∈ e, f.e = .double → f.die < 48 → sliceOf (64 * f.chunk) = sl → sliceUp (getSpine s f.die) sl = true →
        mwf 0 (getSpine s f.die).scrub = true →
        let pos := mget 0 (getSpine s f.die).scrub sl
        sliceOffset (64 * f.chunk) / 256 ∈ [pos % 2 ^ 23, (pos + 1) % 2 ^ 23] → devAddr f.die (64 * f.chunk) < 48 * 2 ^ 37 →
        mget false s'.stk.poison (devAddr f.die (64 * f.chunk) / 64) = true) ∧
      ∀ n < 48, mwf 0 (getSpine s n).scrub = true → mget 0 (getSpine s' n).scrub sl =
        if sliceUp (getSpine s n) sl then (mget 0 (getSpine s n).scrub sl + 2) % 2 ^ 23
        else mget 0 (getSpine s n).scrub sl)

/-- R233, R234, R235: stack streams. A stream of a running section starts in its start cycle and reads ahead at most sixteen
granules; its next granule leaves, while no halt wave is on its way, as one WWRITE of four slots with their poison, or as
two where the offsets wrap at the window's LEN, for the stream's window of its tile, in the partition's epoch. -/
def StackStreams : Prop :=
  ∀ (s : State) (d : Fin 48) (k : Fin 64) (t : StackStream) (p : Nat), mwf {} s.spines = true → mwf {} s.parts = true →
    getStream s d.val k.val = some t → partOfDie s d.val = some p → (getPart s p).st = .running → t.stopped = false →
    (t.started = false → ∃ s' t', exec (.stackStreamStart d k) s = .next s' ∧ s'.cycle = max s.cycle t.start ∧
      getStream s' d.val k.val = some t' ∧ t'.started = true ∧ t'.sent = t.sent ∧ t'.ready = t.ready ∧
      t.read ≤ t'.read ∧ t'.read ≤ max t.read (t.sent + 16) ∧ s'.stk = s.stk ∧ s'.tiles = s.tiles) ∧
    (∀ j data poison, (t.ready.find? fun r => decide (r.1 = t.sent)) = some (j, data, poison) →
      (getPart s p).suspended = false → (getPart s p).wave = none → t.part < 4 →
      mayIssue s (streamIssuer (getPart s p).port) (some d.val) (0x8000 + k.val) = true →
      t.x < 1024 → t.y < 512 → t.win < 4 → (getPart s p).port < 4 →
      let len := wLen (mget 0 (getTile s t.x t.y).mu.win t.win)
      let run := t.ofs + 4 * t.sent + t.part
      let n := if len = 0 then 4 - t.part else min (4 - t.part) (len - run % len)
      ∃ s' t' pk, exec (.stackStreamPacket d k) s = .next s' ∧ getStream s' d.val k.val = some t' ∧
        (t.part + n < 4 → t'.sent = t.sent ∧ t'.part = t.part + n ∧ t'.ready = t.ready) ∧
        (4 ≤ t.part + n → t'.sent = t.sent + 1 ∧ t'.part = 0 ∧ t'.ready = t.ready.filter fun r => decide (r.1 ≠ t.sent)) ∧
        s'.issued = s.issued ++ [(pk, some d.val)] ∧
        hKind pk.header = 1 ∧ hDx pk.header = t.x ∧ hDy pk.header = t.y ∧ hWin pk.header = t.win ∧
        hNpay pk.header = n ∧ hOffset pk.header = (if len = 0 then run else run % len) % 2048 ∧ hIssuer pk.header = 2 + (getPart s p).port ∧ pk.epoch = (getPart s p).epoch ∧
        pk.payload.length = n ∧ (∀ i < n, pk.payload[i]? =
          some (BitVec.ofNat 512 (fld data.toNat (512 * (t.part + i)) 512), bit poison.toNat (t.part + i))) ∧
        s'.stk = s.stk ∧ s'.tiles = s.tiles ∧ s'.cycle = s.cycle)

/-- R233, R234, R235, R238, R239, R241: time in a spine, and the streams it sends. Model's choices: log entries 57, 58, 156.
-/
def Obligations.SpinesAndStreams : Prop := SpineHousekeeping ∧ StackStreams

/-! ## Sections: loads, drains, checkpoints, releases (R220, R248-R281, R354) -/

/-- R249, R259, R264, R274, R314, R354, R384: the entries of the Array engine. A LOAD into an IDLE partition starts at once,
in the next epoch, or first captures a checkpoint under CKPT or for a test that waits, and is logged; into a RUNNING one it
waits for the section's end. A RESTORE, and a LOAD with FORCE, takes the forced path: the halt wave starts and issue stops.
A FINISH waits in a RUNNING partition and completes at once in an IDLE one. In a HALTED or FAULTED one, and after a stack
sensor's halt, an entry that may not run completes with the state as its status. Model's choices: log entries 62, 63, 65,
137. -/
def Obligations.SectionEntries : Prop :=
  ∀ (s : State) (p : Fin 4) (l : CmdList) (e : Unit512) (c : Entry), mwf {} s.parts = true →
    mwf {} (getPart s p.val).eng = true → arrayFree (getPart s p.val) = true →
    let q := getPart s p.val
    let o := loadOpts e
    let ends := fun (i : Instr) (k : State → Partition → Prop) => ∃ s', exec i s = .next s' ∧ k s' (getPart s' p.val) ∧
      (getEng (getPart s' p.val) 0).cur.started = true ∧ s'.cycle = s.cycle
    let logged := if 63 ≤ q.replay.length then q.replay else q.replay ++ [o]
    let refused := fun (i : Instr) => ends i fun s' r => r.st = q.st ∧ r.sw = none ∧ r.replay = q.replay ∧
      (getEng r 0).cur.ended = some (stateStatus q, 0, 0) ∧ s'.tiles = s.tiles ∧ s'.stk = s.stk
    let forced := fun (i : Instr) (k : SwitchKind) (log : List LoadOpts) => ends i fun s' r =>
      r.st = .halted ∧ r.wave = some s.cycle ∧ r.suspended = true ∧ r.sw = some ⟨k, .inflight⟩ ∧ r.replay = log ∧
      r.epoch = q.epoch ∧ s'.tiles = s.tiles ∧ s'.stk = s.stk
    (entryOf s p.val 0 0x01 false = some (l, e, c) →
      (q.hot = true → refused (.load p)) ∧
      (q.hot = false → q.st = .idle → ends (.load p) fun s' r =>
        r.suspended = true ∧ r.replay = logged ∧
        (o.ckpt = true ∨ testWaits q = true → r.st = .checkpointing ∧ r.epoch = q.epoch ∧ r.sw = some ⟨.load o, .capture⟩) ∧
        (o.ckpt = false → testWaits q = false → r.st = .loading ∧ r.epoch = q.epoch + 1 ∧ r.sw = some ⟨.load o, .image⟩ ∧
          s'.stk = s.stk ∧
          (mwf {} s.tiles = true → ∀ xy ∈ bandTiles s' p.val, (getTile s' xy.1 xy.2).tab.epoch = q.epoch + 1))) ∧
      (q.hot = false → q.st = .running → o.force = false → ends (.load p) fun s' r =>
        r.st = .running ∧ r.sw = some ⟨.load o, .ended⟩ ∧ r.replay = q.replay ∧ r.epoch = q.epoch ∧ s'.tiles = s.tiles ∧
        s'.stk = s.stk) ∧
      (q.hot = false → q.st ≠ .idle → o.force = true → forced (.load p) (.load o) logged) ∧
      (q.hot = false → q.st = .halted ∨ q.st = .faulted → o.force = false → refused (.load p))) ∧
    (entryOf s p.val 0 0x02 false = some (l, e, c) →
      (q.hot = true → refused (.restore p)) ∧ (q.hot = false → forced (.restore p) (.restore false) q.replay)) ∧
    (entryOf s p.val 0 0x03 false = some (l, e, c) →
      (q.st = .running → ends (.finish p) fun s' r =>
        r.st = .running ∧ r.sw = some ⟨.finish (enStats e), .ended⟩ ∧ s'.tiles = s.tiles ∧ s'.stk = s.stk) ∧
      (q.st = .idle → ends (.finish p) fun s' r =>
        r.st = .idle ∧ r.sw = none ∧ (getEng r 0).cur.ended = some (0, 0, 0) ∧ s'.tiles = s.tiles ∧ s'.stk = s.stk) ∧
      (q.st = .halted ∨ q.st = .faulted → refused (.finish p)))

/-- R220, R260, R261, R279: the end of a section and its drain. The ENDED reduction is formed in the next multiple of 1,024
cycles; the first that shows every working tile ENDED opens the gap and, with every prediction met, lets a switch that waits
drain; with one missed the partition is FAULTED. The drain suspends issue; 2,048 cycles later it succeeds with no residual
token, and with one the partition is FAULTED. Model's choices: log entries 69, 136, 154. -/
def Obligations.SectionEndsAndDrains : Prop :=
  ∀ (s : State) (p : Fin 4), mwf {} s.parts = true →
    let q := getPart s p.val
    let ends := fun (i : Instr) (c : Nat) (k : State → Partition → Prop) => ∃ s', exec i s = .next s' ∧ s'.cycle = c ∧
      k s' (getPart s' p.val) ∧ s'.stk = s.stk
    (q.st = .running → q.endSeen = none →
      let c := (s.cycle + 1023) / 1024 * 1024
      let all := ∀ xy ∈ workTiles s p.val, (getTile s xy.1 xy.2).tab.st = .ended ∧ (getTile s xy.1 xy.2).missed = 0
      let bad := ∃ xy ∈ workTiles s p.val, planBad (getTile s xy.1 xy.2) = true
      (¬ all → ends (.endedReduction p) c fun s' r => r = q ∧ s'.tiles = s.tiles) ∧
      (all → bad → ends (.endedReduction p) c fun s' r =>
        r.st = .faulted ∧ r.sw = none ∧ r.endSeen = some c ∧ s'.tiles = s.tiles) ∧
      (all → ¬ bad → ends (.endedReduction p) c fun s' r =>
        r.st = .running ∧ r.endSeen = some c ∧ r.gap = true ∧ s'.tiles = s.tiles ∧
        (∀ o, q.sw = some ⟨.load o, .ended⟩ → r.sw = some ⟨.load o, .drain⟩ ∧ r.replay = (logLoad o q).replay) ∧
        ∀ b, q.sw = some ⟨.finish b, .ended⟩ → r.sw = some ⟨.finish b, .drain⟩ ∧ r.replay = q.replay)) ∧
    (∀ k, q.sw = some ⟨k, .drain⟩ → ends (.drainStart p) s.cycle fun s' r =>
      r.st = .draining ∧ r.suspended = true ∧ r.sw = some ⟨k, .settle s.cycle⟩ ∧ s'.tiles = s.tiles) ∧
    (∀ k since, q.sw = some ⟨k, .settle since⟩ →
      let c := max s.cycle (since + 2048)
      let rs := residuals (catchUpBand p.val (advanceTo s c)) p.val
      (rs = [] → ends (.drainSample p) c fun _ r => r.sw = some ⟨k, .spill⟩ ∧ r.st = q.st ∧ r.epoch = q.epoch) ∧
      (rs ≠ [] → ends (.drainSample p) c fun _ r => r.sw = none ∧ r.st = .faulted ∧ r.epoch = q.epoch))

/-- R267, R269, R270, R274, R314, R354: spills and the checkpoint. What is left of the spills of the ended section is
written as whole chunks with the slots' poison as markers; under CKPT, or for a test that waits, the checkpoint is captured
next; else the load goes on in the next epoch, and a FINISH leaves the partition IDLE. A capture numbers its checkpoint
after the latest complete one, keeps in the replay log only loads still to be replayed, and lets tests that waited run
before the load goes on. -/
def SpillsAndCheckpoint : Prop :=
  ∀ (s : State) (p : Fin 4) (o : LoadOpts), mwf {} s.parts = true →
    let q := getPart s p.val
    arrayBusy s p.val = false →
    (∀ run : SlotRun, q.sw = some ⟨.load o, .spill⟩ → spillsLeft s p.val = [run] → spillLines s p.val [run] = [] →
      run.dest % 2 ^ 37 + 64 * run.count ≤ reserveBase → Memory.wf s.stk.mem → mwf false s.stk.poison = true →
      ∃ s', exec (.spillsComplete p) s = .next s' ∧ s'.cycle = s.cycle ∧
        let r := getPart s' p.val
        (o.ckpt = true ∨ testWaits q = true → r.st = .checkpointing ∧ r.sw = some ⟨.load o, .capture⟩ ∧ s'.tiles = s.tiles) ∧
        (o.ckpt = false → testWaits q = false → r.st = .loading ∧ r.sw = some ⟨.load o, .image⟩ ∧ r.epoch = q.epoch + 1) ∧
        (o.ckpt = true ∨ q.opts = none → ∀ k < run.count, readChunk s' (run.dest + 64 * k) =
          let slot := mget {} (getTile s run.x run.y).mu.slots (run.first + k)
          (slot.data, slot.poison))) ∧
    (∀ b, q.sw = some ⟨.finish b, .spill⟩ → spillsLeft s p.val = [] → ∃ s', exec (.spillsComplete p) s = .next s' ∧
      let r := getPart s' p.val
      r.st = .idle ∧ r.sw = none ∧ r.suspended = false ∧ r.epoch = q.epoch ∧ s'.cycle = s.cycle) ∧
    (q.sw = some ⟨.load o, .capture⟩ → ∃ s', exec (.checkpointCaptureComplete p) s = .next s' ∧
      let r := getPart s' p.val
      r.ckvalid = true ∧ r.ckseq = BitVec.ofNat 64 (((ckLatest s p.val).map (·.2)).getD 0 + 1) ∧ r.tileio = false ∧
      r.replay = q.replaying ∧ r.restores = 0 ∧ (∀ t ∈ r.tickets, t.state ≠ 1) ∧ s'.cycle = s.cycle ∧
      (testWaits q = true → r.st = q.st ∧ r.epoch = q.epoch ∧ r.sw = some ⟨.load o, .test s.cycle⟩) ∧
      (testWaits q = false → r.st = .loading ∧ r.epoch = q.epoch + 1 ∧ r.sw = some ⟨.load o, .image⟩))

/-- R264, R265, R273: the forced path. With no tile running, whatever is in flight counts as discarded, the band's tiles
hold no token, and the load goes on in the next epoch; a restore without a complete checkpoint is refused, and the partition
HALTED. -/
def ForcedPathDiscards : Prop :=
  ∀ (s : State) (p : Fin 4) (k : SwitchKind), mwf {} s.parts = true → mwf {} s.tiles = true →
    (getPart s p.val).sw = some ⟨k, .inflight⟩ → (getPart s p.val).recNo < 256 →
    (∀ xy ∈ bandTiles s p.val, (getTile s xy.1 xy.2).tab.st ≠ .running) →
    (∀ auto, k = .restore auto → ckLatest s p.val = none) →
    ∃ s', exec (.forcedPathInflightClear p) s = .next s' ∧
      let r := getPart s' p.val
      (∀ o, k = .load o → r.st = .loading ∧ r.sw = some ⟨.load o, .image⟩) ∧
      (∀ auto, k = .restore auto → r.st = .halted ∧ r.sw = none) ∧
      s.cycle ≤ s'.cycle ∧ r.epoch = (getPart s p.val).epoch + 1 ∧ r.stallMap = [] ∧ r.mapping = false ∧
      ∀ xy ∈ bandTiles s p.val,
        let t := getTile s' xy.1 xy.2
        t.tab.epoch = r.epoch ∧ t.fret.epoch = r.epoch ∧ t.mu.ingress = [] ∧ t.mu.accq = [] ∧ t.mu.reads = [] ∧
        t.mu.bulk = none ∧ t.mu.bulkWait = [] ∧ t.mu.cb = [] ∧ t.tab.st ≠ .running

/-- R264, R265, R267, R269, R270, R274, R314: spills and checkpoints, and the forced path. Model's choices: log entries 63,
65, 66, 143. -/
def Obligations.CheckpointsAndForcedPaths : Prop := SpillsAndCheckpoint ∧ ForcedPathDiscards

/-- R256, R258, R263, R274, R370: the load of the images and the release. The load goes on when the band's quadrants run.
When no die refuses its image, a release is broadcast for a cycle at least 512 ahead with the image's calendar phase; when
one does, the partition is FAULTED. At the release every working tile that was LOADED runs, its cycles counting from 0,
issue resumes, and the load's entry completes with the epoch and the cycle. A logged load is replayed when the section
before it runs. Model's choices: log entries 67, 68, 135, 143, 153. -/
def Obligations.ImagesAndRelease : Prop :=
  ∀ (s : State) (p : Fin 4) (o : LoadOpts), mwf {} s.parts = true →
    let q := getPart s p.val
    let i := imgOf p.val o
    (q.sw = some ⟨.load o, .image⟩ → arrayBusy s p.val = false → bandRuns s p.val = true → imageOutside s p.val o = false →
      (∀ n ∈ bandDies q, dieFail s i n = none) →
      ∃ s' at_, exec (.imageLoadComplete p) s = .next s' ∧ (getPart s' p.val).sw = some ⟨.load o, .release at_⟩ ∧
        s.cycle + 512 ≤ at_ ∧ at_ < s.cycle + 512 + 7040 ∧
        at_ % 7040 = dhRphase (dieHeader s i (6 * q.lo)) % 7040 ∧ (getPart s' p.val).opts = some o ∧ s'.cycle = s.cycle ∧
        s'.stk = s.stk) ∧
    (q.sw = some ⟨.load o, .image⟩ → arrayBusy s p.val = false → bandRuns s p.val = true →
      imageOutside s p.val o = true ∨ (∃ n ∈ bandDies q, dieFail s i n ≠ none) →
      ∃ s', exec (.imageLoadComplete p) s = .next s' ∧ (getPart s' p.val).sw = none ∧ (getPart s' p.val).st = .faulted) ∧
    (∀ at_, q.sw = some ⟨.load o, .release at_⟩ → mwf {} s.tiles = true → ∃ s', exec (.release p) s = .next s' ∧
      s'.cycle = max s.cycle at_ ∧ (getPart s' p.val).st = .running ∧ (getPart s' p.val).sw = none ∧
      (getPart s' p.val).suspended = false ∧ (getPart s' p.val).released = at_ ∧
      (∀ xy ∈ workTiles s p.val, (getTile s xy.1 xy.2).tab.st = .loaded →
        (getTile s' xy.1 xy.2).tab.st = .running ∧ (getTile s' xy.1 xy.2).tab.tc = 0 ∧
        (getTile s' xy.1 xy.2).tab.nextCore =
          tileStart (spansOf s (tilePlace s xy.1 xy.2).1 (tilePlace s xy.1 xy.2).2) at_ ∧
        (getTile s' xy.1 xy.2).tab.mem = (getTile s xy.1 xy.2).tab.mem) ∧
      ((entryOf s p.val 0 0x01 true).isSome = true → mwf {} q.eng = true →
        (getEng (getPart s' p.val) 0).cur.ended = some (0, q.epoch.toNat, at_)) ∧ s'.stk = s.stk) ∧
    (∀ rest, q.replaying = o :: rest → q.st = .running → q.sw = none → exec (.replayNextLoad p) s = .next
      (modPart s p.val fun q => { q with replaying := rest, sw := some ⟨.replay o, .ended⟩ }))

/-! ## Events, repair, self-test, history (R181, R182, R292-R325) -/

/-- No DETACH is under way, and no request of the operator waits for one. -/
def NoDetach (s : State) : Prop := s.afterDetach = none ∧ ∀ o < 4, (getPort s o).detach = none

/-- R293, R294, R295, R296, R297, R300: Sage receives the oldest record of a tile. It is logged under the next sequence
number with its code, class, origin and place, and leaves its source. An UNCORRECTED event of a program or a host makes the
partition FAULTED, its halt wave started and its switch ended; a parity error of a tab entry, in a section that may be
restored and of a tile that is not suspect, starts an automatic restore; a FATAL event makes every partition FAULTED.
Model's choices: log entries 77, 79, 139, 140, 154. -/
def Obligations.EventsReported : Prop :=
  ∀ (s : State) (t : TileId) (e : Ev) (rest : List Ev), OnGrid s t → NoDetach s → mwf {} s.parts = true →
    mwf {} s.ports = true → (tileOf s t).ev.q = e :: rest →
    ∃ s' r, exec (.eventRecord (.tile t)) s = .next s' ∧
      s'.sage.log = s.sage.log ++ [r] ∧ s'.sage.nextSeq = nextSeqNo s.sage.nextSeq ∧
      recSeq r = s.sage.nextSeq.toNat ∧ recCode r = evNum e.code ∧ recClass r = classNum e.cls ∧
      fld r.toNat 12 2 = originNum e.org ∧ fld r.toNat 17 1 = 1 ∧
      recPart r = ((partOfTile s t.x).getD 4) % 8 ∧ fld r.toNat 64 64 = e.cycle % 2 ^ 64 ∧
      (tileOf s' t).ev.q = rest ∧ (tileOf s' t).tab = (tileOf s t).tab ∧ (tileOf s' t).mu = (tileOf s t).mu ∧
      s'.cycle = s.cycle ∧
      (∀ p, partOfTile s t.x = some p → e.cls = .uncorrected → e.org = .program ∨ e.org = .host →
        e.code ≠ .tabParity → e.code ≠ .tileFault → e.code ≠ .linkFail → e.code ≠ .sectionDeadlock → (getPart s' p).st = .faulted ∧
        (getPart s' p).sw = none ∧ (getPart s' p).autoPending = false ∧ (getPart s' p).wave = some s.cycle) ∧
      (∀ p, partOfTile s t.x = some p → e.cls = .uncorrected → e.code = .tabParity →
        let q := getPart s p
        let pl := physPlace s t.x t.y
        restorable q.st = true → q.autoPending = false → q.restores < 2 → mustWait q = false →
        (∀ c ∈ mget [] s.sage.parityAt (physNum pl.1 pl.2.1 pl.2.2), c + 1000 * tickCycles < e.cycle) →
        let q' := getPart s' p
        q'.st = .halted ∧ q'.sw = some ⟨.restore true, .inflight⟩ ∧ q'.autoPending = true ∧ q'.restores = q.restores + 1 ∧
        q'.wave = some s.cycle) ∧
      (e.cls = .fatal → ∀ p < 4, (getPart s p).set_ = true →
        (getPart s' p).st = .faulted ∧ (getPart s' p).sw = none ∧ (getPart s' p).wave = some s.cycle)

/-- R181, R182, R304, R305, R306, R307, R309, R310, R312, R320: faults that stop a partition or a unit. A deadlocked section
halts, and the halt wave takes its stall map. A faulty tile starts a repair, whose records reach history after the halt wave
and then the defect map, in one revision with both its copies: the tile while its column has a spare left, else the column.
The restore that waited starts. A stack that fails is reported, and once its record is in history it joins the map and its
die column goes out of service. Model's choices: log entries 72, 77, 79, 141, 161, 162. -/
def Obligations.FaultsAndRepair : Prop :=
  ∀ (s : State) (p : Fin 4), mwf {} s.parts = true →
    let q := getPart s p.val
    (q.st = .running → q.run = q.dlNow → ∃ s', exec (.sectionDeadlock p) s = .next s' ∧
      (getPart s' p.val).wave = some s.cycle ∧ (getPart s' p.val).stallMap = [] ∧ (getPart s' p.val).mapping = true ∧
      (getPart s' p.val).st = .running ∧
      s'.sage.ev = raisePort s.sage.ev { mkEv .sectionDeadlock 0 0 s.cycle with part := some p.val } ∧
      s'.tiles = s.tiles ∧ s'.cycle = s.cycle) ∧
    (∀ (t : TileId) (trig : Fin 5), OnGrid s t → partOfTile s t.x = some p.val → faultOccasion s t.x t.y trig.val = true →
      ∃ s' r, exec (.tileFault t trig) s = .next s' ∧ (getPart s' p.val).repair = some r ∧
        physPlace s t.x t.y ∈ r.tiles ∧ r.step = .detected ∧ (tileOf s' t).missed = 0 ∧
        (∀ r0, q.repair = some r0 → ∀ x ∈ r0.tiles, x ∈ r.tiles) ∧ s'.defects = s.defects ∧ s'.cycle = s.cycle) ∧
    (∀ r, q.repair = some r → r.step = .halted → ∃ s', exec (.repairHistoryWritten p) s = .next s' ∧
      (getPart s' p.val).repair = some { r with step := .history } ∧
      (∀ x ∈ r.tiles, HistItem.repair x.1 x.2.1 x.2.2 ∈ s'.sage.history) ∧
      (∀ h ∈ s.sage.history, (∀ m, h ≠ .summary m) → h ∈ s'.sage.history) ∧ s'.defects = s.defects ∧ s'.tiles = s.tiles) ∧
    (∀ r x, q.repair = some r → r.step = .history → r.tiles = [x] → s.sage.returned = [] → suspectRecs s p.val = [] →
      let dead : DefectRec := { kind := 1, die := x.1, c := x.2.1, p := x.2.2 }
      let column : DefectRec := { kind := 3, die := x.1, c := x.2.1 }
      dead ∉ s.defects → column ∉ s.defects →
      ∃ s', exec (.remapCommitted p) s = .next s' ∧
        let q' := getPart s' p.val
        s'.defects = s.defects ++ [if deadCount s x.1 x.2.1 < 2 then dead else column] ∧
        s'.sage.dmrev = s.sage.dmrev + 1 ∧ s'.sage.mapA.dmrev = s'.sage.dmrev ∧ s'.sage.mapB = s'.sage.mapA ∧
        s'.tiles = s.tiles ∧ s'.cycle = s.cycle ∧
        (r.retire = true → q'.repair = none ∧ q'.st = .faulted) ∧
        (r.retire = false → q.autoPending = false → q'.repair = none ∧ q'.st = q.st) ∧
        (r.retire = false → q.autoPending = true → q.sw = none → q.suspects = [] → q.links = [] →
          q'.repair = some { r with step := .committed } ∧ q'.st = .halted ∧ q'.sw = some ⟨.restore true, .inflight⟩ ∧
          q'.wave = some s.cycle)) ∧
    (∀ (d : Fin 48) (k : Fin 2), (if k.val = 0 then (getSpine s d.val).up0 else (getSpine s d.val).up1) = true →
      mwf {} s.spines = true → ∃ s', exec (.stackFailure d k) s = .next s' ∧
        (if k.val = 0 then (getSpine s' d.val).up0 else (getSpine s' d.val).up1) = false ∧
        (getSpine s' d.val).ev = raisePort (getSpine s d.val).ev (mkEv .stackFail k.val 0 s.cycle) ∧
        s'.defects = s.defects ∧ s'.parts = s.parts ∧ s'.tiles = s.tiles ∧ s'.cycle = s.cycle) ∧
    (∀ (d : Fin 48) (e : Ev) (rest : List Ev), NoDetach s → (getSpine s d.val).ev.q = e :: rest → e.code = .stackFail →
      e.cls = .uncorrected → ∃ s', exec (.eventRecord (.spine d)) s = .next s' ∧
        d.val / 6 ∈ s'.boot.dead ∧ ({ kind := 5, die := d.val, stack := e.sub } : DefectRec) ∈ s'.defects ∧
        (partOfDie s d.val = some p.val → (getPart s' p.val).st = .faulted ∧ (getPart s' p.val).sw = none) ∧
        s'.tiles = s.tiles ∧ s'.cycle = s.cycle) ∧
    exec .ringFailure s = .next { s with sage := { s.sage with
      ev := raisePort s.sage.ev (mkEv .ringFail 0 0 s.cycle) } }

/-- R301, R306, R313, R314, R315, R317, R348: tests. A test that may not run on a tile has not run; one that passes leaves
the tile as Table 11.11 has it, and a CU BIST is noted with its time; one that fails starts the repair of the tile, or of a
spare records it dead. A ticket ends as passed or failed, and its requester learns of it; the first cycle in which a tile is
24 h without a test raises SELFTEST_OVERDUE; a die's spare tiles are tested hourly; a marked unit returns to service after
three passes an hour apart, and a failure starts the count again. -/
def SelfTests : Prop :=
  ∀ (s : State), mwf {} s.parts = true → mwf {} s.ports = true →
    (∀ (test : Fin 4) n c p, n < 48 → c < 128 → p < 66 → mwf {} s.tiles = true →
      (mayTest s test.val n c p = false → ∀ pass, exec (.selftestComplete (.tile test n c p pass)) s = .next s) ∧
      (mayTest s test.val n c p = true → (∀ i < 4, (getPart s i).suspects = [] ∧ (getPart s i).links = []) →
        mwf 0 s.sage.bist = true →
        ∃ s', exec (.selftestComplete (.tile test n c p true)) s = .next s' ∧
          mget 0 s'.sage.bist (physNum n c p) = (if test.val = 0 then s.cycle else mget 0 s.sage.bist (physNum n c p)) ∧
          (logicalAt s n c p = none → s'.tiles = s.tiles) ∧
          (∀ x y, logicalAt s n c p = some (x, y) → (partOfTile s x).isSome = true →
            getTile s' x y = testTile test.val s.cycle (getTile s x y) ∧
            ∀ x2 y2, tileKey x2 y2 ≠ tileKey x y → getTile s' x2 y2 = getTile s x2 y2) ∧
          s'.defects = s.defects ∧ s'.sage.ev = s.sage.ev) ∧
      (∀ x y i, mayTest s test.val n c p = true → logicalAt s n c p = some (x, y) → partOfTile s x = some i →
        ∃ s' r, exec (.selftestComplete (.tile test n c p false)) s = .next s' ∧ (getPart s' i).repair = some r ∧
          (n, c, p) ∈ r.tiles ∧ r.step = .detected ∧ s'.defects = s.defects)) ∧
    (∀ (d : Fin 48) (k : Fin 2) (pass : Bool), partOfDie s d.val = none →
      ∃ s', exec (.selftestComplete (.stack d k pass)) s = .next s' ∧ s'.tiles = s.tiles ∧ s'.parts = s.parts ∧
        s'.sage.ev = if pass = true then s.sage.ev else raisePort s.sage.ev
          { mkEv .selftestFail 4 k.val s.cycle with die := some d.val }) ∧
    (∀ (p : Fin 4) (n : Nat) (t : Ticket) (bad : List TileId), (getPart s p.val).tickets = [t] → t.num = n → t.state = 0 →
      (getPart s p.val).sw = none →
      let region := match t.tile with
        | some id => [(id.x, id.y)]
        | none => workTiles s p.val
      (∀ xy ∈ region, quadRuns s (tilePlace s xy.1 xy.2).1 (tilePlace s xy.1 xy.2).2 = true) →
      let fails := ∃ id ∈ bad, (id.x, id.y) ∈ region
      ∃ s', exec (.selftestComplete (.ticket p n bad)) s = .next s' ∧
        (¬ fails → (getPart s' p.val).tickets = [{ t with state := 2 }] ∧ s'.sage.ev = s.sage.ev) ∧
        (fails → (getPart s' p.val).tickets = [{ t with state := 3 }]) ∧
        (t.operator = true → s'.mgmt = s.mgmt ++ [.result p.val n (decide (¬ fails))]) ∧
        (t.operator = false → (getPort s (getPart s p.val).port).up = true →
          let o := (getPart s p.val).port;
          (getPort s' o).out = (getPort s o).out ++ vecOut (getPort s o) 1 ∧ (getPort s' o).msixPend = vecPend (getPort s o) 1) ∧
        s'.cycle = s.cycle) ∧
    (∀ (p : Fin 4) (b : Nat), leastOf ((workTiles s p.val).map fun xy => lastBist s xy.1 xy.2) = some b →
      (getPart s p.val).set_ = true → (getPart s p.val).overdue = false →
      ∃ s', exec (.selftestOverdue p) s = .next s' ∧ s'.cycle = max s.cycle (b + day) ∧
        (getPart s' p.val).overdue = true ∧ s'.tiles = s.tiles ∧ ∃ n, s'.sage.ev = raisePort s.sage.ev
          { mkEv .selftestOverdue 0 n (max s.cycle (b + day)) with part := some p.val }) ∧
    (∀ (d : Fin 48) (j c : Nat), (s.sage.spareAt.find? fun r => decide (r.1 = d.val)) = some (j, c) →
      mwf 0 s.sage.spareAt = true →
      (∃ s', exec (.spareTileTest d []) s = .next s' ∧ s'.cycle = max s.cycle (c + hour) ∧
        mget 0 s'.sage.spareAt d.val = s'.cycle ∧ s'.tiles = s.tiles ∧ s'.parts = s.parts ∧ s'.defects = s.defects ∧
        s'.sage.ev = s.sage.ev) ∧
      (∀ k row, k < 128 → row < 66 → spareAt s d.val k row = true →
        ∃ s', exec (.spareTileTest d [(k, row)]) s = .next s' ∧ s'.cycle = max s.cycle (c + hour) ∧ s'.tiles = s.tiles ∧
          ({ kind := 1, die := d.val, c := k, p := row } : DefectRec) ∈ s'.defects)) ∧
    (∀ (r : DefectRec), r ∈ s.defects → r ∉ s.sage.returned → r ∉ s.sage.barred →
      (s.sage.passes = [] → exec (.markedUnitRetest r true) s = .next
        { s with sage := { s.sage with passes := [(r, 1, s.cycle)] } }) ∧
      (∀ n c, s.sage.passes = [(r, n, c)] → exec (.markedUnitRetest r false) s = .next
        { s with sage := { s.sage with passes := [] } }) ∧
      (∀ c, s.sage.passes = [(r, 2, c)] → c + hour ≤ s.cycle → ∃ s', exec (.markedUnitRetest r true) s = .next s' ∧
        s'.sage.passes = [] ∧ s'.sage.returned = s.sage.returned ++ [r] ∧
        s'.sage.history = (addHistory (.returned r) s).sage.history ∧ s'.defects = s.defects ∧ s'.tiles = s.tiles))

/-- R316, R320, R325: periodic work. Sensors are calibrated every 10 s; the lifetime counters reach history every 10 min,
and the summary of events with them at an hour's end; the minute's CORRECTED records become messages, one for each code and
source, held while the collector is unreachable, up to 8,192; when it reconnects it gets what was held, and REPORT_LOST
tells how many were discarded. -/
def PeriodicReports : Prop :=
  ∀ (s : State),
    (exec .sensorCalibration s = .next { s with
      cycle := max s.cycle (s.sage.calibrated + 18000000000)
      sage := { s.sage with calibrated := max s.cycle (s.sage.calibrated + 18000000000) } }) ∧
    (∃ s' , exec .historyCounterWrite s = .next s' ∧ s'.cycle = max s.cycle (s.sage.written + 600 * 1800000000) ∧
      s'.sage.written = s'.cycle ∧ HistItem.counters s.sage.life ∈ s'.sage.history ∧
      ((s.sage.history.map itemBytes).sum + itemBytes (.summary s.sage.counts) ≤ historyBytes →
        (s'.cycle / hour = s.sage.written / hour → s'.sage.history = s.sage.history ++ [.counters s.sage.life]) ∧
        (s.sage.written / hour < s'.cycle / hour → s'.sage.counts = [] ∧
          s'.sage.history = s.sage.history ++ [.counters s.sage.life, .summary s.sage.counts])) ∧
      s'.tiles = s.tiles ∧ s'.parts = s.parts) ∧
    (s.sage.collector = true → exec .syslogSummary s = .next { s with
      mgmt := s.mgmt ++ s.sage.minute.map fun m => .syslog (summaryMsg m), sage := { s.sage with minute := [] } }) ∧
    (s.sage.collector = false → s.sage.heldMsgs.length ≤ 8192 →
      ∃ s', exec .syslogSummary s = .next s' ∧ s'.sage.minute = [] ∧ s'.sage.collector = false ∧
      (s.sage.heldMsgs.length + s.sage.minute.length ≤ 8192 →
        s'.sage.heldMsgs = s.sage.heldMsgs ++ s.sage.minute.map summaryMsg) ∧
      s'.sage.heldMsgs.length = min 8192 (s.sage.heldMsgs.length + s.sage.minute.length) ∧
      s'.sage.heldMsgs.length + s'.sage.discarded =
        s.sage.heldMsgs.length + s.sage.discarded + s.sage.minute.length ∧
      s' = { s with sage := s'.sage }) ∧
    (s.sage.collector = true → exec .reportLost s = .next s) ∧
    (s.sage.collector = false → exec .reportLost s = .next { s with
      mgmt := s.mgmt ++ s.sage.heldMsgs.map .syslog
      sage := { s.sage with
        collector := true, heldMsgs := [], discarded := 0
        ev := raisePort s.sage.ev (mkEv .reportLost 0 s.sage.discarded s.cycle) } })

/-- R301, R313, R315, R316, R317, R320, R325, R348: self-tests, and periodic reports. Model's choices: log entries 76, 78,
92, 138, 140, 160. -/
def Obligations.TestsAndReports : Prop := SelfTests ∧ PeriodicReports

/-! ## The mailbox (R337, R342-R350, R352, R362, R363, R407, R412) -/

/-- The commands of the mailbox with their opcodes (Tables 12.9, 14.6); SUBMIT_LIST reads its list from the host. -/
def mailRows (host : Option (List (BitVec 512))) : List ((MailCmd → Instr) × Nat) :=
  [(.partitionQuery, 0x0001), (.policySet, 0x0002), ((.submitList · host), 0x0010), (.eventRead, 0x0020), (.tileRead, 0x0021),
   (.spineRead, 0x0022), (.stallMap, 0x0023), (.sectionRead, 0x0024), (.diagRead, 0x0025), (.selftest, 0x0030),
   (.attest, 0x0040), (.ideKey, 0x0041), (.detach, 0x0050), (.attach, 0x0051), (.recBegin, 0x0F00), (.recData, 0x0F01),
   (.recCommit, 0x0F02)]

/-- The device with GO written: the port holds the opcode, LEN, IRQ and the request bytes of the command. -/
def goWritten (op : Nat) (m : MailCmd) (s : State) : State :=
  { s with ports := mmod {} s.ports m.port.val fun q =>
      { q with opcode := BitVec.ofNat 16 op, len := BitVec.ofNat 13 m.len, irq := m.irq, go := true
               req := m.req.take 4096 ++ q.req.drop (m.req.take 4096).length } }

/-- The mailbox of the port takes a command: its link is up and GO is 0. -/
structure MailFree (s : State) (m : MailCmd) : Prop where
  maps : mwf {} s.ports = true
  go : (getPort s m.port.val).go = false
  reading : (getPort s m.port.val).reading = false
  up : (getPort s m.port.val).up = true

/-- The command comes to its own work: besides, the device serves its mailboxes and every check before that work passes. -/
structure MailRuns (s : State) (op : Nat) (m : MailCmd) : Prop extends MailFree s m where
  serves : s.boot.phase = .recovery ∨ s.boot.phase = .released ∨ s.boot.phase = .prepared
  parts : mwf {} s.parts = true
  passes : let q := getPort (goWritten op m s) m.port.val
    mailCheck (goWritten op m s) m.port.val op q.len.toNat q.req = 0

/-- A mailbox command has completed with a status and a response (R342): the response and its length, DONES, GO at 0, and
vector 0, pending while it is masked, where IRQ is 1. Nothing but the port changes. -/
structure Completed (o st : Nat) (rsp : List Byte) (before after : State) : Prop where
  rest : after = { before with ports := after.ports }
  ports : ∀ k, k ≠ o → getPort after k = getPort before k
  port : getPort after o = { getPort before o with
    status := BitVec.ofNat 16 st, rlen := BitVec.ofNat 13 rsp.length, rsp := rsp
    dones := (getPort before o).dones + 1, go := false
    out := (getPort before o).out ++
      if (getPort before o).irq = true ∧ (getPort before o).up = true then vecOut (getPort before o) 0 else []
    msixPend := if (getPort before o).irq = true ∧ (getPort before o).up = true then vecPend (getPort before o) 0
      else (getPort before o).msixPend }

/-- R337, R342, R343, R344, R352, R407, R412: the protocol, for every command of the mailbox. With GO at 1 or the link down
nothing happens, but for the list that Sage reads for a SUBMIT_LIST whose GO a register write has set. A check that fails
completes the command with its status and no other effect. Before release the command waits. An opcode that no table lists
completes with UNKNOWN_OPCODE. -/
def Obligations.MailboxProtocol : Prop :=
  ∀ (s : State) (m : MailCmd) (host : Option (List (BitVec 512))), mwf {} s.ports = true →
    let q := getPort s m.port.val
    let o := m.port.val
    (MailFree s m → exec (.submitList m host) (modPort (goWritten 0x10 m s) o fun q => { q with reading := true }) =
      exec (.submitList m host) s) ∧
    (∀ r ∈ mailRows host,
      (q.reading = false → q.go = true ∨ q.up = false → exec (r.1 m) s = .next s) ∧
      (q.reading = true → r.2 ≠ 0x10 → exec (r.1 m) s = .next s) ∧
      (MailFree s m → mailServes s = true → ∀ st, st ≠ 0 →
        mailCheck (goWritten r.2 m s) o r.2 (m.len % 2 ^ 13) (getPort (goWritten r.2 m s) o).req = st →
        ∃ s', exec (r.1 m) s = .next s' ∧
          Completed o st (if r.2 = 0x10 then List.replicate 8 0 else []) (goWritten r.2 m s) s') ∧
      (MailFree s m → mailServes s = false → ∃ s', exec (r.1 m) s = .next s' ∧
        s' = { s with ports := s'.ports, sage := { s.sage with mails := s.sage.mails + 1 } } ∧
        (∀ k, k ≠ o → getPort s' k = getPort s k) ∧
        getPort s' o = { getPort (goWritten r.2 m s) o with
          waiting := some ⟨s.sage.mails, r.2, m, if r.2 = 0x10 then host else none⟩ })) ∧
    (∀ opcode : BitVec 16, MailFree s m → mailServes s = true → opcode.toNat ∉ (mailRows none).map (·.2) →
      ∃ s', exec (.unknownOpcode m opcode) s = .next s' ∧ Completed o 2 [] (goWritten opcode.toNat m s) s')

/-- R337, R345, R347: the commands that read. Their response holds the port's partition alone: its record; its events from a
sequence number on; registers or routes of a tile of its band; a spine of its band; its stall map from an index on; its
section records; bytes of the diagnostic area. What lies outside the band is answered NOT_OWNED. No state but the port's
changes. Model's choices: log entries 92, 95, 96. -/
def Obligations.MailboxReads : Prop :=
  ∀ (s : State) (m : MailCmd) (p : Nat), partOfPort s m.port.val = some p →
    let o := m.port.val
    let q := getPart s p
    let ends := fun (op : Nat) (i : Instr) (st : Nat) (rsp : List Byte) => ∃ s', exec i s = .next s' ∧
      Completed o st rsp (goWritten op m s) s'
    let arg := fun (op lo n : Nat) => byteField (getPort (goWritten op m s) o).req lo n
    (MailRuns s 0x01 m → s.boot.phase ≠ .recovery →
      let w := queryRecord (goWritten 1 m s) o
      ends 0x01 (.partitionQuery m) 0 (bytesLE w 64) ∧ fld w 0 3 = p ∧ fld w 3 2 = o ∧
      fld w 6 2 = portNum (getPort s o).st ∧ (q.lo < 8 → q.hi < 8 → fld w 8 3 = q.lo ∧ fld w 11 3 = q.hi) ∧
      (hdmSize q < 2 ^ 64 → fld w 32 64 = hdmSize q)) ∧
    (MailRuns s 0x20 m →
      let rs := ((q.ring.reverse.filter fun r => (decide (recPart r = p) || decide (recClass r = 3))
        && decide (arg 0x20 0 32 ≤ recSeq r))).take 127
      ends 0x20 (.eventRead m) 0 (bytesLE (rs.length +
        (if q.ringLost ≠ 0 ∧ arg 0x20 0 32 ≤ q.ringLost then 2 ^ 32 else 0)) 32 ++ rs.flatMap fun r => bytesLE r.toNat 32)) ∧
    (MailRuns s 0x21 m →
      let x := arg 0x21 0 10
      let y := arg 0x21 10 9
      if tileExists s { x := x, y := y } = true ∧ partOfTile s x = some p then
        ends 0x21 (.tileRead m) 0 (if arg 0x21 19 1 = 0 then tileRegBytes s x y else routeBytes (tileNow s x y))
      else ends 0x21 (.tileRead m) 4 []) ∧
    (MailRuns s 0x22 m →
      let b := arg 0x22 0 6
      if b < 6 * (q.hi + 1 - q.lo) then ends 0x22 (.spineRead m) 0 (spineBytes s (6 * q.lo + b))
      else ends 0x22 (.spineRead m) 4 []) ∧
    (MailRuns s 0x23 m →
      let n := arg 0x23 0 16
      let rs := ((q.stallMap.map (·.2)).drop n).take 127
      if q.stallMap.length ≤ n ∧ n ≠ 0 then ends 0x23 (.stallMap m) 4 []
      else ends 0x23 (.stallMap m) 0 (bytesLE (q.stallMap.length % 2 ^ 16 + rs.length * 2 ^ 16) 32
        ++ rs.flatMap fun r => bytesLE r.toNat 32)) ∧
    (MailRuns s 0x24 m →
      let rs := (q.records.drop (arg 0x24 0 8)).take 64
      if rs = [] then ends 0x24 (.sectionRead m) 4 []
      else ends 0x24 (.sectionRead m) 0 (rs.flatMap fun r => bytesLE (Config.sectionRecord (recordNumbers r)).toNat 64)) ∧
    (MailRuns s 0x25 m →
      let b := arg 0x25 0 6
      let ofs := arg 0x25 32 32
      let len := arg 0x25 64 12
      let n := 6 * q.lo + b
      if 6 * (q.hi + 1 - q.lo) ≤ b then ends 0x25 (.diagRead m) 4 []
      else if len = 0 ∨ 4064 < len ∨ (if arg 0x25 6 1 = 0 then 0x1000000 else 0x100000) < ofs + len then
        ends 0x25 (.diagRead m) 3 []
      else ends 0x25 (.diagRead m) 0 ((List.range len).map fun i =>
        memByte s.stk.mem (devAddr n (reserveBase + 0xF0000000 + (if arg 0x25 6 1 = 0 then 0 else 0x1300000) + ofs) + i)))

/-- R346, R348, R349, R350, R352, R412: the commands that change the device. POLICY_SET changes the policies named, or none
when the operator has locked them or a value is out of range. A list that passes every check joins its engine's queue. A
test gets a ticket, deferred where a section is loaded. ATTEST makes a key pair for one IDE_KEY within 60 s. In recovery an
image arrives in order, and one that the verifier accepts is installed and resets the device. Model's choices: log entries
89, 90, 92. -/
def Obligations.MailboxEffects : Prop :=
  ∀ (s : State) (m : MailCmd) (p : Nat),
    let o := m.port.val
    let q := getPart s p
    let does := fun (op : Nat) (i : Instr) (st : Nat) (rsp : List Byte) (f : State → State) => ∃ s', exec i s = .next s' ∧
      Completed o st rsp (f (goWritten op m s)) s'
    let req := fun (op : Nat) => (getPort (goWritten op m s) o).req
    (partOfPort s o = some p → MailRuns s 0x02 m →
      let r := policyRequest (req 0x02)
      if q.plock = true then does 0x02 (.policySet m) 11 [] id
      else if policyInRange r = true then does 0x02 (.policySet m) 0 [] fun g =>
        addHistory (.policies p (setPolicy r q.policy)) { g with
          parts := mmod {} g.parts p fun q => { q with policy := setPolicy r q.policy } }
      else does 0x02 (.policySet m) 3 [] id) ∧
    (∀ es : List (BitVec 512), partOfPort s o = some p → MailRuns s 0x10 m →
      let b := req 0x10
      let eng := byteField b 0 2
      let n := byteField b 8 8
      let tag := byteField b 16 16
      let l : CmdList := { tag := tag, cpl := byteField b 128 64, entries := es.take n, dep := none, seq := q.restoreSeq }
      n ≠ 0 → byteField b 32 2 ≠ 3 → byteField b 34 1 = 0 → byteField b 64 64 % 64 = 0 → byteField b 128 64 % 32 = 0 →
      (getEng q eng).lists.length < 16 → (∀ l ∈ (getEng q eng).lists, l.tag ≠ tag) → n ≤ es.length →
      (∀ e ∈ es.take n, entryOk s p eng e = true) →
      does 0x10 (.submitList m (some es)) 0 (List.replicate 8 0) fun g => { g with
        parts := mmod {} g.parts p fun q => { q with
          eng := mmod {} q.eng eng fun g => { g with lists := g.lists ++ [l] } } }) ∧
    (partOfPort s o = some p → MailRuns s 0x30 m → byteField (req 0x30) 0 2 = 0 → byteField (req 0x30) 2 3 < 4 →
      byteField (req 0x30) 5 1 = 0 → q.nextTicket < 65535 → q.tickets.length < 64 →
      let used := anyTile s (bandTiles s p) (·.loaded)
      let st := b2n used
      let t : Ticket := { num := q.nextTicket, test := byteField (req 0x30) 2 3, tile := none, state := st }
      if used = true ∧ q.policy.maint = false then does 0x30 (.selftest m) 10 [] id
      else does 0x30 (.selftest m) 0
        (bytesLE (q.nextTicket + st * 2 ^ 16 + 64 * (Config.ticketUnit q.nextTicket % 16384) * 2 ^ 64) 16)
        fun g => { g with parts := mmod {} g.parts p fun q => { q with
          tickets := q.tickets ++ [t], nextTicket := q.nextTicket + 1 } }) ∧
    (partOfPort s o = some p → MailRuns s 0x30 m → byteField (req 0x30) 0 2 = 1 →
      let n := byteField (req 0x30) 64 16
      let st := ((q.tickets.find? fun t => decide (t.num = n)).map (·.state)).getD 4
      st < 8 → does 0x30 (.selftest m) 0 (bytesLE (n + st * 2 ^ 16 + 64 * (Config.ticketUnit n % 16384) * 2 ^ 64) 16) id) ∧
    (MailRuns s 0x40 m → s.boot.phase ≠ .recovery → ∃ rsp : List Byte, rsp.length = 3860 ∧
      does 0x40 (.attest m) 0 rsp fun g => { g with
        sage := { g.sage with keyPairs := s.sage.keyPairs + 1 }
        ports := mmod {} g.ports o fun q => { q with ek := some (s.sage.keyPairs, s.cycle + 108000000000) } }) ∧
    (MailRuns s 0x41 m → ∀ k due, (getPort s o).ek = some (k, due) →
      let used := fun (g : State) => { g with ports := mmod {} g.ports o fun q => { q with ek := none } }
      match decide (s.cycle < due), Config.mlkemUnwrap k (slice (req 0x41) 8 1224) with
      | true, some ks => does 0x41 (.ideKey m) 0 [] fun g => { g with ports := mmod {} g.ports o fun q => { q with
          ek := none, keys := mset [] q.keys (byteField (req 0x41) 0 1) (fixBytes 128 ks) } }
      | _, _ => does 0x41 (.ideKey m) 14 [] used) ∧
    (MailRuns s 0xF00 m →
      let n := byteField (req 0xF00) 0 32
      if 0x4000 ≤ n ∧ n ≤ 0x02000000 ∧ n % 4096 = 0 then does 0xF00 (.recBegin m) 0 [] fun g => { g with
        boot := { g.boot with rcv := some (n, []) } }
      else does 0xF00 (.recBegin m) 3 [] id) ∧
    (MailRuns s 0xF01 m → ∀ n got, s.boot.rcv = some (n, got) →
      let d := slice (req 0xF01) 8 (m.len % 2 ^ 13 - 8)
      if byteField (req 0xF01) 0 32 = got.length ∧ got.length + d.length ≤ n then does 0xF01 (.recData m) 0 [] fun g => { g with
        boot := { g.boot with rcv := some (n, got ++ d) } }
      else does 0xF01 (.recData m) 3 [] id) ∧
    (MailRuns s 0xF02 m → ∀ n got, s.boot.rcv = some (n, got) → n ≤ got.length →
      let r := verifyImage s.boot.fuses.pkhash (popcount s.boot.fuses.svnfuse.toNat 64) got
      if r ≠ 0 then does 0xF02 (.recCommit m) 1 (bytesLE r 8) fun g => { g with boot := { g.boot with rcv := none } }
      else ∃ s', exec (.recCommit m) s = .next s' ∧ s'.boot.slotA = got ∧ s'.boot.slotB = got ∧ s'.boot.rcv = none ∧
        s'.boot.phase = .aux ∧ s'.tiles = [] ∧ s'.defects = s.defects ∧ s'.cycle = s.cycle)

/-- A DETACH has swept the band of a partition and ended (R362): the port is in a state with no DETACH, the partition IDLE,
and every tile of the band reset. No other partition or port, and no stack memory, has changed. -/
structure BandSwept (s s' : State) (o p : Nat) (st : PortState) : Prop where
  port : (getPort s' o).st = st ∧ (getPort s' o).detach = none
  part : (getPart s' p).st = .idle ∧ (getPart s' p).sw = none
  parts : ∀ k, k ≠ p → getPart s' k = getPart s k
  ports : ∀ k, k ≠ o → getPort s' k = getPort s k
  tiles : ∀ xy ∈ bandTiles s p, (getTile s' xy.1 xy.2).tab.st = .halted ∧ (getTile s' xy.1 xy.2).tab.pc = 0 ∧
    (getTile s' xy.1 xy.2).mu.queues = []
  rest : s'.stk = s.stk ∧ s'.defects = s.defects

/-- R362, R363: DETACH and ATTACH. A DRAIN waits, DETACHING, while a queue holds a list, and goes on as ABORT when its
TIMEOUT expires. An ABORT, or a DRAIN of empty queues, halts and resets the band, leaves the partition IDLE and, when the
host holds no line, completes with the port DETACHED. ATTACH brings a DETACHED port back. Model's choice: log entry 103. -/
def Obligations.DetachAndAttach : Prop :=
  ∀ (s : State) (m : MailCmd) (p : Nat), partOfPort s m.port.val = some p → NoDetach s →
    let o := m.port.val
    let b := (getPort (goWritten 0x50 m s) o).req
    let ms := byteField b 1 16
    (MailRuns s 0x50 m → mwf {} s.tiles = true → (ms = 0 ∨ 60000 < ms → ∃ s', exec (.detach m) s = .next s' ∧
        Completed o 3 [] (goWritten 0x50 m s) s') ∧
      (1 ≤ ms → ms ≤ 60000 → byteField b 0 1 = 0 → queuesEmpty (getPart s p) = false →
        exec (.detach m) s = .next { s with ports := mmod {} (goWritten 0x50 m s).ports o fun q => { q with
          st := .detaching, detach := some { abort := false, deadline := s.cycle + ms * 1800000, irq := some m.irq } } }) ∧
      (1 ≤ ms → ms ≤ 60000 → byteField b 0 1 = 1 ∨ queuesEmpty (getPart s p) = true → (getPort s o).filter = [] →
        ∃ s', exec (.detach m) s = .next s' ∧ BandSwept s s' o p .detached ∧ s'.cycle = s.cycle ∧
          (getPort s' o).go = false ∧ (getPort s' o).status = 0 ∧ (getPort s' o).dones = (getPort s o).dones + 1)) ∧
    (∀ (s0 : State) (d : Detach), mwf {} s.ports = true → mwf {} s.parts = true → mwf {} s.tiles = true →
      s0 = { s with ports := mmod {} s.ports o fun q => { q with st := .detaching, detach := some d } } →
      d.abort = false → d.swept = false → d.reattach = false → d.irq = none → (getPort s o).filter = [] →
      ∃ s', exec (.detachTimeout m.port) s0 = .next s' ∧ BandSwept s s' o p .detached ∧ s'.cycle = max s.cycle d.deadline) ∧
    (MailRuns s 0x51 m → ∃ s', exec (.attach m) s = .next s' ∧ Completed o 0 []
      { s with ports := mmod {} (goWritten 0x51 m s).ports o fun q => { q with st := .attached } } s')

/-! ## Lists and engines (R331, R333, R351-R359, R364) -/

/-- Nothing but partitions and ports, and what counts and reports, has changed: tiles, stack memory, defects and cycle are
as before. -/
def HostSideOnly (s s' : State) : Prop :=
  s'.tiles = s.tiles ∧ s'.stk = s.stk ∧ s'.defects = s.defects ∧ s'.cycle = s.cycle

/-- The entry in the stream engine of a partition, as it stands. -/
def curOf (s : State) (p : Nat) : Entry := (getEng (getPart s p) 1).cur

/-- The byte of stack memory at a partition address; a stack out of service gives zero. -/
def paByte (s : State) (q : Partition) (pa : Nat) : Byte :=
  if stackServes s (paToDa q pa) then memByte s.stk.mem (paToDa q pa) else 0

/-- The chunk of byte i of a run of n bytes lies wholly in the run. -/
def wholeAt (a n i : Nat) : Bool := decide (a ≤ (a + i) / 64 * 64 ∧ (a + i) / 64 * 64 + 64 ≤ a + n)

/-- A run of bytes has been written at a partition address and nothing else; of a chunk written in part whose old content
cannot be corrected no byte is (R243). -/
def RunWritten (s s' : State) (q : Partition) (pa : Nat) (bs : List Byte) (w : Ecc) : Prop :=
  (∀ i < bs.length, let da := paToDa q (pa + i)
    memByte s'.stk.mem da =
      if w = .double ∧ wholeAt pa bs.length i = false ∧ mget false s.stk.poison (da / 64) = false then memByte s.stk.mem da
      else nth bs i 0) ∧
  ∀ a, (∀ i < bs.length, a ≠ paToDa q (pa + i)) → memByte s'.stk.mem a = memByte s.stk.mem a

/-- The markers that a written run leaves: its own for whole chunks, while a part adds to what stood there (R243, R244). -/
def RunMarked (s s' : State) (q : Partition) (pa n : Nat) (bad : Bool) (w : Ecc) : Prop :=
  ∀ i < n, let k := paToDa q (pa + i) / 64
    mget false s'.stk.poison k = if wholeAt pa n i then bad else mget false s.stk.poison k || bad || decide (w = .double)

/-- The slice of a device address holds a read for a piece of the stream engine's entry. -/
def AsksPiece (s' : State) (p no da m : Nat) : Prop :=
  ∃ r ∈ mget [] (getSpine s' (da / 2 ^ 37)).reads (sliceOf (da % 2 ^ 37)),
    r.granule = da % 2 ^ 37 / 256 ∧ Reader.engine p no (da % 256) m ∈ r.joins

/-- A read that returns brings a piece for the entry of the stream engine, and for no other reader: all the bytes the entry
then holds, and how many of its pieces are poisoned. -/
def PieceComes (s : State) (p : Nat) (c : Entry) (d : Fin 48) (sl : Fin 64) (ce : ChunkEcc) (bs : List Byte) (bad : Nat) : Prop :=
  ∃ r rest no ofs len, takeRead (mget [] (getSpine s d.val).reads sl.val) = some (r, rest) ∧
    r.joins = [.engine p no ofs len] ∧ c.reading = some no ∧ 1 ≤ len ∧ ofs % 64 + len ≤ 64 ∧ ofs < 256 ∧
    bs = c.rbuf.flatMap (·.1) ++ slice (bytesLE r.data.toNat 256) ofs len ∧
    bad = (c.rbuf.filter (·.2)).length + b2n (bit r.poison.toNat (ofs / 64) || decide (eccAt ce (ofs / 64) = .double))

/-- The maps that an engine of a partition reads are canonical. -/
structure EngineMaps (s : State) (p : Nat) : Prop where
  parts : mwf {} s.parts = true
  ports : mwf {} s.ports = true
  eng : mwf {} (getPart s p).eng = true
  spines : mwf {} s.spines = true

/-- R351, R352, R353, R357, R358, R364: lists and the check engine. A list whose dependency has completed starts; its first
entry is DEP_FAILED when that list failed. An ended entry writes one record of 32 bytes, with its vector, or holds it while
the link is down; the list goes on, SKIPPED after a failed STOP entry, or completes and tells the lists that wait for it.
ARM and DISARM open and close a channel. Model's choices: log entries 105, 159. -/
def Obligations.ListsAndChecks : Prop :=
  ∀ (s : State) (p : Fin 4), EngineMaps s p.val →
    let q := getPart s p.val
    (∀ (eng : Engine) (l : CmdList) (rest : List CmdList), (getEng q (engNum eng)).lists = l :: rest →
      (l.started = false → l.dep = none → (getEng q (engNum eng)).held.length < 16 → s.boot.event = none →
        exec (.listStart p eng) s = .next { s with parts := mmod {} s.parts p.val fun q =>
          { q with eng := mmod {} q.eng (engNum eng) fun g => { g with
              lists := { l with started := true } :: rest
              cur := if l.depFailed then { ended := some (0x401, 0, 0) }
                else if l.stopped then { ended := some (0x400, 0, 0) } else {} } } }) ∧
      (∀ r, l.started = false → l.dep = none → (getEng q (engNum eng)).held.length < 16 → s.boot.event = some r →
        exec (.listStart p eng) s = .next (flushEngine p.val (engNum eng) (recCode r) s)) ∧
      (∀ st d0 d1, l.started = true → (getEng q (engNum eng)).cur.ended = some (st, d0, d1) → NoDetach s →
        let n := engNum eng
        let g := getEng q n
        let e := nth l.entries l.index 0
        let bad := l.failed || decide (st ≠ 0)
        let next := { l with index := l.index + 1, failed := bad, stopped := l.stopped || (decide (st ≠ 0) && enStop e) }
        ((getPort s q.port).up = true ∨ g.held.length < 16) → ∃ s' r, exec (.entryComplete p eng) s = .next s' ∧
          HostSideOnly s s' ∧ fld r 0 16 = st % 2 ^ 16 ∧ fld r 19 1 = 1 ∧ fld r 20 2 = n ∧ fld r 24 8 = l.index % 256 ∧
          fld r 32 16 = l.tag % 2 ^ 16 ∧ fld r 64 64 = s.cycle % 2 ^ 64 ∧ fld r 128 64 = d0 % 2 ^ 64 ∧
          fld r 192 64 = d1 % 2 ^ 64 ∧
          ((getPort s q.port).up = true → (getPort s' q.port).out = (getPort s q.port).out ++
            (.write (l.cpl + 32 * l.index) (bytesLE r 32) false :: if enIrq e then vecOut (getPort s q.port) (enVec e) else []) ∧
            (getPort s' q.port).msixPend =
              if enIrq e then vecPend (getPort s q.port) (enVec e) else (getPort s q.port).msixPend) ∧
          ((getPort s q.port).up = false → s'.ports = s.ports ∧ (getEng (getPart s' p.val) n).held.length = g.held.length + 1) ∧
          (l.index + 1 < l.entries.length → (getEng (getPart s' p.val) n).lists = next :: rest ∧
            (getEng (getPart s' p.val) n).cur = if l.depFailed then { ended := some (0x401, 0, 0) }
              else if next.stopped then { ended := some (0x400, 0, 0) } else {}) ∧
          (l.entries.length ≤ l.index + 1 → (getEng (getPart s' p.val) n).lists = rest.map (fun k =>
              if k.dep = some (n, l.tag) then { k with dep := none, depFailed := bad } else k) ∧
            (getEng (getPart s' p.val) n).cur = {} ∧ (getEng (getPart s' p.val) n).kept.head? = some (l.tag, !bad) ∧
            (getEng (getPart s' p.val) n).lastErr = bad))) ∧
    (∀ (l : CmdList) (e : Unit512) (c : Entry), mwf {} q.chan = true →
      let k := fld e.toNat 64 2
      let ch := mget {} q.chan k
      let ends := fun (i : Instr) (st d0 d1 : Nat) (ch' : Chan) => ∃ s', exec i s = .next s' ∧ HostSideOnly s s' ∧
        s'.ports = s.ports ∧ (getEng (getPart s' p.val) 2).cur.ended = some (st, d0, d1) ∧
        mget {} (getPart s' p.val).chan k = ch' ∧
        ∀ j, j ≠ k → mget {} (getPart s' p.val).chan j = mget {} q.chan j
      (entryOf s p.val 2 0x20 false = some (l, e, c) → ch.armed = true → ends (.arm p) 0x405 0 0 ch) ∧
      (entryOf s p.val 2 0x20 false = some (l, e, c) → ch.armed = false → fld e.toNat 66 2 < 3 → ends (.arm p) 0 0 0
        { armed := true, alg := BitVec.ofNat 2 (fld e.toNat 66 2), src := BitVec.ofNat 3 (fld e.toNat 68 3)
          lo := fld e.toNat 128 64, hi := fld e.toNat 192 64
          acc := if fld e.toNat 66 2 = 0 then 0xFFFFFFFF else if fld e.toNat 66 2 = 1 then BitVec.allOnes 64 else 0 }) ∧
      (entryOf s p.val 2 0x21 false = some (l, e, c) → ends (.disarm p) 0
        (if ch.alg = 0 then ch.acc.toNat ^^^ 0xFFFFFFFF else if ch.alg = 1 then ch.acc.toNat ^^^ (2 ^ 64 - 1)
          else ch.acc.toNat ^^^ ofBytesLE ch.part) ch.bytes { ch with armed := false }))

/-- R331, R333, R355: transfers between host and stacks. H2S and IMG ask the host for a line at a time, and its bytes are
written where they go; S2H reads bytes that no host holds and gives them to the host, a line at a time; S2S copies a run as
if through a buffer. An error ends the entry with HOST_ACCESS, and no response in 50 ms with COMPLETION_TIMEOUT. A line that
the host gives back is written and leaves the filter. Model's choices: log entries 98, 100, 145. -/
def Obligations.HostTransfers : Prop :=
  ∀ (s : State) (p : Fin 4) (l : CmdList) (e : Unit512) (c : Entry), EngineMaps s p.val →
    let q := getPart s p.val
    let o := q.port
    let first := min (64 - enHaddr e % 64) (enLen e)
    let asked : Entry := { started := true, asked := some s.cycle, reqAddr := enHaddr e, reqLen := first }
    let out := fun (s' : State) (x : HostOut) => (getPort s' o).out = (getPort s o).out ++ [x]
    (openEntry s p.val 1 = some (l, e, {}) → 1 ≤ enLen e →
      ((getPort s o).up = true → (enOp e = 0x10 ∨ enOp e = 0x13) →
        ∃ s', exec (if enOp e = 0x10 then .h2s p else .img p) s = .next s' ∧ HostSideOnly s s' ∧
          out s' (.readReq (enHaddr e) first) ∧ curOf s' p.val = asked) ∧
      (∀ i, (i = .s2h p ∧ enOp e = 0x11) ∨ (i = .s2s p ∧ enOp e = 0x12) →
        let n := if enOp e = 0x11 then first else enLen e
        let m := min (64 - enSaddr e % 64) n
        trackedLines s p.val (enSaddr e) n = [] → stackServes s (paToDa q (enSaddr e)) = true →
        ∃ s', exec i s = .next s' ∧ HostSideOnly s s' ∧ (getPort s' o).out = (getPort s o).out ∧
          curOf s' p.val = { started := true, reading := some (q.steNo + 1) } ∧
          AsksPiece s' p.val (q.steNo + 1) (paToDa q (enSaddr e)) m) ∧
      (enOp e = 0x11 → (getPort s o).up = true → trackedLines s p.val (enSaddr e) first = [] →
        (∀ i < first, stackServes s (paToDa q (enSaddr e + i)) = false) →
        ∃ s', exec (.s2h p) s = .next s' ∧ HostSideOnly s s' ∧ (curOf s' p.val).asked = some s.cycle ∧
          (curOf s' p.val).poison = true ∧
          out s' (.write (enHaddr e) (List.replicate first 0) (decide (first = 64))))) ∧
    (∀ (d : Fin 48) (sl : Fin 64) (ce : ChunkEcc) (bs : List Byte) (bad : Nat),
      openEntry s p 1 = some (l, e, c) → c.started = true → c.asked = none → PieceComes s p.val c d sl ce bs bad →
      mwf [] (getSpine s d.val).reads = true →
      let n := min (64 - (enHaddr e + c.moved) % 64) (enLen e - c.moved)
      (enOp e = 0x11 → bs.length = n → (getPort s o).up = true →
        ∃ s', exec (.dramReadReturn d sl ce) s = .next s' ∧ s'.tiles = s.tiles ∧ s'.stk.mem = s.stk.mem ∧
          out s' (.write (enHaddr e + c.moved) bs (decide (bs.length = 64))) ∧ (curOf s' p.val).buf = bs ∧
          (curOf s' p.val).asked = some s'.cycle ∧ (curOf s' p.val).moved = c.moved ∧
          (curOf s' p.val).poisoned = c.poisoned + bad) ∧
      (enOp e = 0x12 → bs.length = enLen e → trackedLines s p.val (enDaddr e) (enLen e) = [] → Memory.wf s.stk.mem →
        (∀ i < enLen e, stackServes s (paToDa q (enDaddr e + i)) = true) → ce.w ≠ .double →
        ∃ s', exec (.dramReadReturn d sl ce) s = .next s' ∧ s'.tiles = s.tiles ∧
          (curOf s' p.val).ended = some (0, enLen e, bad) ∧ RunWritten s s' q (enDaddr e) bs ce.w) ∧
      (enOp e = 0x12 → bs.length < enLen e → trackedLines s p.val (enSaddr e + bs.length) (enLen e - bs.length) = [] →
        let da := paToDa q (enSaddr e + bs.length)
        stackServes s da = true → ∃ s', exec (.dramReadReturn d sl ce) s = .next s' ∧ s'.tiles = s.tiles ∧
          s'.stk.mem = s.stk.mem ∧ rbufBytes (curOf s' p.val) = bs ∧ (curOf s' p.val).reading = some (q.steNo + 1) ∧
          AsksPiece s' p.val (q.steNo + 1) da (min (64 - (enSaddr e + bs.length) % 64) (enLen e - bs.length)))) ∧
    (openEntry s p.val 1 = some (l, e, c) → c.started = true → c.asked.isSome = true → 1 ≤ c.reqLen →
      c.reqAddr % 64 + c.reqLen ≤ 64 →
      let all := decide (enLen e ≤ c.moved + c.reqLen)
      (∀ (d : BitVec 512) (bad : Bool) (w : Ecc), enOp e = 0x10 → c.buf = [] → c.bufPoison = false →
        trackedLines s p.val (enSaddr e + c.moved) c.reqLen = [] → Memory.wf s.stk.mem → mwf false s.stk.poison = true →
        (∀ i < c.reqLen, stackServes s (paToDa q (enSaddr e + c.moved + i)) = true) →
        ∃ s', exec (.cxlCacheResponse p (.data d bad w)) s = .next s' ∧
          RunWritten s s' q (enSaddr e + c.moved)
            ((List.range c.reqLen).map fun i => BitVec.ofNat 8 (elem d.toNat 8 (c.reqAddr % 64 + i))) w ∧
          RunMarked s s' q (enSaddr e + c.moved) c.reqLen bad w ∧
          (curOf s' p.val).moved = c.moved + c.reqLen ∧ (curOf s' p.val).poisoned = c.poisoned + b2n bad ∧
          (all = true → (curOf s' p.val).ended = some (0, c.moved + c.reqLen, c.poisoned + b2n bad)) ∧
          s'.tiles = s.tiles ∧ s'.cycle = s.cycle) ∧
      (enOp e = 0x11 ∨ enOp e = 0x16 → ∃ s', exec (.cxlCacheResponse p .done) s = .next s' ∧ HostSideOnly s s' ∧
        (curOf s' p.val).moved = c.moved + c.reqLen ∧
        (enOp e = 0x11 → all = true → (curOf s' p.val).ended = some (0, c.moved + c.reqLen, c.poisoned))) ∧
      (∃ s', exec (.cxlCacheResponse p .error) s = .next s' ∧ HostSideOnly s s' ∧ (curOf s' p.val).asked = none ∧
        (curOf s' p.val).ended = some (0x403, if tileEntry e then c.moved / 64 else c.moved, c.poisoned)) ∧
      (∀ t, c.asked = some t → ∃ s', exec (.cxlCacheTimeout p) s = .next s' ∧ s'.cycle = max s.cycle (t + 90000000) ∧
        (curOf s' p.val).ended = some (evNum .completionTimeout, 1, c.reqAddr) ∧ s'.tiles = s.tiles ∧ s'.stk = s.stk ∧
        s'.sage.ev = raisePort s.sage.ev { mkEv .completionTimeout 1 c.reqAddr s'.cycle with part := some p.val })) ∧
    (∀ (n : Fin 4) (line : Nat) (wb : WriteBack), line ∈ (getPort s n.val).snoops → NoDetach s →
      partOfPort s n.val = some p.val → openEntry s p.val 1 = none → (curOf s p.val).wecc = .clean → Memory.wf s.stk.mem →
      let da := paToDa q (64 * line)
      stackServes s da = true → ∃ s', exec (.birsp n line wb) s = .next s' ∧
        ((getPort s n.val).heldReads = [] →
          (getPort s' n.val).filter = (getPort s n.val).filter.filter (fun a => a != line) ∧
          (getPort s' n.val).snoops = (getPort s n.val).snoops.filter (fun a => a != line) ∧ (wb.data = none → HostSideOnly s s')) ∧
        (∀ d, wb.data = some d → ∀ i < 64, memByte s'.stk.mem (da + i) = BitVec.ofNat 8 (elem d.toNat 8 i)) ∧
        (wb.data = none → s'.stk = s.stk) ∧ (∀ a, a < da ∨ da + 64 ≤ a → memByte s'.stk.mem a = memByte s.stk.mem a) ∧
        s'.tiles = s.tiles ∧ s'.parts = s.parts ∧ s'.cycle = s.cycle)

/-- R211, R214, R356: transfers on tiles. While the partition runs, a write entry sends its slots to the tile's window in
packets of at most eight, a read entry asks for eight slots at a time, and TCMD sends one command; while it is IDLE or
FAULTED the entry completes with its state. Slots that come back go on to the host or to memory. With CONFIRM the entry
completes when its counter has grown enough; 1 ms after its last packet it completes with COMPLETION_TIMEOUT. Model's
choices: log entries 98, 99, 102. -/
def Obligations.TileTransfers : Prop :=
  ∀ (s : State) (p : Fin 4) (l : CmdList) (e : Unit512) (c : Entry), EngineMaps s p.val →
    let q := getPart s p.val
    let o := q.port
    let n := enSlots e
    let conf := enConfirm e && decide (enOp e = 0x14 ∨ enOp e = 0x15 ∨ enOp e = 0x18)
    let base := if conf then confirmCount s e else none
    let tap := some (tileDie s (enX e) (enY e))
    let may := fun (t : Option Nat) => mayIssue s (2 + o) t p.val = true
    let addressed := fun (kind npay : Nat) (pk : Packet) => hKind pk.header = kind ∧ hDx pk.header = enX e ∧
      hDy pk.header = enY e ∧ hNpay pk.header = npay ∧ hIssuer pk.header = 2 + o ∧ hTag pk.header = p.val ∧
      pk.epoch = q.epoch ∧ (kind = 1 → hWin pk.header = enWin e)
    let ends := fun (i : Instr) (k : State → Prop) => ∃ s', exec i s = .next s' ∧ s'.tiles = s.tiles ∧
      s'.defects = s.defects ∧ k s'
    1 ≤ n → n ≤ 2048 → o < 4 →
    (openEntry s p.val 1 = some (l, e, {}) →
      (∀ r ∈ [((.h2t p : Instr), 0x14), (.s2t p, 0x15), (.t2h p, 0x16), (.t2s p, 0x17), (.tcmd p, 0x18)], enOp e = r.2 →
        q.st = .idle ∨ q.st = .faulted → ends r.1 fun s' => s'.stk = s.stk ∧ s'.issued = s.issued ∧
          (curOf s' p.val).ended = some (0x410 + pstateNum q.st, 0, 0)) ∧
      (q.st = .running ∨ q.st = .halted → q.suspended = false → (conf = false ∨ base.isSome = true) →
        (enOp e = 0x14 → (getPort s o).up = true → may none → ends (.h2t p) fun s' => s'.stk = s.stk ∧ s'.issued = s.issued ∧
          (getPort s' o).out = (getPort s o).out ++ [.readReq (enHaddr e) (min (64 - enHaddr e % 64) (64 * n))] ∧
          (curOf s' p.val).base = base ∧ (curOf s' p.val).asked = some s.cycle) ∧
        (enOp e = 0x15 → trackedLines s p.val (enSaddr e) (64 * min 8 n) = [] → may tap →
          stackServes s (paToDa q (enSaddr e)) = true → ends (.s2t p) fun s' => s'.stk = s.stk ∧ s'.issued = s.issued ∧
          (curOf s' p.val).reading = some (q.steNo + 1) ∧ (curOf s' p.val).base = base ∧
          AsksPiece s' p.val (q.steNo + 1) (paToDa q (enSaddr e)) (64 - enSaddr e % 64)) ∧
        (∀ i, (i = .t2h p ∧ enOp e = 0x16) ∨ (i = .t2s p ∧ enOp e = 0x17) →
          let by_ := if enOp e = 0x17 then tap else none
          may by_ → ends i fun s' => s'.stk = s.stk ∧ (curOf s' p.val).sent = min 8 n ∧ (curOf s' p.val).moved = 0 ∧
          ∃ pk, s'.issued = s.issued ++ [(pk, by_)] ∧ addressed 2 (min 8 n) pk ∧ ∃ r, s'.asked = s.asked ++ [r] ∧
            r.issuer = 2 + o ∧ r.tag = p.val ∧ r.seq % 65536 = hSeq pk.header ∧ r.npay = min 8 n) ∧
        (enOp e = 0x18 → bOp (BitVec.ofNat 64 (enDaddr e)) ≠ 1 → may none → ends (.tcmd p) fun s' => s'.stk = s.stk ∧
          (getPart s' p.val).tileio = true ∧ (conf = false → (curOf s' p.val).ended = some (0, 0, 0)) ∧
          (conf = true → (curOf s' p.val).ended = none ∧ (curOf s' p.val).base = base) ∧
          ∃ pk, s'.issued = s.issued ++ [(pk, none)] ∧ addressed 3 0 pk) ∧
        (enOp e = 0x18 → bOp (BitVec.ofNat 64 (enDaddr e)) = 1 → (getPort s o).up = true → may none → ends (.tcmd p) fun s' =>
          s'.stk = s.stk ∧ s'.issued = s.issued ∧ (curOf s' p.val).asked = some s.cycle ∧
          (getPort s' o).out = (getPort s o).out ++ [.readReq (enHaddr e) (min (64 - enHaddr e % 64) 64)]))) ∧
    (openEntry s p.val 1 = some (l, e, c) → c.started = true → c.asked.isSome = true → c.buf = [] → c.bufPoison = false →
      c.reqLen = 64 → c.reqAddr % 64 = 0 → (q.st = .running ∨ q.st = .halted) → q.suspended = false → may none →
      ∀ (d : BitVec 512) (bad : Bool) (w : Ecc),
      (enOp e = 0x14 → c.sent + c.ready.length < n → c.ready.length < 8 →
        (c.ready.length = 7 ∨ c.sent + c.ready.length + 1 = n) → (getPort s o).up = true →
        ends (.cxlCacheResponse p (.data d bad w)) fun s' => s'.stk = s.stk ∧
          ∃ pk, s'.issued = s.issued ++ [(pk, none)] ∧ addressed 1 (c.ready.length + 1) pk ∧
            hOffset pk.header = (enOffset e + c.sent) % 2048 ∧ pk.payload = c.ready ++ [(d, bad)]) ∧
      (enOp e = 0x18 → bOp (BitVec.ofNat 64 (enDaddr e)) = 1 → c.packets = 0 →
        ends (.cxlCacheResponse p (.data d bad w)) fun s' => s'.stk = s.stk ∧
          ∃ pk, s'.issued = s.issued ++ [(pk, none)] ∧ addressed 3 1 pk ∧ pk.payload = [(d, bad)])) ∧
    (∀ (d : Fin 48) (sl : Fin 64) (ce : ChunkEcc) (bs : List Byte) (bad : Nat),
      openEntry s p.val 1 = some (l, e, c) → c.started = true → c.asked = none → enOp e = 0x15 → c.sent < n →
      PieceComes s p.val c d sl ce bs bad → mwf [] (getSpine s d.val).reads = true →
      (q.st = .running ∨ q.st = .halted) → q.suspended = false → may tap →
      bs.length = 64 * min 8 (n - c.sent) → ends (.dramReadReturn d sl ce) fun s' => s'.stk.mem = s.stk.mem ∧
        (n ≤ c.sent + 8 → (curOf s' p.val).sent = n) ∧
        (n ≤ c.sent + 8 → enConfirm e = false →
          ∃ k, (curOf s' p.val).ended = some (0, (c.moved + 64 * (n - c.sent)) / 64, k)) ∧
        ∃ pk more, s'.issued = s.issued ++ (pk, tap) :: more ∧ (n ≤ c.sent + 8 → more = []) ∧ addressed 1 (min 8 (n - c.sent)) pk ∧
          hOffset pk.header = (enOffset e + c.sent) % 2048 ∧
          pk.payload.map (·.1) = (List.range (min 8 (n - c.sent))).map fun j =>
            BitVec.ofNat 512 (ofBytesLE (slice bs (64 * j) 64))) ∧
    (openEntry s p.val 1 = some (l, e, c) → c.started = true → c.asked = none →
      (∀ (k : Packet) (r : ReadOut) (w : Ecc), s.resps = [k] → k.by_ = 2 + o → hTag k.header = p.val →
        s.asked.find? (answers k) = some r → c.buf = [] → k.payload ≠ [] → 64 * c.sent > c.moved → c.moved < 64 * n →
        let m := k.payload.length
        let place := 64 * ((hOffset k.header + 2048 - enOffset e) % 2048)
        let bs := k.payload.flatMap fun x => bytesLE x.1.toNat 64
        (enOp e = 0x16 → (getPort s o).up = true → ends (.resp ⟨p, w⟩) fun s' => s'.resps = [] ∧ s'.stk = s.stk ∧
          s'.asked = s.asked.erase r ∧ let a := enHaddr e + place
          (getPort s' o).out = (getPort s o).out ++ [.write a (bs.take (64 - a % 64)) (decide (a % 64 = 0))]) ∧
        (enOp e = 0x17 → Memory.wf s.stk.mem → mwf false s.stk.poison = true →
          let pa := enSaddr e + place
          trackedLines s p.val pa (64 * m) = [] → (∀ i < 64 * m, stackServes s (paToDa q (pa + i)) = true) →
          ends (.resp ⟨p, w⟩) fun s' => s'.resps = [] ∧
            (∀ a, (∀ i < 64 * m, a ≠ paToDa q (pa + i)) → memByte s'.stk.mem a = memByte s.stk.mem a) ∧
            (pa % 64 = 0 ∨ w ≠ .double → ∀ i < 64 * m, memByte s'.stk.mem (paToDa q (pa + i)) = nth bs i 0) ∧
            (pa % 64 = 0 → ∀ j < m,
              mget false s'.stk.poison (paToDa q (pa + 64 * j) / 64) = ((k.payload[j]?).map (·.2)).getD false) ∧
            (curOf s' p.val).moved = c.moved + 64 * m ∧ (c.moved + 64 * m = 64 * n →
              (curOf s' p.val).ended = some (0, n, c.poisoned + (k.payload.filter (·.2)).length)))) ∧
      (∀ b, sentEntry s p.val = some (e, c) → c.base = some b →
        let t := max s.cycle (c.polled + 18000)
        let need := if enOp e = 0x18 then bCount (BitVec.ofNat 64 (enDaddr e)) else n
        ends (.confirmPoll p) fun s' => s'.cycle = t ∧ s'.stk = s.stk ∧ (curOf s' p.val).polled = t ∧
          (curOf s' p.val).ended = match confirmCount (advanceTo s t) e with
            | some m => if b + need ≤ m then some (0, c.moved / 64, c.poisoned) else none
            | none => some (0x404, c.moved / 64, c.poisoned)) ∧
      (∀ t, sentEntry s p.val = some (e, c) → c.lastSent = some t → ends (.entryTimeout p) fun s' =>
        s'.cycle = max s.cycle (t + 1800000) ∧ s'.stk = s.stk ∧
        (curOf s' p.val).ended = some (evNum .completionTimeout, 2, 0) ∧
        s'.sage.ev = raisePort s.sage.ev { mkEv .completionTimeout 2 0 s'.cycle with part := some p.val }))

/-! ## Ports (R13, R326-R335, R341, R342, R349, R350, R363, R364) -/

/-- R13, R327, R329, R330, R333, R334, R341, R342, R349, R350, R360: what a port answers. A snoop finds no line; a decoder
commits only the partition's size, one way and an aligned base; host software selects a key set that it installed; CDAT
gives the structures; a write reaches the registers that take one, SGM_CMD and SGM_REQ only while GO is 0; a vector's mask
bit keeps it pending until it is cleared; a key pair ends 60 s after its report. Model's choices: log entries 106, 165. -/
def Obligations.PortCommands : Prop :=
  ∀ (s : State) (o : Fin 4),
    let q := getPort s o.val
    let set := fun (f : Port → Port) => Host.Outcome.next (φ := Fault) (ρ := Refusal)
      { s with ports := mmod {} s.ports o.val f }
    (∀ a, q.up = true → exec (.hostSnoop o a) s = set fun q => { q with
      out := if q.up then q.out ++ [.snoopMiss a] else q.out }) ∧
    (∀ k : Fin 2, q.up = false ∨ mget [] q.keys k.val = [] → exec (.ideEnable o k) s = .next s) ∧
    (∀ base size ways, q.up = true → exec (.hdmDecoderCommit o base size ways) s = set fun q =>
      if (∃ p, partOfPort s o.val = some p ∧ size = hdmSize (getPart s p)) ∧ ways = 1 ∧ base % 2 ^ 28 = 0 then
        { q with hdmBase := base, hdmSize := size, committed := true, notCommitted := false }
      else { q with committed := false, notCommitted := true }) ∧
    (∀ k : Fin 2, q.up = true → mget [] q.keys k.val ≠ [] → exec (.ideEnable o k) s = set fun q =>
      { q with ide := true, ideSet := k.val }) ∧
    (∀ p, q.up = true → partOfPort s o.val = some p →
      let band := 100000 / 2 ^ (q.rate + if q.x8 then 1 else 0)
      exec (.cdatRead o) s = set fun q => if q.up then { q with
        out := q.out ++ [.cdat { size := hdmSize (getPart s p), specificPurpose := true, readLatency := 450
                                 writeLatency := 400, readBandwidth := band, writeBandwidth := band }] } else q) ∧
    (∀ off (v : BitVec 64), q.up = true → off % 8 = 0 →
      (off < 0x10000 ∨ (0x18000 ≤ off ∧ off < 0x18200 ∧ off % 16 = 0) → exec (.registerWrite o off v) s = set fun q =>
        { q with regs := mset 0 q.regs off v }) ∧
      (∀ n < 32, off = 0x18008 + 16 * n →
        let b := BitVec.ofNat 32 (2 ^ n)
        let kept := fun (q : Port) => { q with regs := mset 0 q.regs off (v &&& 0xFFFFFFFF#64) }
        (v.getLsbD 32 = true → exec (.registerWrite o off v) s = set fun q =>
          { kept q with msixMask := q.msixMask ||| b }) ∧
        (v.getLsbD 32 = false → q.msixPend.getLsbD n = false → exec (.registerWrite o off v) s = set fun q =>
          { kept q with msixMask := q.msixMask &&& ~~~b }) ∧
        (v.getLsbD 32 = false → q.msixPend.getLsbD n = true → exec (.registerWrite o off v) s = set fun q =>
          { kept q with msixMask := q.msixMask &&& ~~~b, msixPend := q.msixPend &&& ~~~b, out := q.out ++ [.vector n] })) ∧
      (off = 0x10000 → q.go = false → q.reading = false →
        let m : MailCmd := { port := o, len := fld v.toNat 16 13, irq := v.getLsbD 29, req := [] }
        (v.getLsbD 63 = false → exec (.registerWrite o off v) s = set fun q =>
          { q with opcode := v.setWidth 16, len := (v >>> 16).setWidth 13, irq := v.getLsbD 29, go := false }) ∧
        (v.getLsbD 63 = true → v.setWidth 16 = 0x10#16 → exec (.registerWrite o off v) s = set fun q =>
          { q with opcode := 0x10, len := (v >>> 16).setWidth 13, irq := v.getLsbD 29, go := true, reading := true }) ∧
        (v.getLsbD 63 = true → mailServes s = true → (∀ r ∈ mailRows none, r.2 ≠ 0x10 → fld v.toNat 0 16 = r.2 →
            exec (.registerWrite o off v) s = exec (r.1 m) s) ∧
          (fld v.toNat 0 16 ∉ (mailRows none).map (·.2) →
            exec (.registerWrite o off v) s = exec (.unknownOpcode m (v.setWidth 16)) s))) ∧
      (0x11000 ≤ off → off < 0x12000 → q.go = false → mwf {} s.ports = true → ∃ s', exec (.registerWrite o off v) s = .next s' ∧
        s' = { s with ports := s'.ports } ∧ (∀ k, k ≠ o.val → getPort s' k = getPort s k) ∧
        getPort s' o.val = { q with req := (getPort s' o.val).req } ∧
        (∀ i < 8, (getPort s' o.val).req.getD (off - 0x11000 + i) 0 = BitVec.ofNat 8 (elem v.toNat 8 i)) ∧
        ∀ j, j < off - 0x11000 ∨ off - 0x11000 + 8 ≤ j → (getPort s' o.val).req.getD j 0 = q.req.getD j 0) ∧
      ((0x10000 ≤ off ∧ off < 0x12000 ∧ q.go = true) ∨ (0x10008 ≤ off ∧ off < 0x11000) ∨ (0x12000 ≤ off ∧ off < 0x18000) ∨
        0x18200 ≤ off → exec (.registerWrite o off v) s = .next s)) ∧
    (∀ k due, q.ek = some (k, due) → exec (.keyPairExpiry o) s = .next { s with
      cycle := max s.cycle due, ports := mmod {} s.ports o.val fun q => { q with ek := none } })

/-- R326, R327, R331, R334, R335, R363, R364: links. A link trains at a supported rate and width, after release ATTACHED,
and the records held are written. When a link goes down, by itself or by an integrity failure under IDE, its lines are gone,
HOST_LINK_DOWN is raised and the entry that needs the host ends. After 60 s, and on a function level reset, Sage sweeps the
band as an ABORT does. Model's choices: log entries 103, 104. -/
def LinksOfBoundPorts : Prop :=
  ∀ (s : State) (o : Fin 4) (p : Nat), mwf {} s.ports = true → mwf {} s.parts = true → partOfPort s o.val = some p →
    mwf {} (getPart s p).eng = true →
    let q := getPort s o.val
    (∀ (r : LinkTrain) (rate : Nat), (r.gts, rate) ∈ [(64, 0), (32, 1), (16, 2)] → r.lanes = 16 ∨ r.lanes = 8 →
      q.up = false →
      (s.boot.phase = .released ∨ (o.val = 0 ∧ s.boot.phase ∈ [.waitMain, .recovery, .prepared])) → openEntry s p 1 = none →
      ∃ s', exec (.linkUp o r) s = .next s' ∧ HostSideOnly s s' ∧ (∀ k, k ≠ o.val → getPort s' k = getPort s k) ∧
        (getPort s' o.val).up = true ∧ (getPort s' o.val).rate = rate ∧ (getPort s' o.val).x8 = decide (r.lanes = 8) ∧
        (getPort s' o.val).downAt = none ∧
        (getPort s' o.val).st = (if s.boot.phase = .released ∧ q.detach = none then .attached else q.st) ∧
        (let held := (List.range 3).flatMap fun e => (getEng (getPart s p) e).held;
          (getPort s' o.val).out = q.out ++ (held.flatMap fun k =>
            .write k.addr (bytesLE k.record.toNat 32) false :: k.vec.toList.flatMap (vecOut q)) ∧
          ∀ v < 32, (getPort s' o.val).msixPend.getLsbD v =
            (q.msixPend.getLsbD v || (q.msixMask.getLsbD v && held.any fun k => decide (k.vec = some v)))) ∧
        ∀ e < 3, (getEng (getPart s' p) e).held = []) ∧
    (∀ i, (i = .hostLinkDown o) ∨ (i = .ideIntegrityFail o ∧ q.ide = true) → q.up = true → q.st = .attached →
      s.boot.phase = .released → NoDetach s → ∃ s', exec i s = .next s' ∧
        (getPort s' o.val).up = false ∧ (getPort s' o.val).downAt = some s.cycle ∧ (getPort s' o.val).filter = [] ∧
        (getPort s' o.val).snoops = [] ∧ (getPort s' o.val).heldReads = [] ∧ (getPort s' o.val).st = .attached ∧ s'.tiles = s.tiles ∧ s'.cycle = s.cycle ∧
        (openEntry s p 1 = none → HostSideOnly s s' ∧
          s'.sage.ev = raisePort s.sage.ev { mkEv .hostLinkDown o.val 0 s.cycle with part := some p }) ∧
        (∀ l e c, openEntry s p 1 = some (l, e, c) → c.started = true → enOp e = 0x10 ∨ enOp e = 0x11 →
          (curOf s' p).ended = some (evNum .hostLinkDown, c.moved, c.poisoned))) ∧
    (∀ t, q.downAt = some t → q.up = false → q.st = .attached → q.filter = [] → NoDetach s → mwf {} s.tiles = true →
      ∃ s', exec (.linkDownTimeout o) s = .next s' ∧ BandSwept s s' o.val p .detached ∧
        s'.cycle = max s.cycle (t + 108000000000) ∧ ∀ e < 3, (getEng (getPart s' p) e).held = []) ∧
    (q.up = true → s.boot.phase = .released → q.filter = [] → NoDetach s → mwf {} s.tiles = true →
      ∃ s', exec (.functionLevelReset o) s = .next s' ∧ BandSwept s s' o.val p .attached ∧ s'.cycle = s.cycle)

/-- R326, R327, R331, R334, R335, R363, R364: links, and a function level reset of a port that serves no partition, which is
ATTACHED after it. -/
def Obligations.LinksOfPorts : Prop :=
  LinksOfBoundPorts ∧ ∀ (s : State) (o : Fin 4), partOfPort s o.val = none → (getPort s o.val).up = true →
    s.boot.phase = .released → NoDetach s → exec (.functionLevelReset o) s = .next
      { s with ports := mmod {} s.ports o.val fun q => { q with st := if q.up then .attached else .detached } }

/-- R337: a port bound to no partition. It trains, it answers a configuration request, and it answers PARTITION_QUERY, with
PART 4, ATTEST and ATTACH; every other mailbox command returns NO_PARTITION. -/
def Obligations.PortWithoutPartition : Prop :=
  ∀ (s : State) (m : MailCmd), s.boot.phase = .released → partOfPort s m.port.val = none →
    let o := m.port.val
    (∀ r : LinkTrain, ∀ rate, (r.gts, rate) ∈ [(64, 0), (32, 1), (16, 2)] → r.lanes = 16 ∨ r.lanes = 8 →
      (getPort s o).up = false → (getPort s o).detach = none → exec (.linkUp m.port r) s = .next
        { s with ports := mmod {} s.ports o fun q => { q with
            up := true, rate := rate, x8 := decide (r.lanes = 8), downAt := none, st := .attached } }) ∧
    (mwf {} s.ports = true → (getPort s o).up = true → ∃ s' l, exec (.cdatRead m.port) s = .next s' ∧
      s' = { s with ports := s'.ports } ∧ (getPort s' o).out = (getPort s o).out ++ [.cdat l]) ∧
    (MailFree s m →
      (m.len % 2 ^ 13 = 0 → ∃ s', exec (.partitionQuery m) s = .next s' ∧
        fld (queryRecord (goWritten 0x01 m s) o) 0 3 = 4 ∧
        Completed o 0 (bytesLE (queryRecord (goWritten 0x01 m s) o) 64) (goWritten 0x01 m s) s') ∧
      (m.len % 2 ^ 13 = 32 → ∃ s' rsp, exec (.attest m) s = .next s' ∧ rsp.length = 3860 ∧
        Completed o 0 rsp { goWritten 0x40 m s with
          sage := { s.sage with keyPairs := s.sage.keyPairs + 1 }
          ports := mmod {} (goWritten 0x40 m s).ports o fun q => { q with
            ek := some (s.sage.keyPairs, s.cycle + 108000000000) } } s') ∧
      (m.len % 2 ^ 13 = 0 → (getPort s o).st = .detached → ∃ s', exec (.attach m) s = .next s' ∧
        Completed o 0 [] { s with ports := mmod {} (goWritten 0x51 m s).ports o fun q => { q with st := .attached } } s') ∧
      (∀ host, ∀ r ∈ mailRows host, r.2 < 0x0F00 → r.2 ≠ 0x01 → r.2 ≠ 0x40 → r.2 ≠ 0x51 → ∃ s',
        exec (r.1 m) s = .next s' ∧
        Completed o 5 (if r.2 = 0x10 then List.replicate 8 0 else []) (goWritten r.2 m s) s'))

/-! ## The operator and start-up (R336, R339, R346, R373, R380, R394-R412, R417, R422, R425, R435) -/

/-- The Redfish requests that need no operand of their own checked. -/
def redfishRows (ps : List PartDef) (c : CapoReq) (p : Fin 4) (r : PolicyReq) (l : Option Bool) (t : TestReq)
    (img : List Byte) (force : Bool) : List Instr :=
  [.partitionSet ps force, .capoSettings c, .redfishPolicySet p r l, .redfishSelftest p t, .firmwareUpdate img,
   .computerSystemReset force, .commitVersion, .enterRecovery, .prepareRemoval force, .devidCertWrite img]

/-- R314, R336, R339, R340, R346, R373, R380, R402, R407: settings over Redfish, served from release on. A valid set of
partitions that breaks none in use is applied: each changed partition starts IDLE with its policies, its port DETACHED and
the memory that changes hands zero. Capo settings within range take effect, policies and their lock follow the operator, a
test gets a ticket, and a certificate of the device's own key is kept. What is not allowed is refused and changes nothing.
Model's choices: log entries 107, 108, 116. -/
def Obligations.OperatorSettings : Prop :=
  ∀ (s : State) (ps : List PartDef) (c : CapoReq) (p : Fin 4) (r : PolicyReq) (lock : Option Bool) (t : TestReq)
    (bs : List Byte) (force : Bool),
    let ends := fun (i : Instr) (a : MgmtOut) (f : State → State) =>
      exec i s = .next { f s with mgmt := (f s).mgmt ++ [a] }
    (s.boot.phase = .waitMain → ∀ i ∈ redfishRows ps c p r lock t bs force, ends i .unavailable id) ∧
    (inService s = true → mwf {} s.parts = true → mwf {} s.ports = true →
      let q := getPart s p.val
      (setValid ps = false → ends (.partitionSet ps force) .rejected id) ∧
      (setValid ps = true → setAllowed s ps = false → ends (.partitionSet ps false) .conflict id) ∧
      (setValid ps = true → setAllowed s ps = true → ∃ s', exec (.partitionSet ps force) s = .next s' ∧
        s'.mgmt = s.mgmt ++ [.done] ∧ HistItem.partitions ps ∈ s'.sage.history ∧ s'.cycle = s.cycle ∧
        (∀ k < 4, (∀ d ∈ ps, d.index.val ≠ k) → (getPart s' k).set_ = false) ∧
        (∀ d ∈ ps, let old := getPart s d.index.val
          let new := getPart s' d.index.val
          if old.set_ = true ∧ old.lo = d.lo ∧ old.hi = d.hi ∧ old.port = d.port.val then new = old
          else new.set_ = true ∧ new.lo = d.lo ∧ new.hi = d.hi ∧ new.port = d.port.val ∧ new.st = .idle ∧ new.epoch = 0 ∧
            new.policy = (if old.set_ = true ∧ old.port = d.port.val then old.policy else {}) ∧
            (getPort s' d.port.val).st = .detached ∧ (getPort s' d.port.val).committed = false) ∧
        (∀ i < 8, columnOwner s' i ≠ columnOwner s i → ∀ a, 6 * i * 2 ^ 37 ≤ a → a < (6 * i + 6) * 2 ^ 37 →
          memByte s'.stk.mem a = 0)) ∧
      (let n := { s.power.capo with
          cap := c.cap.getD s.power.capo.cap, ramp := c.ramp.getD s.power.capo.ramp
          floor := c.floor.getD s.power.capo.floor, ballast := c.ballast.getD s.power.capo.ballast
          cpv := c.cpv.getD s.power.capo.cpv }
        let ok := 1600 ≤ n.cap ∧ n.cap ≤ 4000 ∧ 200 ≤ n.ramp ∧ n.ramp ≤ 10000 ∧ n.floor ≤ n.cap ∧
          (n.cpv = 0 ∨ (3000 ≤ n.cpv ∧ n.cpv ≤ 4200))
        (¬ ok → ends (.capoSettings c) .rejected id) ∧
        (ok → n.ballast = true → ends (.capoSettings c) .done fun s => { s with power := { s.power with capo := n } }) ∧
        (ok → n.ballast = false → ∃ s', exec (.capoSettings c) s = .next s' ∧
          s' = { s with power := { s.power with capo := n }, parts := s'.parts, mgmt := s.mgmt ++ [.done] } ∧
          ∀ k < 4, getPart s' k = if (getPart s k).set_ then { getPart s k with bunits := 0 } else getPart s k)) ∧
      (if q.set_ = true ∧ policyInRange r = true then
          ends (.redfishPolicySet p r lock) .done fun s => addHistory (.policies p.val (setPolicy r q.policy)) { s with
            parts := mmod {} s.parts p.val fun q => { q with policy := setPolicy r q.policy, plock := lock.getD q.plock } }
        else ends (.redfishPolicySet p r lock) .rejected id) ∧
      (q.set_ = true → (∀ x, t.tile = some x → ownsTile s p.val x.x x.y = true) → q.nextTicket < 65535 →
        q.tickets.length < 64 →
        let busy := regionInUse s p.val t.tile
        if busy = true ∧ q.policy.maint = false then ends (.redfishSelftest p t) .conflict id
        else ends (.redfishSelftest p t) .done fun s => { s with parts := mmod {} s.parts p.val fun q => { q with
          tickets := q.tickets ++ [{ num := q.nextTicket, test := t.test.val, tile := t.tile, state := b2n busy, operator := true }]
          nextTicket := q.nextTicket + 1 } }) ∧
      (if Config.certKey bs = fixBytes 1312 (Config.devidPk s.boot.fuses.idseed) then
          ends (.devidCertWrite bs) .done fun s => { s with boot := { s.boot with cert := bs } }
        else ends (.devidCertWrite bs) .rejected id))

/-- R398, R399, R404, R407, R408, R409, R410, R412, R435: firmware and resets. A verified image goes on trial in the slot
that is not active. A reset and a removal need a quiet device, or Force, which detaches every port first; a reset keeps
flash, fuses, history, the defect map and the partitions, and loses the rest. COMMIT_VERSION blows the lowest anti-rollback
bits until their count is the running image's and empties a slot that lies below it. Recovery installs a verified image in
both slots and gives its status. Model's choices: log entries 85, 86, 112. -/
def Obligations.OperatorResets : Prop :=
  ∀ (s : State) (img : List Byte) (force : Bool),
    let v := verifyImage s.boot.fuses.pkhash (popcount s.boot.fuses.svnfuse.toNat 64) img
    let refused := fun (i : Instr) (a : MgmtOut) => exec i s = .next { s with mgmt := s.mgmt ++ [a] }
    let kept := fun (s' : State) => s'.defects = s.defects ∧ s'.cycle = s.cycle ∧ s'.mgmt = s.mgmt ++ [.done] ∧
      s'.tiles = [] ∧ s'.stk = {} ∧ s'.spines = []
    (inService s = true →
      let b := s.boot
      let act := (bootRec b).active
      (v ≠ 0 → refused (.firmwareUpdate img) .rejected) ∧
      (v = 0 → (bootRec b).seq.toNat < 2 ^ 32 - 1 → ∃ s', exec (.firmwareUpdate img) s = .next s' ∧
        s' = { s with boot := s'.boot, mgmt := s.mgmt ++ [.done] } ∧
        slotOf s'.boot (!act) = img ∧ slotOf s'.boot act = slotOf b act ∧
        (bootRec s'.boot).active = act ∧ (bootRec s'.boot).pending = true ∧ (bootRec s'.boot).tries = 1) ∧
      (deviceQuiet s = false → refused (.computerSystemReset false) .conflict ∧ refused (.prepareRemoval false) .conflict) ∧
      (deviceQuiet s = true ∨ (force = true ∧ NoDetach s ∧ (∀ o < 4, (getPort s o).filter = []) ∧
          mwf {} s.ports = true ∧ mwf {} s.parts = true) →
        (∃ s', exec (.computerSystemReset force) s = .next s' ∧ kept s' ∧ s'.boot.phase = .aux ∧
          s'.module_.mainOn = false ∧ s'.boot.slotA = b.slotA ∧ s'.boot.slotB = b.slotB ∧
          s'.boot.fuses = { b.fuses with seedLocked := false } ∧ (∀ h ∈ s.sage.history, h ∈ s'.sage.history) ∧
          (∀ k < 4, (getPart s' k).set_ = (getPart s k).set_ ∧ ((getPart s k).set_ = true →
            (getPart s' k).lo = (getPart s k).lo ∧ (getPart s' k).hi = (getPart s k).hi ∧
            (getPart s' k).port = (getPart s k).port ∧ (getPart s' k).policy = (getPart s k).policy)) ∧
          ∀ o < 4, (getPort s' o).up = false ∧ (getPort s' o).st = .detached) ∧
        (∃ s', exec (.prepareRemoval force) s = .next s' ∧ kept s' ∧ s'.boot.phase = .prepared ∧
          s'.module_.mainOn = false ∧ s'.module_.safe = true ∧ HistItem.counters s.sage.life ∈ s'.sage.history)) ∧
      (b.latch.boot = .normal → b.latch.trial = false → popcount b.fuses.svnfuse.toNat 64 < b.latch.svn → b.latch.svn ≤ 64 →
        ∃ s', exec .commitVersion s = .next s' ∧ s' = { s with boot := s'.boot, mgmt := s.mgmt ++ [.done] } ∧
          popcount s'.boot.fuses.svnfuse.toNat 64 = b.latch.svn ∧
          s'.boot.fuses.svnfuse &&& b.fuses.svnfuse = b.fuses.svnfuse ∧
          slotOf s'.boot b.latch.slot = slotOf b b.latch.slot ∧
          slotOf s'.boot (!b.latch.slot) =
            if imSvn (slotOf b (!b.latch.slot)) < b.latch.svn then [] else slotOf b (!b.latch.slot)) ∧
      (b.latch.boot ≠ .normal ∨ b.latch.trial = true ∨ b.latch.svn ≤ popcount b.fuses.svnfuse.toNat 64 →
        refused .commitVersion .conflict) ∧
      (∃ s', exec .enterRecovery s = .next s' ∧ kept s' ∧ s'.boot.phase = .recovery ∧
        s'.boot.fuses = { b.fuses with seedLocked := true } ∧ s'.module_.mainOn = false)) ∧
    (s.boot.phase = .recovery →
      (v ≠ 0 → exec (.recoveryImagePut img) s = .next { s with
        boot := { s.boot with rcv := none }, mgmt := s.mgmt ++ [.rejected] }) ∧
      (v = 0 → ∃ s', exec (.recoveryImagePut img) s = .next s' ∧ kept s' ∧ s'.boot.phase = .aux ∧ s'.boot.slotA = img ∧
        s'.boot.slotB = img ∧ s'.boot.rcv = none) ∧
      refused .recoveryStatusGet (.status s.boot.event (some (s.boot.reasonA, s.boot.reasonB)))) ∧
    (s.boot.phase = .romHold → refused .recoveryStatusGet (.status s.boot.event none))

/-- R395, R400, R403, R404, R405, R407, R408, R411, R417, R422, R425: pins, supplies and start-up. Insertion starts the
auxiliary supply and is counted; its loss takes every power, and the counters fall back to history. The boot ROM runs the
first slot that verifies, or recovery. Main power opens when every condition of R422 holds, and start-up runs through
release, every partition IDLE or, with a column out, FAULTED. EPO# and the flow interlock open the main path and stay. A
lockstep mismatch latches its record and takes the FATAL path. Model's choices: log entries 81, 85, 88, 117, 119, 121. -/
def Obligations.StartUp : Prop :=
  ∀ (s : State),
    let m := s.module_
    let lost := fun (s' : State) => s'.tiles = [] ∧ s'.spines = [] ∧ s'.stk = {} ∧ s'.issued = [] ∧ s'.resps = []
    (m.present = false → exec .chPrsntLow s = .next { s with
      module_ := { m with present := true }, boot := { s.boot with phase := .aux }
      sage := { s.sage with life := mmod 0 s.sage.life lifeInsertions fun v => min (v + 1) (2 ^ 64 - 1) } }) ∧
    (m.present = true → ∃ s', exec .chPrsntHigh s = .next s' ∧ lost s' ∧ s'.boot.phase = .off ∧
      s'.module_.present = false ∧ s'.module_.auxOn = false ∧ s'.module_.mainOn = false ∧ s'.defects = s.defects ∧
      s'.sage.history = s.sage.history ∧ s'.sage.life = historyLife s ∧ s'.boot.slotA = s.boot.slotA ∧
      s'.boot.slotB = s.boot.slotB) ∧
    (m.present = true → s.boot.phase = .aux → (bootRec s.boot).pending = false →
      let act := (bootRec s.boot).active
      let good := fun (x : Bool) => verify s (slotOf s.boot x) = 0
      ∃ s', exec (.auxPowerStable {}) s = .next s' ∧ s'.module_.auxOn = true ∧ s'.boot.fuses.seedLocked = true ∧
        s'.tiles = s.tiles ∧ s'.cycle = s.cycle ∧
        (good act → s'.boot.phase = .waitMain ∧ s'.boot.latch.slot = act ∧ s'.boot.latch.boot = .normal ∧
          s'.module_.wantMain = true) ∧
        (¬ good act → good (!act) → s'.boot.phase = .waitMain ∧ s'.boot.latch.slot = (!act) ∧
          s'.boot.latch.boot = .fallback ∧ s'.module_.wantMain = true) ∧
        (¬ good act → ¬ good (!act) → s'.boot.phase = .recovery ∧ s'.boot.event.isSome = true ∧
          s'.module_.wantMain = m.wantMain)) ∧
    (s.boot.phase = .waitMain → m.auxOn = true → m.wantMain = true → m.flowOk = true → m.flowLatched = false →
      m.epoLatched = false → (∀ o < 4, (getPort s o).waiting = none) → mwf {} s.parts = true → mwf {} s.ports = true →
      mwf {} s.spines = true →
      ∃ s', exec (.mainPowerEnable {}) s = .next s' ∧ s'.boot.phase = .released ∧ s'.module_.mainOn = true ∧
        s'.stk = {} ∧ s'.defects = s.defects ∧ s'.cycle = s.cycle ∧
        (∀ k < 4, (getPart s k).set_ = true → (getPart s' k).st =
          if (mapDead s ++ s.boot.fuseDead).any fun i => decide ((getPart s k).lo ≤ i ∧ i ≤ (getPart s k).hi)
          then .faulted else .idle) ∧
        (∀ o < 4, (getPort s' o).st = if (getPort s o).up then .attached else (getPort s o).st) ∧
        ∀ n < 48, ∀ k < 2, (if k = 0 then (getSpine s' n).up0 else (getSpine s' n).up1) = true ↔
          ∀ d ∈ s.defects, ¬ (d.kind = 5 ∧ d.die = n ∧ d.stack = k)) ∧
    (m.auxOn = true → m.mainOn = true → ∃ s', exec .epoAssert s = .next s' ∧ lost s' ∧ s'.module_ =
        { m with mainOn := false, epoHigh := false, epoLatched := true } ∧ s'.parts = s.parts ∧
      s'.sage.ev = if sageRuns s then raisePort s.sage.ev (mkEv .supplyFault 0 1 s.cycle) else s.sage.ev) ∧
    (m.auxOn = true → m.flowLatched = false → exec .flowInterlockClose s = .next { s with
      module_ := { m with flowOk := true } }) ∧
    (m.flowOk = true → ∃ s', exec .flowInterlockOpen s = .next s' ∧ s'.module_ =
        { m with flowOk := false, flowLatched := true, mainOn := false } ∧ s'.parts = s.parts ∧
      (m.mainOn = true → lost s' ∧ ((∀ e ∈ s.sage.ev.q, e.code ≠ .coolantLow) →
        s'.sage.ev = raisePort s.sage.ev (mkEv .coolantLow 0 2 s.cycle))) ∧
      (m.mainOn = false → s'.sage = s.sage ∧ s'.tiles = s.tiles)) ∧
    (inService s = true → mwf {} s.parts = true →
      (∀ a, exec (.sageLockstep (.sramSingle a)) s = .next { s with sage := { s.sage with
        ev := raisePort s.sage.ev (mkEv .sageSramCorrected 0 0 s.cycle) } }) ∧
      (∀ c detail, (c = .mismatch ∧ detail = 0) ∨ (∃ a, c = .sramDouble a ∧ detail = 2 ^ 63 + a % 2 ^ 23) →
        s.boot.lockAt = [] → ∃ s' r, exec (.sageLockstep c) s = .next s' ∧ s'.boot.event = some r ∧
          recCode r = evNum .sageLockstep ∧ fld r.toNat 192 64 = detail ∧ s'.boot.lockAt = [s.cycle] ∧
          s'.boot.phase = s.boot.phase ∧ s'.module_.alert = true ∧ s'.sage.ev = {} ∧ s'.tiles = s.tiles ∧
          ∀ k < 4, (getPart s k).set_ = true → (getPart s' k).st = .faulted ∧ (getPart s' k).sw = none ∧
            (getPart s' k).wave = some s.cycle))

/-! ## Power, clocks and heat (R360, R365-R390) -/

/-- R360, R366, R374, R377, R378, R383, R387, R325: the management tick of a released device. It ends at the next multiple
of 900,000 cycles. Meters and sensors are taken as read; the effective cap and floor move toward their settings by at most a
step; every partition's lv, u, f and k_p follow R377 from the power metered; the thermal level of a quadrant follows its
sensors and its droop level the stretched share; and a port with new records sends vector 1 once. A tick in which a
maintenance window may end completes as well. Model's choices: log entries 76, 93, 110, 124, 152. -/
def Obligations.ManagementTick : Prop :=
  (∀ (s : State) (m : Meters), ∃ s', exec (.managementTick m) s = .next s') ∧
  ∀ (s : State) (m : Meters), s.module_.auxOn = true → s.boot.phase = .released → mwf {} s.parts = true →
    mwf {} s.ports = true → mwf {} s.power.dom = true → mwf 0 s.power.tele.temps = true →
    (∀ p < 4, ∀ c, switchAt s p ≠ some (.test c)) → ∃ s', exec (.managementTick m) s = .next s' ∧ s'.cycle = (s.cycle / 900000 + 1) * 900000 ∧
      s'.stk = s.stk ∧ s'.defects = s.defects ∧ s'.boot = s.boot ∧
      s'.sage.collector = (s.sage.collector && m.collector) ∧
      (let t := s'.power.tele;
        t.pin = m.pin ∧ t.tin = m.tin ∧ t.tout = m.tout ∧ t.flow = m.flow ∧
        t.pcool = coolantLimit (heatCap s.power.capo m.tin m.tout) m.flow m.tin) ∧
      (∀ d < 390, (getDom s' d).watts =
          ((m.dom.reverse.find? fun x => decide (x.1 = d)).map (·.2)).getD (getDom s d).watts ∧
        mget 0 s'.power.tele.temps d =
          ((m.temps.reverse.find? fun x => decide (x.1 = d)).map (·.2)).getD (mget 0 s.power.tele.temps d)) ∧
      (let old := s.power.capo;
        let new := s'.power.capo;
        new = { old with capE := new.capE, floorE := new.floorE } ∧
        new.capE = approach (old.cap * 160000) (old.ramp * 8) old.capE ∧
        new.floorE = approach (old.floor * 160000) (old.ramp * 8) old.floorE) ∧
      (∀ k < 192, mget 16 s'.power.quads.kt k =
          (if mget 0 s.power.quads.tripped k ≠ 0 then 0 else quadThermal s'.power.tele.temps (k / 4) (k % 4)) ∧
        (let a := stretchCount (mget [] s.power.quads.spans k) (s.cycle - s.cycle % 900000) s'.cycle;
          let v := mget 16 s.power.quads.kd k;
          mget 16 s'.power.quads.kd k =
            if a.2 < 100 * a.1 then v - 2 else if 1000 * a.1 < a.2 then min 16 (v + 1) else v)) ∧
      (∀ p < 4, (getPart s p).set_ = true →
        let q := getPart s p
        let r := getPart s' p
        let w := q.hi + 1 - q.lo
        let d := s.power.capo.ramp * w
        let pb := bandWatts s' q * 16000
        r.pband = pb ∧ r.gap = inGap q ∧ r.dlNow = q.policy.dlticks ∧ r.wrote = false ∧ r.st = q.st ∧
        r.lv = (if q.kp < 16 ∧ inGap q = false then min (q.lv + d) q.u else min (max pb (q.lv - d)) (q.lv + d)) ∧
        r.f = min r.u (min (max ((s'.power.capo.floorE - 32000000) * w / 8) (r.lv - d)) (r.lv + d)) ∧
        r.kp = (if r.u < pb then min (q.kp - 1) (q.kp * r.u / pb) else if 100 * pb < 99 * r.u then min 16 (q.kp + 1)
          else q.kp) ∧
        (q.policy.hplim = 0 → r.hostE = none ∧ r.u = min (min ((s'.power.tele.pcool - 32000000) * w / 8)
          ((s'.power.capo.capE - 32000000) * w / 8)) (r.lv + d)) ∧
        (q.policy.hplim ≠ 0 → ∃ h, r.hostE = some h ∧ h = approach (q.policy.hplim * 1600000) d (q.hostE.getD q.u) ∧
          r.u = min (min (min ((s'.power.tele.pcool - 32000000) * w / 8) h)
            ((s'.power.capo.capE - 32000000) * w / 8)) (r.lv + d))) ∧
      ∀ o < 4, let sends := (getPort s o).evNew = true ∧ (getPort s o).up = true
        (getPort s' o).out = (getPort s o).out ++ (if sends then vecOut (getPort s o) 1 else []) ∧
        (getPort s' o).msixPend = if sends then vecPend (getPort s o) 1 else (getPort s o).msixPend

/-- R367, R368, R369, R370, R371, R384, R385, R388, R389: clocks, droop and heat. A node from OFF starts its clock root
after its switch has ramped, the root steps from /16 to /1 and back, and the node runs or is OFF. A droop trip opens its
span. A spine or stack at 95 degrees C takes the die's issue levels to 0 and raises THERMAL_TRIP, and stays powered unless
COOLANT_LOW is latched; a quadrant at 110 degrees C trips, starts down, and then joins the defect map with its partition
FAULTED. COOLANT_LOW turns every quadrant OFF, and a regulator fault its domain and those below it. Model's choices: log
entries 80, 108, 109, 113, 125, 166. -/
def Obligations.PowerAndHeat : Prop :=
  ∀ (s : State), mwf {} s.power.dom = true → mwf {} s.parts = true →
    let raised := fun (s' : State) (e : Ev) => s'.sage.ev = raisePort s.sage.ev e
    (∀ d, d < 390 →
      (∀ due, (getDom s d).ramp = .switch due → hasRoot d = true ∨ domInUse s d = true →
        ∃ s', exec (.powerSwitchRamp d) s = .next s' ∧ s'.cycle = max s.cycle due ∧ s'.parts = s.parts ∧
          getDom s' d = if hasRoot d then
              { getDom s d with st := .stopped, ramp := .divider true 0 (max s.cycle due + 18432) }
            else { getDom s d with st := .run, ramp := .none }) ∧
      (∀ up k due, (getDom s d).ramp = .divider up k due →
        let next := fun (j : Nat) => exec (.dividerRampStep d) s = .next { s with
          cycle := max s.cycle due, power := { s.power with dom := mmod {} s.power.dom d fun x =>
            { x with ramp := .divider up j (max s.cycle due + 18432) } } }
        (up = true → k < 4 → next (k + 1)) ∧ (up = false → 0 < k → next (k - 1)) ∧
        (up = true → k = 4 → domInUse s d = true → ∃ s', exec (.dividerRampStep d) s = .next s' ∧
          s'.cycle = max s.cycle due ∧ getDom s' d = { getDom s d with st := .run, ramp := .none } ∧ s'.parts = s.parts) ∧
        (up = false → k = 0 → domInUse s d = false → ∃ s', exec (.dividerRampStep d) s = .next s' ∧
          s'.cycle = max s.cycle due ∧ getDom s' d = { getDom s d with st := .off, ramp := .none } ∧
          s'.parts = s.parts))) ∧
    (∀ (d : Fin 48) (q : Fin 4) (k : Nat), k = 4 * d.val + q.val →
      (exec (.droopTrip d q) s = .next { s with power := { s.power with quads := { s.power.quads with
        spans := mmod [] s.power.quads.spans k fun l => l ++ [(s.cycle + 2, s.cycle + 16)] } } }) ∧
      (mget 0 s.power.quads.tripped k = 0 → (getDom s (8 * d.val + q.val)).st = .run →
        (getDom s (8 * d.val + q.val)).ramp = .none → mwf 0 s.power.quads.tripped = true →
        mwf 16 s.power.quads.kt = true → ∃ s', exec (.quadrantTrip d q) s = .next s' ∧
          mget 0 s'.power.quads.tripped k = s.cycle + 1 ∧ mget 16 s'.power.quads.kt k = 0 ∧
          (getDom s' (8 * d.val + q.val)).st = .run ∧ (getDom s' (8 * d.val + q.val)).ramp ≠ .none ∧
          raised s' { mkEv .thermalTrip q.val 0 s.cycle with
            part := if quadLoaded s d.val q.val then partOfDie s d.val else none, die := some d.val } ∧
          s'.parts = s.parts ∧ s'.cycle = s.cycle) ∧
      (mget 0 s.power.quads.tripped k ≠ 0 → mwf 0 s.power.quads.tripped = true →
        ∃ s', exec (.quadrantOff d q) s = .next s' ∧ mget 0 s'.power.quads.tripped k = 0 ∧
          ({ kind := 6, die := d.val, quad := q.val } : DefectRec) ∈ s'.defects ∧ (∀ r ∈ s.defects, r ∈ s'.defects) ∧
          raised s' { mkEv .quadrantOff q.val 0 s.cycle with part := partOfDie s d.val, die := some d.val } ∧
          (∀ p, partOfDie s d.val = some p → (getPart s' p).st = .faulted ∧ (getPart s' p).sw = none) ∧
          s'.tiles = s.tiles ∧ s'.cycle = s.cycle)) ∧
    (∀ dom temp, dom < 384 → 5 ≤ dom % 8 → 9500 ≤ temp → mwf 0 s.power.tele.temps = true →
      mwf 16 s.power.quads.kt = true → ∃ s', exec (.thermalTrip dom temp) s = .next s' ∧
        mget 0 s'.power.tele.temps dom = temp ∧ (∀ q < 4, mget 16 s'.power.quads.kt (4 * (dom / 8) + q) = 0) ∧
        raised s' { mkEv .thermalTrip (dom % 8) 0 s.cycle with part := partOfDie s (dom / 8), die := some (dom / 8) } ∧
        (coolantLost s = false → getDom s' dom = getDom s dom ∧ s'.stk = s.stk) ∧
        (coolantLost s = true → (getDom s' dom).st = .off) ∧
        (∀ p, partOfDie s (dom / 8) = some p → (getPart s' p).hot = true) ∧ s'.tiles = s.tiles ∧ s'.cycle = s.cycle) ∧
    (∀ c, ∃ s', exec (.coolantLow c) s = .next s' ∧ s'.module_.alert = true ∧ raised s' (mkEv .coolantLow 0 0 s.cycle) ∧
      (∀ n < 48, ∀ q < 4, (getDom s' (8 * n + q)).st = .off) ∧ s'.stk = s.stk ∧ s'.cycle = s.cycle) ∧
    (∀ d, d < 390 → ∃ s', exec (.supplyFault (.regulator d)) s = .next s' ∧ raised s' (mkEv .supplyFault 0 0 s.cycle) ∧
      (∀ x < 390, below d x = true → (getDom s' x).st = .off) ∧ s'.boot.offDoms = s.boot.offDoms ++ [d] ∧
      s'.parts = s.parts ∧ s'.cycle = s.cycle) ∧
    (∀ c, (∀ d, c ≠ .regulator d) → exec (.supplyFault c) s = .next { s with sage := { s.sage with
      ev := raisePort s.sage.ev (mkEv .supplyFault 0 0 s.cycle) } })
end

