-- ==== Sys2Proof/Decode.lean ====
section
/-!
DEFINITION. Decode: the commands that words spell. The table of operations and events gives no row any bits.
-/
namespace Sys2Proof

/-- The command a word spells by the table's bits: the table gives none. -/
def decodeTableWord (_nbits _w : Nat) : Option Instr := none

end Sys2Proof
end

