-- ==== Sys2Proof/Laws/Map.lean ====
section
/-!
SUPPORT. Laws/Map: the canonical form of a finite map: every write keeps it, and a read after a write.
-/
namespace Sys2Proof.Machine

theorem mwfFrom_mono {α : Type} [DecidableEq α] {d : α} {m : SMap α} {lo lo' : Nat} (h : lo' ≤ lo)
    (w : mwfFrom d lo m = true) : mwfFrom d lo' m = true := by
  cases m with
  | nil => rfl
  | cons p m =>
    simp only [mwfFrom, Bool.and_eq_true, decide_eq_true_eq] at w ⊢
    exact ⟨⟨le_trans h w.1.1, w.1.2⟩, w.2⟩

theorem mwfFrom_mset {α : Type} [DecidableEq α] {d : α} {m : SMap α} {lo k : Nat} {v : α} (hk : lo ≤ k)
    (w : mwfFrom d lo m = true) : mwfFrom d lo (mset d m k v) = true := by
  induction m generalizing lo with
  | nil =>
    unfold mset
    split
    · rfl
    · simp_all [mwfFrom]
  | cons p m ih =>
    obtain ⟨j, b⟩ := p
    simp only [mwfFrom, Bool.and_eq_true, decide_eq_true_eq] at w
    obtain ⟨⟨hj, hb⟩, hm⟩ := w
    unfold mset
    split_ifs with h1 h2 h3 h4
    · simp [mwfFrom, hj, hb, hm]
    · simp only [mwfFrom, Bool.and_eq_true, decide_eq_true_eq]
      exact ⟨⟨hk, h2⟩, ⟨h1, hb⟩, hm⟩
    · exact mwfFrom_mono (by omega) hm
    · subst h3
      simp [mwfFrom, hk, h4, hm]
    · simp only [mwfFrom, Bool.and_eq_true, decide_eq_true_eq]
      exact ⟨⟨hj, hb⟩, ih (by omega) hm⟩

/-- A write keeps the canonical form. -/
theorem mwf_mset {α : Type} [DecidableEq α] {d : α} {m : SMap α} {k : Nat} {v : α} (w : mwf d m = true) :
    mwf d (mset d m k v) = true := mwfFrom_mset (Nat.zero_le k) w

theorem mwf_mmod {α : Type} [DecidableEq α] {d : α} {m : SMap α} {k : Nat} {f : α → α} (w : mwf d m = true) :
    mwf d (mmod d m k f) = true := mwf_mset w

theorem mwf_msetAll {α : Type} [DecidableEq α] {d : α} {l : List (Nat × α)} {m : SMap α} (w : mwf d m = true) :
    mwf d (msetAll d m l) = true := by
  induction l generalizing m with
  | nil => exact w
  | cons p l ih => exact ih (mwf_mset w)

@[simp] theorem mwf_nil {α : Type} [DecidableEq α] {d : α} : mwf d [] = true := rfl

theorem mwfFrom_filter {α : Type} [DecidableEq α] {d : α} {m : SMap α} {lo : Nat} (q : Nat × α → Bool)
    (w : mwfFrom d lo m = true) : mwfFrom d lo (m.filter q) = true := by
  induction m generalizing lo with
  | nil => rfl
  | cons p m ih =>
    obtain ⟨j, b⟩ := p
    simp only [mwfFrom, Bool.and_eq_true, decide_eq_true_eq] at w
    obtain ⟨⟨hj, hb⟩, hm⟩ := w
    rw [List.filter_cons]
    split
    · simp only [mwfFrom, Bool.and_eq_true, decide_eq_true_eq]
      exact ⟨⟨hj, hb⟩, ih hm⟩
    · exact ih (mwfFrom_mono (by omega) hm)

/-- Leaving entries out keeps the canonical form. -/
theorem mwf_filter {α : Type} [DecidableEq α] {d : α} {m : SMap α} (q : Nat × α → Bool) (w : mwf d m = true) :
    mwf d (m.filter q) = true := mwfFrom_filter q w

theorem mget_of_lt {α : Type} [DecidableEq α] {d : α} {m : SMap α} {lo k : Nat} (w : mwfFrom d lo m = true) (h : k < lo) :
    mget d m k = d := by
  cases m with
  | nil => rfl
  | cons p m =>
    obtain ⟨j, b⟩ := p
    simp only [mwfFrom, Bool.and_eq_true, decide_eq_true_eq] at w
    have : k ≠ j := by omega
    have : k < j := by omega
    simp [mget, *]

theorem mget_mset_from {α : Type} [DecidableEq α] {d : α} {m : SMap α} {lo k : Nat} {v : α} (w : mwfFrom d lo m = true) :
    mget d (mset d m k v) k = v := by
  induction m generalizing lo with
  | nil => unfold mset; split <;> simp_all [mget]
  | cons p m ih =>
    obtain ⟨j, b⟩ := p
    simp only [mwfFrom, Bool.and_eq_true, decide_eq_true_eq] at w
    obtain ⟨⟨_, hb⟩, hm⟩ := w
    unfold mset
    split_ifs with h1 h2 h3 h4
    · have : k ≠ j := by omega
      simp [mget, h1, this, h2]
    · simp [mget]
    · subst h3 h4
      exact mget_of_lt hm (by omega)
    · simp [mget]
    · simp [mget, h1, h3, ih hm]

/-- A read at the key just written gives the value written. -/
theorem mget_mset {α : Type} [DecidableEq α] {d : α} {m : SMap α} {k : Nat} {v : α} (w : mwf d m = true) :
    mget d (mset d m k v) k = v := mget_mset_from w

theorem mget_mset_ne_from {α : Type} [DecidableEq α] {d : α} {m : SMap α} {lo k k' : Nat} {v : α}
    (w : mwfFrom d lo m = true) (h : k' ≠ k) : mget d (mset d m k v) k' = mget d m k' := by
  induction m generalizing lo with
  | nil => unfold mset; split <;> simp [mget, h]
  | cons p m ih =>
    obtain ⟨j, b⟩ := p
    simp only [mwfFrom, Bool.and_eq_true, decide_eq_true_eq] at w
    obtain ⟨⟨_, hb⟩, hm⟩ := w
    unfold mset
    split_ifs with h1 h2 h3 h4
    · rfl
    · by_cases h' : k' < k
      · have : k' ≠ j := by omega
        have : k' < j := by omega
        simp [mget, h, h', *]
      · simp [mget, h, h']
    · subst h3
      by_cases h' : k' < k
      · rw [mget_of_lt hm (by omega)]; simp [mget, h, h']
      · simp [mget, h, h']
    · subst h3; simp [mget, h]
    · simp only [mget]
      rw [ih hm]

/-- A write leaves every other key alone. -/
theorem mget_mset_ne {α : Type} [DecidableEq α] {d : α} {m : SMap α} {k k' : Nat} {v : α} (w : mwf d m = true)
    (h : k' ≠ k) : mget d (mset d m k v) k' = mget d m k' := mget_mset_ne_from w h

theorem mget_mmod {α : Type} [DecidableEq α] {d : α} {m : SMap α} {k : Nat} {f : α → α} (w : mwf d m = true) :
    mget d (mmod d m k f) k = f (mget d m k) := mget_mset w

theorem mget_mmod_ne {α : Type} [DecidableEq α] {d : α} {m : SMap α} {k k' : Nat} {f : α → α} (w : mwf d m = true)
    (h : k' ≠ k) : mget d (mmod d m k f) k' = mget d m k' := mget_mset_ne w h

end Sys2Proof.Machine
end

