-- ==== Sys2Proof/Laws/State.lean ====
section
/-!
SUPPORT. Laws/State: what each update of the device does to each field, true by definition.
-/
namespace Sys2Proof.Machine

variable (s : State)

/-! ## setTile -/

@[simp] theorem setTile_grade (x y : Nat) (t : Tile) : (setTile s x y t).grade = s.grade := rfl
@[simp] theorem setTile_defects (x y : Nat) (t : Tile) : (setTile s x y t).defects = s.defects := rfl
@[simp] theorem setTile_tiles (x y : Nat) (t : Tile) :
    (setTile s x y t).tiles = mset {} s.tiles (tileKey x y) t := rfl
@[simp] theorem setTile_spines (x y : Nat) (t : Tile) : (setTile s x y t).spines = s.spines := rfl
@[simp] theorem setTile_stk (x y : Nat) (t : Tile) : (setTile s x y t).stk = s.stk := rfl
@[simp] theorem setTile_power (x y : Nat) (t : Tile) : (setTile s x y t).power = s.power := rfl
@[simp] theorem setTile_parts (x y : Nat) (t : Tile) : (setTile s x y t).parts = s.parts := rfl
@[simp] theorem setTile_ports (x y : Nat) (t : Tile) : (setTile s x y t).ports = s.ports := rfl
@[simp] theorem setTile_wires (x y : Nat) (t : Tile) : (setTile s x y t).wires = s.wires := rfl
@[simp] theorem setTile_sage (x y : Nat) (t : Tile) : (setTile s x y t).sage = s.sage := rfl
@[simp] theorem setTile_boot (x y : Nat) (t : Tile) : (setTile s x y t).boot = s.boot := rfl
@[simp] theorem setTile_module_ (x y : Nat) (t : Tile) : (setTile s x y t).module_ = s.module_ := rfl
@[simp] theorem setTile_issued (x y : Nat) (t : Tile) : (setTile s x y t).issued = s.issued := rfl
@[simp] theorem setTile_resps (x y : Nat) (t : Tile) : (setTile s x y t).resps = s.resps := rfl
@[simp] theorem setTile_asked (x y : Nat) (t : Tile) : (setTile s x y t).asked = s.asked := rfl
@[simp] theorem setTile_afterDetach (x y : Nat) (t : Tile) : (setTile s x y t).afterDetach = s.afterDetach := rfl
@[simp] theorem setTile_mgmt (x y : Nat) (t : Tile) : (setTile s x y t).mgmt = s.mgmt := rfl
@[simp] theorem setTile_pktSeq (x y : Nat) (t : Tile) : (setTile s x y t).pktSeq = s.pktSeq := rfl
@[simp] theorem setTile_cycle (x y : Nat) (t : Tile) : (setTile s x y t).cycle = s.cycle := rfl
@[simp] theorem setTile_pending (x y : Nat) (t : Tile) : (setTile s x y t).pending = s.pending := rfl

/-! ## modTile -/

@[simp] theorem modTile_grade (x y : Nat) (f : Tile → Tile) : (modTile s x y f).grade = s.grade := rfl
@[simp] theorem modTile_defects (x y : Nat) (f : Tile → Tile) : (modTile s x y f).defects = s.defects := rfl
@[simp] theorem modTile_tiles (x y : Nat) (f : Tile → Tile) :
    (modTile s x y f).tiles = mset {} s.tiles (tileKey x y) (f (getTile s x y)) := rfl
@[simp] theorem modTile_spines (x y : Nat) (f : Tile → Tile) : (modTile s x y f).spines = s.spines := rfl
@[simp] theorem modTile_stk (x y : Nat) (f : Tile → Tile) : (modTile s x y f).stk = s.stk := rfl
@[simp] theorem modTile_power (x y : Nat) (f : Tile → Tile) : (modTile s x y f).power = s.power := rfl
@[simp] theorem modTile_parts (x y : Nat) (f : Tile → Tile) : (modTile s x y f).parts = s.parts := rfl
@[simp] theorem modTile_ports (x y : Nat) (f : Tile → Tile) : (modTile s x y f).ports = s.ports := rfl
@[simp] theorem modTile_wires (x y : Nat) (f : Tile → Tile) : (modTile s x y f).wires = s.wires := rfl
@[simp] theorem modTile_sage (x y : Nat) (f : Tile → Tile) : (modTile s x y f).sage = s.sage := rfl
@[simp] theorem modTile_boot (x y : Nat) (f : Tile → Tile) : (modTile s x y f).boot = s.boot := rfl
@[simp] theorem modTile_module_ (x y : Nat) (f : Tile → Tile) : (modTile s x y f).module_ = s.module_ := rfl
@[simp] theorem modTile_issued (x y : Nat) (f : Tile → Tile) : (modTile s x y f).issued = s.issued := rfl
@[simp] theorem modTile_resps (x y : Nat) (f : Tile → Tile) : (modTile s x y f).resps = s.resps := rfl
@[simp] theorem modTile_asked (x y : Nat) (f : Tile → Tile) : (modTile s x y f).asked = s.asked := rfl
@[simp] theorem modTile_afterDetach (x y : Nat) (f : Tile → Tile) :
    (modTile s x y f).afterDetach = s.afterDetach := rfl
@[simp] theorem modTile_mgmt (x y : Nat) (f : Tile → Tile) : (modTile s x y f).mgmt = s.mgmt := rfl
@[simp] theorem modTile_pktSeq (x y : Nat) (f : Tile → Tile) : (modTile s x y f).pktSeq = s.pktSeq := rfl
@[simp] theorem modTile_cycle (x y : Nat) (f : Tile → Tile) : (modTile s x y f).cycle = s.cycle := rfl
@[simp] theorem modTile_pending (x y : Nat) (f : Tile → Tile) : (modTile s x y f).pending = s.pending := rfl

/-! ## advanceTo -/

@[simp] theorem advanceTo_grade (c : Nat) : (advanceTo s c).grade = s.grade := rfl
@[simp] theorem advanceTo_defects (c : Nat) : (advanceTo s c).defects = s.defects := rfl
@[simp] theorem advanceTo_tiles (c : Nat) : (advanceTo s c).tiles = s.tiles := rfl
@[simp] theorem advanceTo_spines (c : Nat) : (advanceTo s c).spines = s.spines := rfl
@[simp] theorem advanceTo_stk (c : Nat) : (advanceTo s c).stk = s.stk := rfl
@[simp] theorem advanceTo_power (c : Nat) : (advanceTo s c).power = s.power := rfl
@[simp] theorem advanceTo_parts (c : Nat) : (advanceTo s c).parts = s.parts := rfl
@[simp] theorem advanceTo_ports (c : Nat) : (advanceTo s c).ports = s.ports := rfl
@[simp] theorem advanceTo_wires (c : Nat) : (advanceTo s c).wires = s.wires := rfl
@[simp] theorem advanceTo_sage (c : Nat) : (advanceTo s c).sage = s.sage := rfl
@[simp] theorem advanceTo_boot (c : Nat) : (advanceTo s c).boot = s.boot := rfl
@[simp] theorem advanceTo_module_ (c : Nat) : (advanceTo s c).module_ = s.module_ := rfl
@[simp] theorem advanceTo_issued (c : Nat) : (advanceTo s c).issued = s.issued := rfl
@[simp] theorem advanceTo_resps (c : Nat) : (advanceTo s c).resps = s.resps := rfl
@[simp] theorem advanceTo_asked (c : Nat) : (advanceTo s c).asked = s.asked := rfl
@[simp] theorem advanceTo_afterDetach (c : Nat) : (advanceTo s c).afterDetach = s.afterDetach := rfl
@[simp] theorem advanceTo_mgmt (c : Nat) : (advanceTo s c).mgmt = s.mgmt := rfl
@[simp] theorem advanceTo_pktSeq (c : Nat) : (advanceTo s c).pktSeq = s.pktSeq := rfl
@[simp] theorem advanceTo_cycle (c : Nat) :
    (advanceTo s c).cycle = max s.cycle c := rfl
@[simp] theorem advanceTo_pending (c : Nat) : (advanceTo s c).pending = s.pending := rfl

/-! ## modPart -/

@[simp] theorem modPart_grade (p : Nat) (f : Partition → Partition) : (modPart s p f).grade = s.grade := rfl
@[simp] theorem modPart_defects (p : Nat) (f : Partition → Partition) : (modPart s p f).defects = s.defects := rfl
@[simp] theorem modPart_tiles (p : Nat) (f : Partition → Partition) : (modPart s p f).tiles = s.tiles := rfl
@[simp] theorem modPart_spines (p : Nat) (f : Partition → Partition) : (modPart s p f).spines = s.spines := rfl
@[simp] theorem modPart_stk (p : Nat) (f : Partition → Partition) : (modPart s p f).stk = s.stk := rfl
@[simp] theorem modPart_power (p : Nat) (f : Partition → Partition) : (modPart s p f).power = s.power := rfl
@[simp] theorem modPart_parts (p : Nat) (f : Partition → Partition) :
    (modPart s p f).parts = mmod {} s.parts p f := rfl
@[simp] theorem modPart_ports (p : Nat) (f : Partition → Partition) : (modPart s p f).ports = s.ports := rfl
@[simp] theorem modPart_wires (p : Nat) (f : Partition → Partition) : (modPart s p f).wires = s.wires := rfl
@[simp] theorem modPart_sage (p : Nat) (f : Partition → Partition) : (modPart s p f).sage = s.sage := rfl
@[simp] theorem modPart_boot (p : Nat) (f : Partition → Partition) : (modPart s p f).boot = s.boot := rfl
@[simp] theorem modPart_module_ (p : Nat) (f : Partition → Partition) : (modPart s p f).module_ = s.module_ := rfl
@[simp] theorem modPart_issued (p : Nat) (f : Partition → Partition) : (modPart s p f).issued = s.issued := rfl
@[simp] theorem modPart_resps (p : Nat) (f : Partition → Partition) : (modPart s p f).resps = s.resps := rfl
@[simp] theorem modPart_asked (p : Nat) (f : Partition → Partition) : (modPart s p f).asked = s.asked := rfl
@[simp] theorem modPart_afterDetach (p : Nat) (f : Partition → Partition) :
    (modPart s p f).afterDetach = s.afterDetach := rfl
@[simp] theorem modPart_mgmt (p : Nat) (f : Partition → Partition) : (modPart s p f).mgmt = s.mgmt := rfl
@[simp] theorem modPart_pktSeq (p : Nat) (f : Partition → Partition) : (modPart s p f).pktSeq = s.pktSeq := rfl
@[simp] theorem modPart_cycle (p : Nat) (f : Partition → Partition) : (modPart s p f).cycle = s.cycle := rfl
@[simp] theorem modPart_pending (p : Nat) (f : Partition → Partition) : (modPart s p f).pending = s.pending := rfl

/-! ## modPort -/

@[simp] theorem modPort_grade (o : Nat) (f : Port → Port) : (modPort s o f).grade = s.grade := rfl
@[simp] theorem modPort_defects (o : Nat) (f : Port → Port) : (modPort s o f).defects = s.defects := rfl
@[simp] theorem modPort_tiles (o : Nat) (f : Port → Port) : (modPort s o f).tiles = s.tiles := rfl
@[simp] theorem modPort_spines (o : Nat) (f : Port → Port) : (modPort s o f).spines = s.spines := rfl
@[simp] theorem modPort_stk (o : Nat) (f : Port → Port) : (modPort s o f).stk = s.stk := rfl
@[simp] theorem modPort_power (o : Nat) (f : Port → Port) : (modPort s o f).power = s.power := rfl
@[simp] theorem modPort_parts (o : Nat) (f : Port → Port) : (modPort s o f).parts = s.parts := rfl
@[simp] theorem modPort_ports (o : Nat) (f : Port → Port) :
    (modPort s o f).ports = mmod {} s.ports o f := rfl
@[simp] theorem modPort_wires (o : Nat) (f : Port → Port) : (modPort s o f).wires = s.wires := rfl
@[simp] theorem modPort_sage (o : Nat) (f : Port → Port) : (modPort s o f).sage = s.sage := rfl
@[simp] theorem modPort_boot (o : Nat) (f : Port → Port) : (modPort s o f).boot = s.boot := rfl
@[simp] theorem modPort_module_ (o : Nat) (f : Port → Port) : (modPort s o f).module_ = s.module_ := rfl
@[simp] theorem modPort_issued (o : Nat) (f : Port → Port) : (modPort s o f).issued = s.issued := rfl
@[simp] theorem modPort_resps (o : Nat) (f : Port → Port) : (modPort s o f).resps = s.resps := rfl
@[simp] theorem modPort_asked (o : Nat) (f : Port → Port) : (modPort s o f).asked = s.asked := rfl
@[simp] theorem modPort_afterDetach (o : Nat) (f : Port → Port) : (modPort s o f).afterDetach = s.afterDetach := rfl
@[simp] theorem modPort_mgmt (o : Nat) (f : Port → Port) : (modPort s o f).mgmt = s.mgmt := rfl
@[simp] theorem modPort_pktSeq (o : Nat) (f : Port → Port) : (modPort s o f).pktSeq = s.pktSeq := rfl
@[simp] theorem modPort_cycle (o : Nat) (f : Port → Port) : (modPort s o f).cycle = s.cycle := rfl
@[simp] theorem modPort_pending (o : Nat) (f : Port → Port) : (modPort s o f).pending = s.pending := rfl

/-! ## modSpine -/

@[simp] theorem modSpine_grade (n : Nat) (f : Spine → Spine) : (modSpine s n f).grade = s.grade := rfl
@[simp] theorem modSpine_defects (n : Nat) (f : Spine → Spine) : (modSpine s n f).defects = s.defects := rfl
@[simp] theorem modSpine_tiles (n : Nat) (f : Spine → Spine) : (modSpine s n f).tiles = s.tiles := rfl
@[simp] theorem modSpine_spines (n : Nat) (f : Spine → Spine) :
    (modSpine s n f).spines = mmod {} s.spines n f := rfl
@[simp] theorem modSpine_stk (n : Nat) (f : Spine → Spine) : (modSpine s n f).stk = s.stk := rfl
@[simp] theorem modSpine_power (n : Nat) (f : Spine → Spine) : (modSpine s n f).power = s.power := rfl
@[simp] theorem modSpine_parts (n : Nat) (f : Spine → Spine) : (modSpine s n f).parts = s.parts := rfl
@[simp] theorem modSpine_ports (n : Nat) (f : Spine → Spine) : (modSpine s n f).ports = s.ports := rfl
@[simp] theorem modSpine_wires (n : Nat) (f : Spine → Spine) : (modSpine s n f).wires = s.wires := rfl
@[simp] theorem modSpine_sage (n : Nat) (f : Spine → Spine) : (modSpine s n f).sage = s.sage := rfl
@[simp] theorem modSpine_boot (n : Nat) (f : Spine → Spine) : (modSpine s n f).boot = s.boot := rfl
@[simp] theorem modSpine_module_ (n : Nat) (f : Spine → Spine) : (modSpine s n f).module_ = s.module_ := rfl
@[simp] theorem modSpine_issued (n : Nat) (f : Spine → Spine) : (modSpine s n f).issued = s.issued := rfl
@[simp] theorem modSpine_resps (n : Nat) (f : Spine → Spine) : (modSpine s n f).resps = s.resps := rfl
@[simp] theorem modSpine_asked (n : Nat) (f : Spine → Spine) : (modSpine s n f).asked = s.asked := rfl
@[simp] theorem modSpine_afterDetach (n : Nat) (f : Spine → Spine) :
    (modSpine s n f).afterDetach = s.afterDetach := rfl
@[simp] theorem modSpine_mgmt (n : Nat) (f : Spine → Spine) : (modSpine s n f).mgmt = s.mgmt := rfl
@[simp] theorem modSpine_pktSeq (n : Nat) (f : Spine → Spine) : (modSpine s n f).pktSeq = s.pktSeq := rfl
@[simp] theorem modSpine_cycle (n : Nat) (f : Spine → Spine) : (modSpine s n f).cycle = s.cycle := rfl
@[simp] theorem modSpine_pending (n : Nat) (f : Spine → Spine) : (modSpine s n f).pending = s.pending := rfl

/-! ## startWave -/

@[simp] theorem startWave_grade (p : Nat) : (startWave s p).grade = s.grade := rfl
@[simp] theorem startWave_defects (p : Nat) : (startWave s p).defects = s.defects := rfl
@[simp] theorem startWave_tiles (p : Nat) : (startWave s p).tiles = s.tiles := rfl
@[simp] theorem startWave_spines (p : Nat) : (startWave s p).spines = s.spines := rfl
@[simp] theorem startWave_stk (p : Nat) : (startWave s p).stk = s.stk := rfl
@[simp] theorem startWave_power (p : Nat) : (startWave s p).power = s.power := rfl
@[simp] theorem startWave_parts (p : Nat) :
    (startWave s p).parts = mmod {} s.parts p fun q => { q with wave := some s.cycle } := rfl
@[simp] theorem startWave_ports (p : Nat) : (startWave s p).ports = s.ports := rfl
@[simp] theorem startWave_wires (p : Nat) : (startWave s p).wires = s.wires := rfl
@[simp] theorem startWave_sage (p : Nat) : (startWave s p).sage = s.sage := rfl
@[simp] theorem startWave_boot (p : Nat) : (startWave s p).boot = s.boot := rfl
@[simp] theorem startWave_module_ (p : Nat) : (startWave s p).module_ = s.module_ := rfl
@[simp] theorem startWave_issued (p : Nat) : (startWave s p).issued = s.issued := rfl
@[simp] theorem startWave_resps (p : Nat) : (startWave s p).resps = s.resps := rfl
@[simp] theorem startWave_asked (p : Nat) : (startWave s p).asked = s.asked := rfl
@[simp] theorem startWave_afterDetach (p : Nat) : (startWave s p).afterDetach = s.afterDetach := rfl
@[simp] theorem startWave_mgmt (p : Nat) : (startWave s p).mgmt = s.mgmt := rfl
@[simp] theorem startWave_pktSeq (p : Nat) : (startWave s p).pktSeq = s.pktSeq := rfl
@[simp] theorem startWave_cycle (p : Nat) : (startWave s p).cycle = s.cycle := rfl
@[simp] theorem startWave_pending (p : Nat) : (startWave s p).pending = s.pending := rfl

/-! ## sageRaise -/

@[simp] theorem sageRaise_grade (e : Ev) : (sageRaise s e).grade = s.grade := rfl
@[simp] theorem sageRaise_defects (e : Ev) : (sageRaise s e).defects = s.defects := rfl
@[simp] theorem sageRaise_tiles (e : Ev) : (sageRaise s e).tiles = s.tiles := rfl
@[simp] theorem sageRaise_spines (e : Ev) : (sageRaise s e).spines = s.spines := rfl
@[simp] theorem sageRaise_stk (e : Ev) : (sageRaise s e).stk = s.stk := rfl
@[simp] theorem sageRaise_power (e : Ev) : (sageRaise s e).power = s.power := rfl
@[simp] theorem sageRaise_parts (e : Ev) : (sageRaise s e).parts = s.parts := rfl
@[simp] theorem sageRaise_ports (e : Ev) : (sageRaise s e).ports = s.ports := rfl
@[simp] theorem sageRaise_wires (e : Ev) : (sageRaise s e).wires = s.wires := rfl
@[simp] theorem sageRaise_sage (e : Ev) :
    (sageRaise s e).sage = { s.sage with ev := raisePort s.sage.ev { e with cycle := s.cycle } } := rfl
@[simp] theorem sageRaise_boot (e : Ev) : (sageRaise s e).boot = s.boot := rfl
@[simp] theorem sageRaise_module_ (e : Ev) : (sageRaise s e).module_ = s.module_ := rfl
@[simp] theorem sageRaise_issued (e : Ev) : (sageRaise s e).issued = s.issued := rfl
@[simp] theorem sageRaise_resps (e : Ev) : (sageRaise s e).resps = s.resps := rfl
@[simp] theorem sageRaise_asked (e : Ev) : (sageRaise s e).asked = s.asked := rfl
@[simp] theorem sageRaise_afterDetach (e : Ev) : (sageRaise s e).afterDetach = s.afterDetach := rfl
@[simp] theorem sageRaise_mgmt (e : Ev) : (sageRaise s e).mgmt = s.mgmt := rfl
@[simp] theorem sageRaise_pktSeq (e : Ev) : (sageRaise s e).pktSeq = s.pktSeq := rfl
@[simp] theorem sageRaise_cycle (e : Ev) : (sageRaise s e).cycle = s.cycle := rfl
@[simp] theorem sageRaise_pending (e : Ev) : (sageRaise s e).pending = s.pending := rfl

/-! ## sageEvent -/

@[simp] theorem sageEvent_grade (c : EvCode) (sub detail : Nat) (p d : Option Nat) (t : Option (Nat × Nat)) :
    (sageEvent s c sub detail p d t).grade = s.grade := rfl
@[simp] theorem sageEvent_defects (c : EvCode) (sub detail : Nat) (p d : Option Nat) (t : Option (Nat × Nat)) :
    (sageEvent s c sub detail p d t).defects = s.defects := rfl
@[simp] theorem sageEvent_tiles (c : EvCode) (sub detail : Nat) (p d : Option Nat) (t : Option (Nat × Nat)) :
    (sageEvent s c sub detail p d t).tiles = s.tiles := rfl
@[simp] theorem sageEvent_spines (c : EvCode) (sub detail : Nat) (p d : Option Nat) (t : Option (Nat × Nat)) :
    (sageEvent s c sub detail p d t).spines = s.spines := rfl
@[simp] theorem sageEvent_stk (c : EvCode) (sub detail : Nat) (p d : Option Nat) (t : Option (Nat × Nat)) :
    (sageEvent s c sub detail p d t).stk = s.stk := rfl
@[simp] theorem sageEvent_power (c : EvCode) (sub detail : Nat) (p d : Option Nat) (t : Option (Nat × Nat)) :
    (sageEvent s c sub detail p d t).power = s.power := rfl
@[simp] theorem sageEvent_parts (c : EvCode) (sub detail : Nat) (p d : Option Nat) (t : Option (Nat × Nat)) :
    (sageEvent s c sub detail p d t).parts = s.parts := rfl
@[simp] theorem sageEvent_ports (c : EvCode) (sub detail : Nat) (p d : Option Nat) (t : Option (Nat × Nat)) :
    (sageEvent s c sub detail p d t).ports = s.ports := rfl
@[simp] theorem sageEvent_wires (c : EvCode) (sub detail : Nat) (p d : Option Nat) (t : Option (Nat × Nat)) :
    (sageEvent s c sub detail p d t).wires = s.wires := rfl
@[simp] theorem sageEvent_sage (c : EvCode) (sub detail : Nat) (p d : Option Nat) (t : Option (Nat × Nat)) :
    (sageEvent s c sub detail p d t).sage =
      { s.sage with ev := raisePort s.sage.ev { mkEv c sub detail s.cycle with part := p, die := d, tile := t } }
        := rfl
@[simp] theorem sageEvent_boot (c : EvCode) (sub detail : Nat) (p d : Option Nat) (t : Option (Nat × Nat)) :
    (sageEvent s c sub detail p d t).boot = s.boot := rfl
@[simp] theorem sageEvent_module_ (c : EvCode) (sub detail : Nat) (p d : Option Nat) (t : Option (Nat × Nat)) :
    (sageEvent s c sub detail p d t).module_ = s.module_ := rfl
@[simp] theorem sageEvent_issued (c : EvCode) (sub detail : Nat) (p d : Option Nat) (t : Option (Nat × Nat)) :
    (sageEvent s c sub detail p d t).issued = s.issued := rfl
@[simp] theorem sageEvent_resps (c : EvCode) (sub detail : Nat) (p d : Option Nat) (t : Option (Nat × Nat)) :
    (sageEvent s c sub detail p d t).resps = s.resps := rfl
@[simp] theorem sageEvent_afterDetach (c : EvCode) (sub detail : Nat) (p d : Option Nat) (t : Option (Nat × Nat)) :
    (sageEvent s c sub detail p d t).afterDetach = s.afterDetach := rfl
@[simp] theorem sageEvent_mgmt (c : EvCode) (sub detail : Nat) (p d : Option Nat) (t : Option (Nat × Nat)) :
    (sageEvent s c sub detail p d t).mgmt = s.mgmt := rfl
@[simp] theorem sageEvent_pktSeq (c : EvCode) (sub detail : Nat) (p d : Option Nat) (t : Option (Nat × Nat)) :
    (sageEvent s c sub detail p d t).pktSeq = s.pktSeq := rfl
@[simp] theorem sageEvent_cycle (c : EvCode) (sub detail : Nat) (p d : Option Nat) (t : Option (Nat × Nat)) :
    (sageEvent s c sub detail p d t).cycle = s.cycle := rfl
@[simp] theorem sageEvent_pending (c : EvCode) (sub detail : Nat) (p d : Option Nat) (t : Option (Nat × Nat)) :
    (sageEvent s c sub detail p d t).pending = s.pending := rfl

/-! ## modDom -/

@[simp] theorem modDom_grade (d : Nat) (f : Domain → Domain) : (modDom d f s).grade = s.grade := rfl
@[simp] theorem modDom_defects (d : Nat) (f : Domain → Domain) : (modDom d f s).defects = s.defects := rfl
@[simp] theorem modDom_tiles (d : Nat) (f : Domain → Domain) : (modDom d f s).tiles = s.tiles := rfl
@[simp] theorem modDom_spines (d : Nat) (f : Domain → Domain) : (modDom d f s).spines = s.spines := rfl
@[simp] theorem modDom_stk (d : Nat) (f : Domain → Domain) : (modDom d f s).stk = s.stk := rfl
@[simp] theorem modDom_power (d : Nat) (f : Domain → Domain) :
    (modDom d f s).power = { s.power with dom := mmod {} s.power.dom d f } := rfl
@[simp] theorem modDom_parts (d : Nat) (f : Domain → Domain) : (modDom d f s).parts = s.parts := rfl
@[simp] theorem modDom_ports (d : Nat) (f : Domain → Domain) : (modDom d f s).ports = s.ports := rfl
@[simp] theorem modDom_wires (d : Nat) (f : Domain → Domain) : (modDom d f s).wires = s.wires := rfl
@[simp] theorem modDom_sage (d : Nat) (f : Domain → Domain) : (modDom d f s).sage = s.sage := rfl
@[simp] theorem modDom_boot (d : Nat) (f : Domain → Domain) : (modDom d f s).boot = s.boot := rfl
@[simp] theorem modDom_module_ (d : Nat) (f : Domain → Domain) : (modDom d f s).module_ = s.module_ := rfl
@[simp] theorem modDom_issued (d : Nat) (f : Domain → Domain) : (modDom d f s).issued = s.issued := rfl
@[simp] theorem modDom_resps (d : Nat) (f : Domain → Domain) : (modDom d f s).resps = s.resps := rfl
@[simp] theorem modDom_asked (d : Nat) (f : Domain → Domain) : (modDom d f s).asked = s.asked := rfl
@[simp] theorem modDom_afterDetach (d : Nat) (f : Domain → Domain) : (modDom d f s).afterDetach = s.afterDetach := rfl
@[simp] theorem modDom_mgmt (d : Nat) (f : Domain → Domain) : (modDom d f s).mgmt = s.mgmt := rfl
@[simp] theorem modDom_pktSeq (d : Nat) (f : Domain → Domain) : (modDom d f s).pktSeq = s.pktSeq := rfl
@[simp] theorem modDom_cycle (d : Nat) (f : Domain → Domain) : (modDom d f s).cycle = s.cycle := rfl
@[simp] theorem modDom_pending (d : Nat) (f : Domain → Domain) : (modDom d f s).pending = s.pending := rfl

/-! ## addHistory -/

@[simp] theorem addHistory_grade (h : HistItem) : (addHistory h s).grade = s.grade := rfl
@[simp] theorem addHistory_defects (h : HistItem) : (addHistory h s).defects = s.defects := rfl
@[simp] theorem addHistory_tiles (h : HistItem) : (addHistory h s).tiles = s.tiles := rfl
@[simp] theorem addHistory_spines (h : HistItem) : (addHistory h s).spines = s.spines := rfl
@[simp] theorem addHistory_stk (h : HistItem) : (addHistory h s).stk = s.stk := rfl
@[simp] theorem addHistory_power (h : HistItem) : (addHistory h s).power = s.power := rfl
@[simp] theorem addHistory_parts (h : HistItem) : (addHistory h s).parts = s.parts := rfl
@[simp] theorem addHistory_ports (h : HistItem) : (addHistory h s).ports = s.ports := rfl
@[simp] theorem addHistory_wires (h : HistItem) : (addHistory h s).wires = s.wires := rfl
@[simp] theorem addHistory_sage (h : HistItem) :
    (addHistory h s).sage = { s.sage with
      history := dropSummaries (((s.sage.history ++ [h]).map itemBytes).sum - historyBytes) (s.sage.history ++ [h]) } := rfl
@[simp] theorem addHistory_boot (h : HistItem) : (addHistory h s).boot = s.boot := rfl
@[simp] theorem addHistory_module_ (h : HistItem) : (addHistory h s).module_ = s.module_ := rfl
@[simp] theorem addHistory_issued (h : HistItem) : (addHistory h s).issued = s.issued := rfl
@[simp] theorem addHistory_resps (h : HistItem) : (addHistory h s).resps = s.resps := rfl
@[simp] theorem addHistory_asked (h : HistItem) : (addHistory h s).asked = s.asked := rfl
@[simp] theorem addHistory_afterDetach (h : HistItem) : (addHistory h s).afterDetach = s.afterDetach := rfl
@[simp] theorem addHistory_mgmt (h : HistItem) : (addHistory h s).mgmt = s.mgmt := rfl
@[simp] theorem addHistory_pktSeq (h : HistItem) : (addHistory h s).pktSeq = s.pktSeq := rfl
@[simp] theorem addHistory_cycle (h : HistItem) : (addHistory h s).cycle = s.cycle := rfl
@[simp] theorem addHistory_pending (h : HistItem) : (addHistory h s).pending = s.pending := rfl

/-! ## lifeBump -/

@[simp] theorem lifeBump_grade (k n : Nat) : (lifeBump k n s).grade = s.grade := rfl
@[simp] theorem lifeBump_defects (k n : Nat) : (lifeBump k n s).defects = s.defects := rfl
@[simp] theorem lifeBump_tiles (k n : Nat) : (lifeBump k n s).tiles = s.tiles := rfl
@[simp] theorem lifeBump_spines (k n : Nat) : (lifeBump k n s).spines = s.spines := rfl
@[simp] theorem lifeBump_stk (k n : Nat) : (lifeBump k n s).stk = s.stk := rfl
@[simp] theorem lifeBump_power (k n : Nat) : (lifeBump k n s).power = s.power := rfl
@[simp] theorem lifeBump_parts (k n : Nat) : (lifeBump k n s).parts = s.parts := rfl
@[simp] theorem lifeBump_ports (k n : Nat) : (lifeBump k n s).ports = s.ports := rfl
@[simp] theorem lifeBump_wires (k n : Nat) : (lifeBump k n s).wires = s.wires := rfl
@[simp] theorem lifeBump_sage (k n : Nat) :
    (lifeBump k n s).sage = { s.sage with life := mmod 0 s.sage.life k fun v => min (v + n) (2 ^ 64 - 1) } := rfl
@[simp] theorem lifeBump_boot (k n : Nat) : (lifeBump k n s).boot = s.boot := rfl
@[simp] theorem lifeBump_module_ (k n : Nat) : (lifeBump k n s).module_ = s.module_ := rfl
@[simp] theorem lifeBump_issued (k n : Nat) : (lifeBump k n s).issued = s.issued := rfl
@[simp] theorem lifeBump_resps (k n : Nat) : (lifeBump k n s).resps = s.resps := rfl
@[simp] theorem lifeBump_asked (k n : Nat) : (lifeBump k n s).asked = s.asked := rfl
@[simp] theorem lifeBump_afterDetach (k n : Nat) : (lifeBump k n s).afterDetach = s.afterDetach := rfl
@[simp] theorem lifeBump_mgmt (k n : Nat) : (lifeBump k n s).mgmt = s.mgmt := rfl
@[simp] theorem lifeBump_pktSeq (k n : Nat) : (lifeBump k n s).pktSeq = s.pktSeq := rfl
@[simp] theorem lifeBump_cycle (k n : Nat) : (lifeBump k n s).cycle = s.cycle := rfl
@[simp] theorem lifeBump_pending (k n : Nat) : (lifeBump k n s).pending = s.pending := rfl

/-! ## modEngine -/

@[simp] theorem modEngine_grade (p e : Nat) (f : EngineQ → EngineQ) : (modEngine p e f s).grade = s.grade := rfl
@[simp] theorem modEngine_defects (p e : Nat) (f : EngineQ → EngineQ) : (modEngine p e f s).defects = s.defects := rfl
@[simp] theorem modEngine_tiles (p e : Nat) (f : EngineQ → EngineQ) : (modEngine p e f s).tiles = s.tiles := rfl
@[simp] theorem modEngine_spines (p e : Nat) (f : EngineQ → EngineQ) : (modEngine p e f s).spines = s.spines := rfl
@[simp] theorem modEngine_stk (p e : Nat) (f : EngineQ → EngineQ) : (modEngine p e f s).stk = s.stk := rfl
@[simp] theorem modEngine_power (p e : Nat) (f : EngineQ → EngineQ) : (modEngine p e f s).power = s.power := rfl
@[simp] theorem modEngine_parts (p e : Nat) (f : EngineQ → EngineQ) :
    (modEngine p e f s).parts = mmod {} s.parts p fun q => { q with eng := mmod {} q.eng e f } := rfl
@[simp] theorem modEngine_ports (p e : Nat) (f : EngineQ → EngineQ) : (modEngine p e f s).ports = s.ports := rfl
@[simp] theorem modEngine_wires (p e : Nat) (f : EngineQ → EngineQ) : (modEngine p e f s).wires = s.wires := rfl
@[simp] theorem modEngine_sage (p e : Nat) (f : EngineQ → EngineQ) : (modEngine p e f s).sage = s.sage := rfl
@[simp] theorem modEngine_boot (p e : Nat) (f : EngineQ → EngineQ) : (modEngine p e f s).boot = s.boot := rfl
@[simp] theorem modEngine_module_ (p e : Nat) (f : EngineQ → EngineQ) : (modEngine p e f s).module_ = s.module_ := rfl
@[simp] theorem modEngine_issued (p e : Nat) (f : EngineQ → EngineQ) : (modEngine p e f s).issued = s.issued := rfl
@[simp] theorem modEngine_resps (p e : Nat) (f : EngineQ → EngineQ) : (modEngine p e f s).resps = s.resps := rfl
@[simp] theorem modEngine_asked (p e : Nat) (f : EngineQ → EngineQ) : (modEngine p e f s).asked = s.asked := rfl
@[simp] theorem modEngine_afterDetach (p e : Nat) (f : EngineQ → EngineQ) :
    (modEngine p e f s).afterDetach = s.afterDetach := rfl
@[simp] theorem modEngine_mgmt (p e : Nat) (f : EngineQ → EngineQ) : (modEngine p e f s).mgmt = s.mgmt := rfl
@[simp] theorem modEngine_pktSeq (p e : Nat) (f : EngineQ → EngineQ) : (modEngine p e f s).pktSeq = s.pktSeq := rfl
@[simp] theorem modEngine_cycle (p e : Nat) (f : EngineQ → EngineQ) : (modEngine p e f s).cycle = s.cycle := rfl
@[simp] theorem modEngine_pending (p e : Nat) (f : EngineQ → EngineQ) : (modEngine p e f s).pending = s.pending := rfl

/-! ## modCur -/

@[simp] theorem modCur_grade (p e : Nat) (f : Entry → Entry) : (modCur p e f s).grade = s.grade := rfl
@[simp] theorem modCur_defects (p e : Nat) (f : Entry → Entry) : (modCur p e f s).defects = s.defects := rfl
@[simp] theorem modCur_tiles (p e : Nat) (f : Entry → Entry) : (modCur p e f s).tiles = s.tiles := rfl
@[simp] theorem modCur_spines (p e : Nat) (f : Entry → Entry) : (modCur p e f s).spines = s.spines := rfl
@[simp] theorem modCur_stk (p e : Nat) (f : Entry → Entry) : (modCur p e f s).stk = s.stk := rfl
@[simp] theorem modCur_power (p e : Nat) (f : Entry → Entry) : (modCur p e f s).power = s.power := rfl
@[simp] theorem modCur_parts (p e : Nat) (f : Entry → Entry) :
    (modCur p e f s).parts =
      mmod {} s.parts p fun q => { q with eng := mmod {} q.eng e fun g => { g with cur := f g.cur } } := rfl
@[simp] theorem modCur_ports (p e : Nat) (f : Entry → Entry) : (modCur p e f s).ports = s.ports := rfl
@[simp] theorem modCur_wires (p e : Nat) (f : Entry → Entry) : (modCur p e f s).wires = s.wires := rfl
@[simp] theorem modCur_sage (p e : Nat) (f : Entry → Entry) : (modCur p e f s).sage = s.sage := rfl
@[simp] theorem modCur_boot (p e : Nat) (f : Entry → Entry) : (modCur p e f s).boot = s.boot := rfl
@[simp] theorem modCur_module_ (p e : Nat) (f : Entry → Entry) : (modCur p e f s).module_ = s.module_ := rfl
@[simp] theorem modCur_issued (p e : Nat) (f : Entry → Entry) : (modCur p e f s).issued = s.issued := rfl
@[simp] theorem modCur_resps (p e : Nat) (f : Entry → Entry) : (modCur p e f s).resps = s.resps := rfl
@[simp] theorem modCur_asked (p e : Nat) (f : Entry → Entry) : (modCur p e f s).asked = s.asked := rfl
@[simp] theorem modCur_afterDetach (p e : Nat) (f : Entry → Entry) :
    (modCur p e f s).afterDetach = s.afterDetach := rfl
@[simp] theorem modCur_mgmt (p e : Nat) (f : Entry → Entry) : (modCur p e f s).mgmt = s.mgmt := rfl
@[simp] theorem modCur_pktSeq (p e : Nat) (f : Entry → Entry) : (modCur p e f s).pktSeq = s.pktSeq := rfl
@[simp] theorem modCur_cycle (p e : Nat) (f : Entry → Entry) : (modCur p e f s).cycle = s.cycle := rfl
@[simp] theorem modCur_pending (p e : Nat) (f : Entry → Entry) : (modCur p e f s).pending = s.pending := rfl

/-! ## mgmtAnswer -/

@[simp] theorem mgmtAnswer_grade (a : MgmtOut) : (mgmtAnswer a s).grade = s.grade := rfl
@[simp] theorem mgmtAnswer_defects (a : MgmtOut) : (mgmtAnswer a s).defects = s.defects := rfl
@[simp] theorem mgmtAnswer_tiles (a : MgmtOut) : (mgmtAnswer a s).tiles = s.tiles := rfl
@[simp] theorem mgmtAnswer_spines (a : MgmtOut) : (mgmtAnswer a s).spines = s.spines := rfl
@[simp] theorem mgmtAnswer_stk (a : MgmtOut) : (mgmtAnswer a s).stk = s.stk := rfl
@[simp] theorem mgmtAnswer_power (a : MgmtOut) : (mgmtAnswer a s).power = s.power := rfl
@[simp] theorem mgmtAnswer_parts (a : MgmtOut) : (mgmtAnswer a s).parts = s.parts := rfl
@[simp] theorem mgmtAnswer_ports (a : MgmtOut) : (mgmtAnswer a s).ports = s.ports := rfl
@[simp] theorem mgmtAnswer_wires (a : MgmtOut) : (mgmtAnswer a s).wires = s.wires := rfl
@[simp] theorem mgmtAnswer_sage (a : MgmtOut) : (mgmtAnswer a s).sage = s.sage := rfl
@[simp] theorem mgmtAnswer_boot (a : MgmtOut) : (mgmtAnswer a s).boot = s.boot := rfl
@[simp] theorem mgmtAnswer_module_ (a : MgmtOut) : (mgmtAnswer a s).module_ = s.module_ := rfl
@[simp] theorem mgmtAnswer_issued (a : MgmtOut) : (mgmtAnswer a s).issued = s.issued := rfl
@[simp] theorem mgmtAnswer_resps (a : MgmtOut) : (mgmtAnswer a s).resps = s.resps := rfl
@[simp] theorem mgmtAnswer_asked (a : MgmtOut) : (mgmtAnswer a s).asked = s.asked := rfl
@[simp] theorem mgmtAnswer_afterDetach (a : MgmtOut) : (mgmtAnswer a s).afterDetach = s.afterDetach := rfl
@[simp] theorem mgmtAnswer_mgmt (a : MgmtOut) :
    (mgmtAnswer a s).mgmt = s.mgmt ++ [a] := rfl
@[simp] theorem mgmtAnswer_pktSeq (a : MgmtOut) : (mgmtAnswer a s).pktSeq = s.pktSeq := rfl
@[simp] theorem mgmtAnswer_cycle (a : MgmtOut) : (mgmtAnswer a s).cycle = s.cycle := rfl
@[simp] theorem mgmtAnswer_pending (a : MgmtOut) : (mgmtAnswer a s).pending = s.pending := rfl

/-! ## writeChunk -/

@[simp] theorem writeChunk_grade (da : Nat) (d : Unit512) (b : Bool) : (writeChunk da d b s).grade = s.grade := rfl
@[simp] theorem writeChunk_defects (da : Nat) (d : Unit512) (b : Bool) :
    (writeChunk da d b s).defects = s.defects := rfl
@[simp] theorem writeChunk_tiles (da : Nat) (d : Unit512) (b : Bool) : (writeChunk da d b s).tiles = s.tiles := rfl
@[simp] theorem writeChunk_stk (da : Nat) (d : Unit512) (b : Bool) :
    (writeChunk da d b s).stk =
      { mem := memPut s.stk.mem da (bytesLE d.toNat 64), poison := mset false s.stk.poison (da / 64) b, corrected
        := mset false s.stk.corrected (da / 64) false } := rfl
@[simp] theorem writeChunk_power (da : Nat) (d : Unit512) (b : Bool) : (writeChunk da d b s).power = s.power := rfl
@[simp] theorem writeChunk_parts (da : Nat) (d : Unit512) (b : Bool) : (writeChunk da d b s).parts = s.parts := rfl
@[simp] theorem writeChunk_ports (da : Nat) (d : Unit512) (b : Bool) : (writeChunk da d b s).ports = s.ports := rfl
@[simp] theorem writeChunk_wires (da : Nat) (d : Unit512) (b : Bool) : (writeChunk da d b s).wires = s.wires := rfl
@[simp] theorem writeChunk_sage (da : Nat) (d : Unit512) (b : Bool) : (writeChunk da d b s).sage = s.sage := rfl
@[simp] theorem writeChunk_boot (da : Nat) (d : Unit512) (b : Bool) : (writeChunk da d b s).boot = s.boot := rfl
@[simp] theorem writeChunk_module_ (da : Nat) (d : Unit512) (b : Bool) :
    (writeChunk da d b s).module_ = s.module_ := rfl
@[simp] theorem writeChunk_issued (da : Nat) (d : Unit512) (b : Bool) : (writeChunk da d b s).issued = s.issued := rfl
@[simp] theorem writeChunk_resps (da : Nat) (d : Unit512) (b : Bool) : (writeChunk da d b s).resps = s.resps := rfl
@[simp] theorem writeChunk_asked (da : Nat) (d : Unit512) (b : Bool) : (writeChunk da d b s).asked = s.asked := rfl
@[simp] theorem writeChunk_afterDetach (da : Nat) (d : Unit512) (b : Bool) :
    (writeChunk da d b s).afterDetach = s.afterDetach := rfl
@[simp] theorem writeChunk_mgmt (da : Nat) (d : Unit512) (b : Bool) : (writeChunk da d b s).mgmt = s.mgmt := rfl
@[simp] theorem writeChunk_pktSeq (da : Nat) (d : Unit512) (b : Bool) : (writeChunk da d b s).pktSeq = s.pktSeq := rfl
@[simp] theorem writeChunk_cycle (da : Nat) (d : Unit512) (b : Bool) : (writeChunk da d b s).cycle = s.cycle := rfl
@[simp] theorem writeChunk_pending (da : Nat) (d : Unit512) (b : Bool) :
    (writeChunk da d b s).pending = s.pending := rfl

/-! ## closeEntries -/

@[simp] theorem closeEntries_grade (da : Nat) : (closeEntries da s).grade = s.grade := rfl
@[simp] theorem closeEntries_defects (da : Nat) : (closeEntries da s).defects = s.defects := rfl
@[simp] theorem closeEntries_tiles (da : Nat) : (closeEntries da s).tiles = s.tiles := rfl
@[simp] theorem closeEntries_stk (da : Nat) : (closeEntries da s).stk = s.stk := rfl
@[simp] theorem closeEntries_power (da : Nat) : (closeEntries da s).power = s.power := rfl
@[simp] theorem closeEntries_parts (da : Nat) : (closeEntries da s).parts = s.parts := rfl
@[simp] theorem closeEntries_ports (da : Nat) : (closeEntries da s).ports = s.ports := rfl
@[simp] theorem closeEntries_wires (da : Nat) : (closeEntries da s).wires = s.wires := rfl
@[simp] theorem closeEntries_sage (da : Nat) : (closeEntries da s).sage = s.sage := rfl
@[simp] theorem closeEntries_boot (da : Nat) : (closeEntries da s).boot = s.boot := rfl
@[simp] theorem closeEntries_module_ (da : Nat) : (closeEntries da s).module_ = s.module_ := rfl
@[simp] theorem closeEntries_issued (da : Nat) : (closeEntries da s).issued = s.issued := rfl
@[simp] theorem closeEntries_resps (da : Nat) : (closeEntries da s).resps = s.resps := rfl
@[simp] theorem closeEntries_asked (da : Nat) : (closeEntries da s).asked = s.asked := rfl
@[simp] theorem closeEntries_afterDetach (da : Nat) : (closeEntries da s).afterDetach = s.afterDetach := rfl
@[simp] theorem closeEntries_mgmt (da : Nat) : (closeEntries da s).mgmt = s.mgmt := rfl
@[simp] theorem closeEntries_pktSeq (da : Nat) : (closeEntries da s).pktSeq = s.pktSeq := rfl
@[simp] theorem closeEntries_cycle (da : Nat) : (closeEntries da s).cycle = s.cycle := rfl
@[simp] theorem closeEntries_pending (da : Nat) : (closeEntries da s).pending = s.pending := rfl

/-! ## hostSend -/

@[simp] theorem hostSend_grade (o : Nat) (x : HostOut) : (hostSend o x s).grade = s.grade := rfl
@[simp] theorem hostSend_defects (o : Nat) (x : HostOut) : (hostSend o x s).defects = s.defects := rfl
@[simp] theorem hostSend_tiles (o : Nat) (x : HostOut) : (hostSend o x s).tiles = s.tiles := rfl
@[simp] theorem hostSend_spines (o : Nat) (x : HostOut) : (hostSend o x s).spines = s.spines := rfl
@[simp] theorem hostSend_stk (o : Nat) (x : HostOut) : (hostSend o x s).stk = s.stk := rfl
@[simp] theorem hostSend_power (o : Nat) (x : HostOut) : (hostSend o x s).power = s.power := rfl
@[simp] theorem hostSend_parts (o : Nat) (x : HostOut) : (hostSend o x s).parts = s.parts := rfl
@[simp] theorem hostSend_ports (o : Nat) (x : HostOut) :
    (hostSend o x s).ports = mmod {} s.ports o fun q => if q.up then { q with out := q.out ++ [x] } else q := rfl
@[simp] theorem hostSend_wires (o : Nat) (x : HostOut) : (hostSend o x s).wires = s.wires := rfl
@[simp] theorem hostSend_sage (o : Nat) (x : HostOut) : (hostSend o x s).sage = s.sage := rfl
@[simp] theorem hostSend_boot (o : Nat) (x : HostOut) : (hostSend o x s).boot = s.boot := rfl
@[simp] theorem hostSend_module_ (o : Nat) (x : HostOut) : (hostSend o x s).module_ = s.module_ := rfl
@[simp] theorem hostSend_issued (o : Nat) (x : HostOut) : (hostSend o x s).issued = s.issued := rfl
@[simp] theorem hostSend_resps (o : Nat) (x : HostOut) : (hostSend o x s).resps = s.resps := rfl
@[simp] theorem hostSend_asked (o : Nat) (x : HostOut) : (hostSend o x s).asked = s.asked := rfl
@[simp] theorem hostSend_afterDetach (o : Nat) (x : HostOut) : (hostSend o x s).afterDetach = s.afterDetach := rfl
@[simp] theorem hostSend_mgmt (o : Nat) (x : HostOut) : (hostSend o x s).mgmt = s.mgmt := rfl
@[simp] theorem hostSend_pktSeq (o : Nat) (x : HostOut) : (hostSend o x s).pktSeq = s.pktSeq := rfl
@[simp] theorem hostSend_cycle (o : Nat) (x : HostOut) : (hostSend o x s).cycle = s.cycle := rfl
@[simp] theorem hostSend_pending (o : Nat) (x : HostOut) : (hostSend o x s).pending = s.pending := rfl

/-! ## Readings that an update of something else keeps -/

@[simp] theorem getTile_modPart (p x y : Nat) (f : Partition → Partition) :
    getTile (modPart s p f) x y = getTile s x y := rfl
@[simp] theorem getTile_modPort (o x y : Nat) (f : Port → Port) : getTile (modPort s o f) x y = getTile s x y := rfl
@[simp] theorem getTile_modSpine (n x y : Nat) (f : Spine → Spine) :
    getTile (modSpine s n f) x y = getTile s x y := rfl
@[simp] theorem getPart_advanceTo (c p : Nat) : getPart (advanceTo s c) p = getPart s p := rfl
@[simp] theorem getPart_setTile (x y p : Nat) (t : Tile) : getPart (setTile s x y t) p = getPart s p := rfl
@[simp] theorem getPart_modPort (o p : Nat) (f : Port → Port) : getPart (modPort s o f) p = getPart s p := rfl
@[simp] theorem getPart_modSpine (n p : Nat) (f : Spine → Spine) : getPart (modSpine s n f) p = getPart s p := rfl
@[simp] theorem getPort_advanceTo (c o : Nat) : getPort (advanceTo s c) o = getPort s o := rfl
@[simp] theorem getPort_setTile (x y o : Nat) (t : Tile) : getPort (setTile s x y t) o = getPort s o := rfl
@[simp] theorem getPort_modPart (p o : Nat) (f : Partition → Partition) :
    getPort (modPart s p f) o = getPort s o := rfl
@[simp] theorem getSpine_modPart (p n : Nat) (f : Partition → Partition) :
    getSpine (modPart s p f) n = getSpine s n := rfl
@[simp] theorem getSpine_modPort (o n : Nat) (f : Port → Port) : getSpine (modPort s o f) n = getSpine s n := rfl
@[simp] theorem getSpine_setTile (x y n : Nat) (t : Tile) : getSpine (setTile s x y t) n = getSpine s n := rfl
@[simp] theorem getDom_modPart (p d : Nat) (f : Partition → Partition) : getDom (modPart s p f) d = getDom s d := rfl
@[simp] theorem partOfPort_modPort (o k : Nat) (f : Port → Port) :
    partOfPort (modPort s o f) k = partOfPort s k := rfl
@[simp] theorem tileExists_setTile (x y : Nat) (t : Tile) (i : TileId) :
    tileExists (setTile s x y t) i = tileExists s i := rfl

end Sys2Proof.Machine
end

