-- ==== Sys2Proof/Laws/Tiles.lean ====
section
/-!
SUPPORT. Laws/Tiles: reading and writing tiles, the device cycle, window tokens: what each of these operations changes.
-/
namespace Sys2Proof.Machine

@[simp] theorem getTile_advanceTo (s : State) (c x y : Nat) : getTile (advanceTo s c) x y = getTile s x y := rfl

/-- Coordinates within a row of 1,024 have keys of their own. -/
theorem tileKey_inj {x y x' y' : Nat} (hx : x < 1024) (hx' : x' < 1024) (h : tileKey x y = tileKey x' y') :
    x = x' ∧ y = y' := by
  unfold tileKey at h
  omega

theorem setTile_wf {s : State} (x y : Nat) (t : Tile) (w : mwf {} s.tiles = true) :
    mwf {} (setTile s x y t).tiles = true := mwf_mset w

theorem modTile_wf {s : State} (x y : Nat) (f : Tile → Tile) (w : mwf {} s.tiles = true) :
    mwf {} (modTile s x y f).tiles = true := mwf_mset w

theorem getTile_setTile {s : State} (x y : Nat) (t : Tile) (w : mwf {} s.tiles = true) :
    getTile (setTile s x y t) x y = t := mget_mset w

theorem getTile_setTile_ne {s : State} {x y x' y' : Nat} (t : Tile) (w : mwf {} s.tiles = true)
    (h : tileKey x' y' ≠ tileKey x y) : getTile (setTile s x y t) x' y' = getTile s x' y' := mget_mset_ne w h

theorem getTile_modTile {s : State} (x y : Nat) (f : Tile → Tile) (w : mwf {} s.tiles = true) :
    getTile (modTile s x y f) x y = f (getTile s x y) := mget_mset w

theorem getTile_modTile_ne {s : State} {x y x' y' : Nat} (f : Tile → Tile) (w : mwf {} s.tiles = true)
    (h : tileKey x' y' ≠ tileKey x y) : getTile (modTile s x y f) x' y' = getTile s x' y' := mget_mset_ne w h

/-- Every reading of a tile that an update of one tile keeps is kept at every coordinate. -/
theorem getTile_modTile_proj {α : Sort*} (p : Tile → α) {s : State} {x y : Nat} {f : Tile → Tile}
    (w : mwf {} s.tiles = true) (hf : ∀ t, p (f t) = p t) (x' y' : Nat) :
    p (getTile (modTile s x y f) x' y') = p (getTile s x' y') := by
  by_cases h : tileKey x' y' = tileKey x y
  · have e : ∀ s : State, getTile s x' y' = getTile s x y := fun s => by unfold getTile; rw [h]
    rw [e, e, getTile_modTile x y f w, hf]
  · rw [getTile_modTile_ne f w h]

/-- A returning token touches only the list of outstanding flits of its source. -/
theorem releaseToken_only (core : Nat) (f : Flit) (s : State) :
    releaseToken core f s = { s with tiles := (releaseToken core f s).tiles } := rfl

theorem releaseToken_wf {s : State} (core : Nat) (f : Flit) (w : mwf {} s.tiles = true) :
    mwf {} (releaseToken core f s).tiles = true := modTile_wf _ _ _ w

theorem releaseAll_wf {s : State} (core : Nat) (fs : List Flit) (w : mwf {} s.tiles = true) :
    mwf {} (releaseAll core fs s).tiles = true := by
  unfold releaseAll
  induction fs generalizing s with
  | nil => exact w
  | cons f fs ih => exact ih (releaseToken_wf core f w)

/-- A reading of a tile that does not look at its outstanding flits. -/
theorem releaseAll_proj {α : Sort*} (p : Tile → α)
    (hp : ∀ t o, p { t with fret := { t.fret with outst := o } } = p t) {s : State} (core : Nat) (fs : List Flit)
    (w : mwf {} s.tiles = true) (x y : Nat) : p (getTile (releaseAll core fs s) x y) = p (getTile s x y) := by
  unfold releaseAll
  induction fs generalizing s with
  | nil => rfl
  | cons f fs ih =>
    rw [List.foldl_cons, ih (releaseToken_wf core f w)]
    exact getTile_modTile_proj p w (fun t => hp t _) x y

theorem releaseAll_only (core : Nat) (fs : List Flit) (s : State) :
    releaseAll core fs s = { s with tiles := (releaseAll core fs s).tiles } := by
  unfold releaseAll
  induction fs generalizing s with
  | nil => rfl
  | cons f fs ih => rw [List.foldl_cons, ih, releaseToken_only]

end Sys2Proof.Machine
end

