-- ==== Sys2Proof/Laws/Tab.lean ====
section
/-!
SUPPORT. Laws/Tab: what a tab command answers when the entry at PC fires, and what landing work and a firing leave of each
part of a tile.
-/
namespace Sys2Proof.Machine

/-! ## What landing work leaves of the tab unit -/

/-- The tab unit is the same but for STATE and DELAYING. -/
def SameTab (t t' : Tile) : Prop := t'.tab = { t.tab with st := t'.tab.st, delaying := t'.tab.delaying }

theorem SameTab.refl (t : Tile) : SameTab t t := rfl

theorem SameTab.of_eq {t t' : Tile} (h : t'.tab = t.tab) : SameTab t t' := by simp [SameTab, h]

theorem SameTab.trans {t t' t'' : Tile} (h : SameTab t t') (h' : SameTab t' t'') : SameTab t t'' := by
  unfold SameTab at *
  rw [h']
  simp only [TabUnit.mk.injEq]
  rw [h]
  simp

@[simp] theorem tileRaise_tab (t : Tile) (e : Ev) : (tileRaise t e).tab = t.tab := rfl
@[simp] theorem tileEvent_tab (core : Nat) (c : EvCode) (a b : Nat) (t : Tile) : (tileEvent core c a b t).tab = t.tab := rfl

@[simp] theorem bump_tab (core : Nat) (c : TileCtr) (n : Nat) (t : Tile) : (bump core c n t).tab = t.tab := by
  unfold bump; dsimp only; split <;> rfl

theorem haltWith_same (core : Nat) (c : EvCode) (a b : Nat) (t : Tile) : SameTab t (haltWith core c a b t) := rfl

theorem haltIfRunning_same (core : Nat) (c : EvCode) (a b : Nat) (t : Tile) : SameTab t (haltIfRunning core c a b t) := by
  unfold haltIfRunning; split
  · exact haltWith_same ..
  · exact SameTab.of_eq rfl

@[simp] theorem inject_tab (core x y ch : Nat) (d : Unit512) (a b : Bool) (t : Tile) :
    (inject core x y ch d a b t).tab = t.tab := rfl

@[simp] theorem landEmit_tab (core x y vis : Nat) (e : Emit) (t : Tile) : (landEmit core x y vis e t).tab = t.tab := by
  unfold landEmit
  cases e.slot <;> cases e.chan <;> cases e.scalar <;> rfl

@[simp] theorem landIssue_tab (core : Nat) (k : IssueKind) (rows : List RowAdd) (m : Nat) (t : Tile) :
    (landIssue core k rows m t).tab = t.tab := by
  unfold landIssue
  dsimp only
  by_cases hk : k = .arr <;> by_cases hm : m = 0 <;> simp [hk, hm]

@[simp] theorem landVec_tab (core x y vis : Nat) (e : Option Emit) (fx : VecFx) (b : VBuf) (m : Nat) (t : Tile) :
    (landVec core x y vis e fx b m t).tab = t.tab := by
  unfold landVec
  dsimp only
  cases e <;> cases fx.overflowGroup <;> by_cases hm : m = 0 <;> simp [hm] <;> split <;> simp

@[simp] theorem landFlight_tab (core x y : Nat) (f : Flight) (m : Nat) (t : Tile) :
    (landFlight core x y f m t).tab = t.tab := by
  unfold landFlight
  split <;> simp

theorem settleFly_tab (core x y now n : Nat) (t : Tile) : (settleFly core x y now n t).tab = t.tab := by
  induction n generalizing t with
  | zero => rfl
  | succ n ih =>
    unfold settleFly
    split
    · split
      · rw [ih, landFlight_tab]
      · rfl
    · rfl

theorem remoteAdd_same (core id k : Nat) (t : Tile) : SameTab t (remoteAdd core id k t) := by
  unfold remoteAdd
  dsimp only
  split <;> split
  · exact SameTab.of_eq rfl
  · exact SameTab.trans (SameTab.of_eq rfl) (haltIfRunning_same ..)
  · exact SameTab.of_eq rfl
  · exact SameTab.trans (SameTab.of_eq rfl) (haltIfRunning_same ..)

theorem completeStep_same (core d : Nat) (p : SpStep) (t : Tile) : SameTab t (completeStep core d p t) := by
  unfold completeStep
  dsimp only
  refine SameTab.trans ?_ (remoteAdd_same ..)
  apply SameTab.of_eq
  split <;> simp

theorem settleStep_same (now : Nat) (t : Tile) : SameTab t (settleStep now t) := by
  unfold settleStep
  split
  · exact SameTab.refl t
  · split
    · split
      · exact completeStep_same ..
      · exact SameTab.refl t
    · exact SameTab.refl t

theorem advanceAcnt_same (core i k : Nat) (t : Tile) : SameTab t (advanceAcnt core i k t) := by
  unfold advanceAcnt
  dsimp only
  split
  · split
    · exact haltIfRunning_same ..
    · exact SameTab.of_eq rfl
  · split
    · exact SameTab.of_eq rfl
    · exact SameTab.trans (SameTab.of_eq rfl) (remoteAdd_same ..)

theorem applyEnd_same (e : CycleEnd) (t : Tile) : SameTab t (applyEnd e t) := by
  unfold applyEnd
  dsimp only
  split <;> split
  · exact SameTab.trans (SameTab.of_eq rfl) (advanceAcnt_same ..)
  · exact advanceAcnt_same ..
  · exact SameTab.of_eq rfl
  · exact SameTab.refl t

theorem settleEnds_same (now : Nat) (t : Tile) : SameTab t (settleEnds now t) := by
  have h : ∀ (l : List CycleEnd) (q : Tile), SameTab q (l.foldl (fun t e => applyEnd e t) q) := by
    intro l
    induction l with
    | nil => exact SameTab.refl
    | cons e l ih => exact fun q => SameTab.trans (applyEnd_same e q) (ih _)
  exact SameTab.trans (SameTab.of_eq rfl) (h ..)

/-- What has come due leaves the tab unit but for a halt. -/
theorem settle_same (core x y now : Nat) (t : Tile) : SameTab t (settle core x y now t) :=
  SameTab.trans (settleEnds_same now t) (SameTab.trans (SameTab.of_eq (settleFly_tab ..)) (settleStep_same ..))

theorem curEntry_same {t t' : Tile} (h : SameTab t t') : curEntry t' = curEntry t := by
  unfold curEntry; rw [h]

@[simp] theorem curEntry_settle (core x y now : Nat) (t : Tile) : curEntry (settle core x y now t) = curEntry t :=
  curEntry_same (settle_same ..)

theorem curEntry_atStart (s : State) (t : TileId) : curEntry (atStart s t) = curEntry (tileOf s t) := curEntry_settle ..

/-- Tile cycle, PC, loop counters and all else of the tab unit stand as before. -/
theorem atStart_tab (s : State) (t : TileId) :
    (atStart s t).tab = { (tileOf s t).tab with st := (atStart s t).tab.st, delaying := (atStart s t).tab.delaying } :=
  settle_same ..

/-! ## Firing -/

/-- What a firing entry needs, spelt out on the tile at the start of its cycle. -/
structure FiresOn (env : TileEnv) (u : Upset) (e : TabEntry) (t : Tile) : Prop where
  running : t.tab.st = .running
  parity : u.parity = false
  formed : malformed e t.tab.pc.toNat = false
  guard : guardSlip env t e = none
  sems : semFault t e = none
  unit : unitFault t e (upsetOpd u (eSrcb e) (readSrc t e (eSrcb e))) = none

theorem Fires.on {s : State} {t : TileId} {u : Upset} {e : TabEntry} (h : Fires s t u e) :
    FiresOn (envOf s t) u e (atStart s t) := by
  have h2 : curEntry (settle (envOf s t).core (envOf s t).x (envOf s t).y (tileOf s t).tab.tc (tileOf s t)) = e := by
    rw [curEntry_settle]; exact h.entry
  have h3 := h.fires
  unfold tabFires at h3
  dsimp only at h3
  rw [h2] at h3
  simp only [Bool.and_eq_true, decide_eq_true_eq, Bool.not_eq_true', Option.isNone_iff_eq_none] at h3
  obtain ⟨⟨⟨⟨⟨a, b⟩, c⟩, d⟩, f⟩, g⟩ := h3
  exact ⟨a, b, c, d, f, g⟩

/-- A tile whose entry fires, from the tile at the start of the cycle: the effects of R26, the count of the cycle, control. -/
def fireTile (env : TileEnv) (u : Upset) (e : TabEntry) (t : Tile) : Tile :=
  let a := upsetOpd u (eSrca e) (readSrc t e (eSrca e))
  let b := upsetOpd u (eSrcb e) (readSrc t e (eSrcb e))
  let tl := bump env.core .fire 1 (countCycle env e (fireEffects env u e a b t))
  applyCtl { tl with tab := { tl.tab with wdCount := 0, wdTripped := false, wdProgress := true } } e

theorem fire_on {env : TileEnv} {u : Upset} {e : TabEntry} {t : Tile} (g : FiresOn env u e t) :
    fire env u e t = fireTile env u e t := by
  unfold fire
  dsimp only
  rw [g.sems]
  dsimp only
  rw [g.unit]
  rfl

theorem tabCycle_on {env : TileEnv} {u : Upset} {e : TabEntry} {t pre : Tile}
    (hp : settle env.core env.x env.y t.tab.tc t = pre) (he : curEntry pre = e) (g : FiresOn env u e pre) :
    tabCycle env u t = fireTile env u e pre := by
  unfold tabCycle
  dsimp only
  rw [hp, he, if_neg (by simp [g.running]), if_neg (by simp [g.parity]), if_neg (by simp [g.formed]), g.guard]
  exact fire_on g

/-- The tile after its entry has fired. -/
def firedTile (s : State) (t : TileId) (u : Upset) (e : TabEntry) : Tile := fireTile (envOf s t) u e (atStart s t)

theorem tabCycle_fires {s : State} {t : TileId} {u : Upset} {e : TabEntry} (h : Fires s t u e) :
    tabCycle (envOf s t) u (tileOf s t) = firedTile s t u e :=
  tabCycle_on rfl ((curEntry_settle ..).trans h.entry) h.on

/-- The state after the entry at PC has fired. -/
theorem tabCommand_fires {sel : TabEntry → Bool} {s : State} {t : TileId} {u : Upset} {e : TabEntry} (h : Fires s t u e)
    (hs : sel e = true) :
    tabCommand sel t u s = .next (releaseAll (startCore s t) (poppedFlits (atStart s t) e)
      (setTile (advanceTo s (startCore s t)) t.x t.y (firedTile s t u e))) := by
  have h1 := h.issues
  have h2 := h.entry
  have h3 := h.fires
  have h4 : curEntry (atStart s t) = e := by rw [curEntry_atStart, h2]
  rw [← tabCycle_fires h]
  simp only [tileOf, envOf, startCore] at h1 h2 h3
  unfold tabCommand onTile
  rw [if_pos h.tile]
  simp only [h1, h2, hs, Bool.true_or, Bool.and_self, if_true]
  unfold tabStep
  simp only [h3, if_true, atStart, startCore, envOf, tileOf, curEntry_settle, h2]

/-- A tab command whose entry fires answers a next state; every reading of the tile that does not look at its outstanding
flits is that of the fired tile. -/
theorem tabCommand_fires_tile {sel : TabEntry → Bool} {s : State} {t : TileId} {u : Upset} {e : TabEntry}
    (h : Fires s t u e) (hs : sel e = true) : ∃ s', tabCommand sel t u s = .next s' ∧
      s' = { s with tiles := s'.tiles, cycle := startCore s t } ∧ mwf {} s'.tiles = true ∧
      (∀ (α : Type) (p : Tile → α), (∀ t o, p { t with fret := { t.fret with outst := o } } = p t) →
        p (tileOf s' t) = p (firedTile s t u e)) ∧
      (∀ x y, tileKey x y ≠ tileKey t.x t.y → ∀ (α : Type) (p : Tile → α),
        (∀ t o, p { t with fret := { t.fret with outst := o } } = p t) → p (getTile s' x y) = p (getTile s x y)) := by
  have w : mwf {} (setTile (advanceTo s (startCore s t)) t.x t.y (firedTile s t u e)).tiles = true :=
    setTile_wf _ _ _ h.maps
  refine ⟨_, tabCommand_fires h hs, ?_, releaseAll_wf _ _ w, ?_, ?_⟩
  · rw [releaseAll_only]
    have : max s.cycle (startCore s t) = startCore s t := by unfold startCore; omega
    simp [setTile, advanceTo, this]
  · intro α p hp
    rw [tileOf, releaseAll_proj p hp _ _ w, getTile_setTile (s := advanceTo s (startCore s t)) _ _ _ h.maps]
  · intro x y hk α p hp
    rw [releaseAll_proj p hp _ _ w, getTile_setTile_ne (s := advanceTo s (startCore s t)) _ h.maps hk, getTile_advanceTo]

end Sys2Proof.Machine
end

