-- ==== Sys2Proof/Laws/Fire.lean ====
section
/-!
SUPPORT. Laws/Fire: what a firing entry leaves of the units of its tile: the arrays, the compressor, the work in flight.
-/
namespace Sys2Proof.Machine

/-- The compute units of a tile and what they have in flight. -/
def units (t : Tile) : ArrayUnit × SparseUnit × VBuf × VBuf × List Flight := (t.arr, t.sp, t.vfire, t.vshow, t.fly)

theorem units_of {t t' : Tile} (h : units t = units t') :
    t.arr = t'.arr ∧ t.sp = t'.sp ∧ t.vfire = t'.vfire ∧ t.vshow = t'.vshow ∧ t.fly = t'.fly := by
  simpa [units] using h

@[simp] theorem units_tileRaise (t : Tile) (e : Ev) : units (tileRaise t e) = units t := rfl
@[simp] theorem units_tileEvent (core : Nat) (c : EvCode) (a b : Nat) (t : Tile) :
    units (tileEvent core c a b t) = units t := rfl

@[simp] theorem units_bump (core : Nat) (c : TileCtr) (n : Nat) (t : Tile) : units (bump core c n t) = units t := by
  unfold bump; dsimp only; split <;> rfl

@[simp] theorem units_spadUpset (core : Nat) (e : Ecc) (n : Nat) (t : Tile) : units (spadUpset core e n t) = units t := by
  cases e <;> rfl

@[simp] theorem units_applyTags (t : Tile) (e : TabEntry) (l : List Nat) : units (applyTags t e l) = units t := rfl
@[simp] theorem units_semApply (t : Tile) (e : TabEntry) : units (semApply t e) = units t := rfl
@[simp] theorem units_takeCredits (t : Tile) (e : TabEntry) : units (takeCredits t e) = units t := rfl

@[simp] theorem units_popSrc (free : Nat) (t : Tile) (n : Nat) : units (popSrc free t n) = units t := by
  unfold popSrc; split
  · rfl
  · split <;> rfl

@[simp] theorem units_pops (free : Nat) (l : List Nat) (t : Tile) : units (l.foldl (popSrc free) t) = units t := by
  induction l generalizing t with
  | nil => rfl
  | cons a l ih => rw [List.foldl_cons, ih, units_popSrc]

@[simp] theorem units_countCycle (env : TileEnv) (e : TabEntry) (t : Tile) : units (countCycle env e t) = units t := by
  unfold countCycle
  exact (units_bump ..).trans (units_bump ..)

@[simp] theorem units_applyCtl (t : Tile) (e : TabEntry) : units (applyCtl t e) = units t := by
  unfold applyCtl
  dsimp only
  split <;> try rfl
  · split
    · rfl
    · rfl
  · split <;> rfl

@[simp] theorem units_creditTile (e : TabEntry) (t : Tile) : units (creditTile e t) = units t := rfl

@[simp] theorem units_afterUnit (env : TileEnv) (e : TabEntry) (slots : List Nat) (g : AddrGen) (t : Tile) :
    units (afterUnit env e slots g t) = units t := by
  have h1 : ∀ q : Tile, ∀ m : MemUnit, units { q with mu := m } = units q := fun _ _ => rfl
  unfold afterUnit
  dsimp only
  rw [units_semApply, h1, units_pops, units_applyTags]

/-- What an upset of the read leaves of a tile: everything but the poison of the slot and the events. -/
theorem upsetTile_proj {α : Sort*} (p : Tile → α) (hr : ∀ t e, p (tileRaise t e) = p t)
    (hs : ∀ t m, p { t with mu := { t.mu with slots := m } } = p t) (env : TileEnv) (u : Upset) (e : TabEntry) (t : Tile) :
    p (upsetTile env u e t) = p t := by
  have h1 : ∀ t : Tile, p (spadUpset env.core u.spad (readSlot t e) t) = p t := by
    intro t
    unfold spadUpset
    split
    · rfl
    · exact hr ..
    · rw [hr, hs]
  have h3 : p (if eRdop e ≠ 0 then spadUpset env.core u.spad (readSlot t e) t else t) = p t := by
    split
    · exact h1 t
    · rfl
  unfold upsetTile
  dsimp only
  split
  · exact (hr _ _).trans h3
  · exact h3

theorem upsetTile_units (env : TileEnv) (u : Upset) (e : TabEntry) (t : Tile) : units (upsetTile env u e t) = units t :=
  upsetTile_proj units (fun _ _ => rfl) (fun _ _ => rfl) env u e t

theorem upsetTile_tab (env : TileEnv) (u : Upset) (e : TabEntry) (t : Tile) : (upsetTile env u e t).tab = t.tab :=
  upsetTile_proj (·.tab) (fun _ _ => rfl) (fun _ _ => rfl) env u e t

theorem upsetTile_ag1 (env : TileEnv) (u : Upset) (e : TabEntry) (t : Tile) : (upsetTile env u e t).mu.ag1 = t.mu.ag1 :=
  upsetTile_proj (·.mu.ag1) (fun _ _ => rfl) (fun _ _ => rfl) env u e t

/-- An upset changes nothing that a vector result, or the slots an entry targets, depend on. -/
theorem vecResult_upset (env : TileEnv) (u : Upset) (e : TabEntry) (a b : Opd) (t : Tile) :
    vecResult env e a b (upsetTile env u e t) = vecResult env e a b t :=
  upsetTile_proj (vecResult env e a b) (fun _ _ => rfl) (fun _ _ => rfl) env u e t

theorem unitTargets_upset (env : TileEnv) (u : Upset) (e : TabEntry) (a b : Opd) (t : Tile) :
    unitTargets env e a b (upsetTile env u e t) = unitTargets env e a b t :=
  upsetTile_proj (unitTargets env e a b) (fun _ _ => rfl) (fun _ _ => rfl) env u e t

theorem unitSlots_upset (env : TileEnv) (u : Upset) (e : TabEntry) (a b : Opd) (t : Tile) :
    unitSlots env e a b (upsetTile env u e t) = unitSlots env e a b t :=
  upsetTile_proj (unitSlots env e a b) (fun _ _ => rfl) (fun _ _ => rfl) env u e t

/-- The unit of a firing entry finds this tile. -/
def unitStart (env : TileEnv) (u : Upset) (e : TabEntry) (t : Tile) : Tile := creditTile e (upsetTile env u e t)

theorem unitStart_units (env : TileEnv) (u : Upset) (e : TabEntry) (t : Tile) : units (unitStart env u e t) = units t :=
  (units_creditTile ..).trans (upsetTile_units ..)

theorem unitStart_tab (env : TileEnv) (u : Upset) (e : TabEntry) (t : Tile) : (unitStart env u e t).tab = t.tab :=
  upsetTile_tab ..

/-- The units after a firing: those its own unit leaves. -/
theorem units_fireTile (env : TileEnv) (u : Upset) (e : TabEntry) (t : Tile) :
    units (fireTile env u e t) =
      let a := upsetOpd u (eSrca e) (readSrc t e (eSrca e))
      let b := upsetOpd u (eSrcb e) (readSrc t e (eSrcb e))
      units (unitFire env e a b (vecResult env e a b t) (unitSlots env e a b t) (unitStart env u e t)) := by
  have ctl : ∀ q : Tile, units (applyCtl
      { q with tab := { q.tab with wdCount := 0, wdTripped := false, wdProgress := true } } e) = units q :=
    fun q => (units_applyCtl _ _).trans rfl
  unfold fireTile
  dsimp only
  rw [ctl, units_bump, units_countCycle, fireEffects, units_afterUnit, vecResult_upset, unitSlots_upset]
  rfl

/-! ## What the units leave of the rest of the tile -/

/-- A reading of a tile that looks at no counter, event, compute unit or work in flight, and not at the count of stochastic
converts. -/
structure OffUnits {α : Sort*} (p : Tile → α) : Prop where
  raise : ∀ t e, p (tileRaise t e) = p t
  parts : ∀ t c a s v f, p { t with ctr := c, arr := a, sp := s, vfire := v, fly := f } = p t
  srn : ∀ t n, p { t with tab := { t.tab with srn := n } } = p t

theorem OffUnits.bump {α : Sort*} {p : Tile → α} (h : OffUnits p) (core : Nat) (c : TileCtr) (n : Nat) (t : Tile) :
    p (bump core c n t) = p t := by
  unfold Machine.bump
  dsimp only
  split
  · exact (h.raise ..).trans (h.parts t ..)
  · exact h.parts t ..

theorem OffUnits.event {α : Sort*} {p : Tile → α} (h : OffUnits p) (core : Nat) (c : EvCode) (a b : Nat) (t : Tile) :
    p (tileEvent core c a b t) = p t := h.raise ..

theorem OffUnits.fireSegFx {α : Sort*} {p : Tile → α} (h : OffUnits p) (core : Nat) (k : IssueKind) (fx : SegFx) (vis : Nat)
    (t : Tile) : p (fireSegFx core k fx vis t) = p t := by
  unfold Machine.fireSegFx
  dsimp only
  refine (h.parts _ ..).trans ?_
  split
  · exact (h.event ..).trans (by simp only [h.bump])
  · simp only [h.bump]

theorem OffUnits.fireArray {α : Sort*} {p : Tile → α} (h : OffUnits p) (env : TileEnv) (e : TabEntry) (a b : Opd)
    (slots : List Nat) (t : Tile) : p (fireArray env e a b slots t) = p t := by
  unfold Machine.fireArray
  dsimp only
  generalize arrayFire t.arr e a b t.tab.tc = fx
  cases fx.drain <;> cases fx.issue <;> dsimp only
  all_goals
    repeat' first
      | rfl
      | exact h.parts t ..
      | refine (h.bump ..).trans ?_
      | split
      | refine (h.parts _ ..).trans ?_

theorem OffUnits.fireLoadm {α : Sort*} {p : Tile → α} (h : OffUnits p) (core : Nat) (e : TabEntry) (b : Opd) (t : Tile) :
    p (fireLoadm core e b t) = p t := by
  unfold Machine.fireLoadm
  dsimp only
  split
  · exact (h.event ..).trans ((h.bump ..).trans (h.parts t ..))
  · exact (h.bump ..).trans (h.parts t ..)

theorem OffUnits.fireSeg {α : Sort*} {p : Tile → α} (h : OffUnits p) (core : Nat) (a : Opd) (t : Tile) :
    p (fireSeg core a t) = p t := by
  unfold Machine.fireSeg
  dsimp only
  split
  · rfl
  · split
    · exact (h.fireSegFx ..).trans (h.parts t ..)
    · exact ((h.bump ..).trans (h.bump ..)).trans (h.parts t ..)

theorem OffUnits.fireSparse {α : Sort*} {p : Tile → α} (h : OffUnits p) (env : TileEnv) (e : TabEntry) (a b : Opd)
    (slots : List Nat) (t : Tile) : p (fireSparse env e a b slots t) = p t := by
  unfold Machine.fireSparse
  dsimp only
  split_ifs
  · exact h.parts t ..
  · exact h.fireLoadm ..
  · exact h.parts t ..
  · exact h.parts t ..
  · exact (h.parts _ ..).trans ((h.bump ..).trans ((h.bump ..).trans (h.parts t ..)))
  · exact h.parts t ..
  · exact (h.bump ..).trans (h.parts t ..)
  · exact h.fireSeg ..
  · exact (h.parts _ ..).trans ((h.bump ..).trans (h.parts t ..))

theorem OffUnits.fireVector {α : Sort*} {p : Tile → α} (h : OffUnits p) (env : TileEnv) (e : TabEntry) (r : VecOut)
    (v : ArrayUnit) (slots : List Nat) (t : Tile) : p (fireVector env e r v slots t) = p t := by
  have all : ∀ (q : Tile) a v f (b : Bool), p q = p t → p { q with
      arr := a, vfire := v, tab := if b then { q.tab with srn := q.tab.srn + 1 } else q.tab, fly := f } = p t := by
    intro q a v f b hq
    cases b
    · exact (h.parts q ..).trans hq
    · exact ((h.parts { q with tab := { q.tab with srn := q.tab.srn + 1 } } ..).trans (h.srn _ _)).trans hq
  unfold Machine.fireVector
  exact all _ _ _ _ _ (h.bump ..)

theorem OffUnits.fireMove {α : Sort*} {p : Tile → α} (h : OffUnits p) (e : TabEntry) (a b : Opd) (slots : List Nat)
    (t : Tile) : p (fireMove e a b slots t) = p t := by
  unfold Machine.fireMove
  split
  · rfl
  · exact h.parts t ..

theorem OffUnits.unitFire {α : Sort*} {p : Tile → α} (h : OffUnits p) (env : TileEnv) (e : TabEntry) (a b : Opd)
    (r : VecOut × ArrayUnit) (slots : List Nat) (t : Tile) : p (unitFire env e a b r slots t) = p t := by
  unfold Machine.unitFire
  split_ifs
  · exact h.fireMove ..
  · exact h.fireArray ..
  · exact h.fireSparse ..
  · exact h.fireVector ..

/-! ## What a firing leaves of the tab unit and of the semaphores -/

/-- The part of the tab unit that only control and the count of cycles write. -/
def tabCore (t : Tile) : TabUnit :=
  { t.tab with srx := 0, srxValid := false, srxPoison := false, srxWord := none, srxFreeAt := 0, srn := 0 }

theorem tabCore_off : OffUnits tabCore := ⟨fun _ _ => rfl, fun _ _ _ _ _ _ => rfl, fun _ _ => rfl⟩

theorem tabCore_popSrc (free : Nat) (t : Tile) (n : Nat) : tabCore (popSrc free t n) = tabCore t := by
  unfold popSrc; split
  · rfl
  · split <;> rfl

theorem tabCore_afterUnit (env : TileEnv) (e : TabEntry) (slots : List Nat) (g : AddrGen) (t : Tile) :
    tabCore (afterUnit env e slots g t) = tabCore t := by
  have h1 : ∀ q : Tile, ∀ m : MemUnit, tabCore { q with mu := m } = tabCore q := fun _ _ => rfl
  have h2 : ∀ (l : List Nat) (q : Tile) (n : Nat), tabCore (l.foldl (popSrc n) q) = tabCore q := by
    intro l
    induction l with
    | nil => intros; rfl
    | cons a l ih => intro q n; rw [List.foldl_cons, ih, tabCore_popSrc]
  unfold afterUnit
  dsimp only
  unfold semApply
  rw [h1, h1, h2]
  rfl

theorem tabCore_upsetTile (env : TileEnv) (u : Upset) (e : TabEntry) (t : Tile) :
    tabCore (upsetTile env u e t) = tabCore t :=
  upsetTile_proj tabCore (fun _ _ => rfl) (fun _ _ => rfl) env u e t

/-- The effects of an entry leave PC, STATE, the loop counters and the counts of cycles to control. -/
theorem tabCore_fireEffects (env : TileEnv) (u : Upset) (e : TabEntry) (a b : Opd) (t : Tile) :
    tabCore (fireEffects env u e a b t) = tabCore t := by
  unfold fireEffects
  dsimp only
  rw [tabCore_afterUnit, tabCore_off.unitFire]
  exact tabCore_upsetTile ..

/-- The semaphores of a tile. -/
def tileSems (t : Tile) : SMap Sem := t.mu.sems

theorem tileSems_off : OffUnits tileSems := ⟨fun _ _ => rfl, fun _ _ _ _ _ _ => rfl, fun _ _ => rfl⟩

theorem tileSems_popSrc (free : Nat) (t : Tile) (n : Nat) : tileSems (popSrc free t n) = tileSems t := by
  unfold popSrc; split
  · rfl
  · split <;> rfl

/-- The semaphores after the entry's operations. -/
def semsAfter (e : TabEntry) (m : SMap Sem) : SMap Sem :=
  (semDelta e).foldl (fun m (id, a, d) => mmod {} m id fun s => { s with val := BitVec.ofNat 16 (s.val.toNat + a - d) }) m

/-- A firing entry changes the semaphores by its own operations only. -/
theorem tileSems_fireEffects (env : TileEnv) (u : Upset) (e : TabEntry) (a b : Opd) (t : Tile) :
    tileSems (fireEffects env u e a b t) = semsAfter e (tileSems t) := by
  have h2 : ∀ (l : List Nat) (q : Tile) (n : Nat), tileSems (l.foldl (popSrc n) q) = tileSems q := by
    intro l
    induction l with
    | nil => intros; rfl
    | cons a l ih => intro q n; rw [List.foldl_cons, ih, tileSems_popSrc]
  have h3 : ∀ q : Tile, tileSems (semApply q e) = semsAfter e (tileSems q) := fun _ => rfl
  unfold fireEffects
  dsimp only
  unfold afterUnit
  dsimp only
  rw [h3]
  congr 1
  change tileSems (List.foldl _ _ _) = _
  rw [h2]
  change tileSems (unitFire ..) = _
  rw [tileSems_off.unitFire]
  exact upsetTile_proj tileSems (fun _ _ => rfl) (fun _ _ => rfl) env u e t

/-- The tab unit after a firing, before control: one cycle more, the watchdog reset. -/
theorem tabCore_fireTile (env : TileEnv) (u : Upset) (e : TabEntry) (t : Tile) :
    ∃ q : Tile, fireTile env u e t = applyCtl q e ∧ tabCore q = { tabCore t with
      cycle := t.tab.cycle + 1, tc := t.tab.tc + 1, lastCore := env.core
      nextCore := env.core + (if env.stretched then 2 else 1)
      wdCount := 0, wdTripped := false, wdProgress := true } := by
  refine ⟨_, rfl, ?_⟩
  have hb : ∀ c n (q : Tile), (bump env.core c n q).tab = q.tab := fun c n q => bump_tab ..
  have h := tabCore_fireEffects env u e (upsetOpd u (eSrca e) (readSrc t e (eSrca e)))
    (upsetOpd u (eSrcb e) (readSrc t e (eSrcb e))) t
  generalize fireEffects env u e _ _ t = r at h
  simp only [tabCore, hb, countCycle] at h ⊢
  simp only [TabUnit.mk.injEq] at h ⊢
  simp_all

/-! ## The count of fires -/

/-- Counters are in canonical form, and TAB_FIRE reads a value. -/
def FireCount (v : Nat) (t : Tile) : Prop := mwf 0 t.ctr = true ∧ ctrVal t .fire = v

theorem FireCount.of_ctr {v : Nat} {t t' : Tile} (h : FireCount v t) (e : t'.ctr = t.ctr) : FireCount v t' := by
  unfold FireCount ctrVal at *
  rwa [e]

theorem bump_ctr (core : Nat) (c : TileCtr) (n : Nat) (t : Tile) :
    (bump core c n t).ctr = mset 0 t.ctr (ctrOffset c) (min (ctrVal t c + n) ctrMax) := by
  unfold bump; dsimp only; split <;> rfl

theorem FireCount.bump {v : Nat} {t : Tile} (h : FireCount v t) {core : Nat} {c : TileCtr} {n : Nat}
    (hc : ctrOffset .fire ≠ ctrOffset c) : FireCount v (bump core c n t) := by
  unfold FireCount ctrVal at *
  rw [bump_ctr]
  exact ⟨mwf_mset h.1, (mget_mset_ne h.1 hc).trans h.2⟩

theorem FireCount.event {v : Nat} {t : Tile} (h : FireCount v t) (core : Nat) (c : EvCode) (a b : Nat) :
    FireCount v (tileEvent core c a b t) := h.of_ctr rfl

theorem FireCount.parts {v : Nat} {q : Tile} (h : FireCount v q) (tb : TabUnit) (a : ArrayUnit) (sp : SparseUnit) (w : VBuf)
    (f : List Flight) : FireCount v { q with tab := tb, arr := a, sp := sp, vfire := w, fly := f } := h.of_ctr rfl

theorem FireCount.fireSegFx {v : Nat} {t : Tile} (h : FireCount v t) (core : Nat) (k : IssueKind) (fx : SegFx) (vis : Nat) :
    FireCount v (fireSegFx core k fx vis t) := by
  unfold Machine.fireSegFx
  dsimp only
  refine FireCount.parts ?_ _ _ _ _ _
  have hb : FireCount v (Machine.bump core .spIssue 1 (Machine.bump core .spPairs fx.pairs
      (Machine.bump core .spBounds fx.skipped.length (Machine.bump core .spZgate fx.gated t)))) :=
    (((h.bump (by decide)).bump (by decide)).bump (by decide)).bump (by decide)
  split
  · exact hb.event ..
  · exact hb

theorem FireCount.fireArray {v : Nat} {t : Tile} (h : FireCount v t) (env : TileEnv) (e : TabEntry) (a b : Opd)
    (slots : List Nat) : FireCount v (fireArray env e a b slots t) := by
  unfold Machine.fireArray
  dsimp only
  generalize arrayFire t.arr e a b t.tab.tc = fx
  cases fx.issue <;> cases fx.drain <;> dsimp only
  all_goals
    repeat' first
      | exact h.parts ..
      | refine FireCount.bump ?_ (by decide)
      | split

theorem FireCount.fireSparse {v : Nat} {t : Tile} (h : FireCount v t) (env : TileEnv) (e : TabEntry) (a b : Opd)
    (slots : List Nat) : FireCount v (fireSparse env e a b slots t) := by
  unfold Machine.fireSparse
  dsimp only
  split_ifs
  · exact h.parts ..
  · unfold fireLoadm
    dsimp only
    split
    · exact FireCount.event (FireCount.bump (h.parts ..) (by decide)) ..
    · exact FireCount.bump (h.parts ..) (by decide)
  · exact h.parts ..
  · exact h.parts ..
  · unfold fireMac24
    dsimp only
    exact FireCount.parts (FireCount.bump (FireCount.bump (h.parts ..) (by decide)) (by decide)) ..
  · exact h.parts ..
  · exact FireCount.bump (h.parts ..) (by decide)
  · unfold fireSeg
    dsimp only
    split
    · exact h
    · split
      · exact FireCount.fireSegFx (h.parts ..) ..
      · exact FireCount.bump (FireCount.bump (h.parts ..) (by decide)) (by decide)
  · unfold fireSpDrain
    dsimp only
    exact FireCount.parts (FireCount.bump (h.parts ..) (by decide)) ..

theorem FireCount.unitFire {v : Nat} {t : Tile} (h : FireCount v t) (env : TileEnv) (e : TabEntry) (a b : Opd)
    (r : VecOut × ArrayUnit) (slots : List Nat) : FireCount v (unitFire env e a b r slots t) := by
  unfold Machine.unitFire
  split_ifs
  · unfold fireMove; split
    · exact h
    · exact h.parts ..
  · exact h.fireArray ..
  · exact h.fireSparse ..
  · unfold fireVector
    dsimp only
    exact FireCount.parts (h.bump (by decide)) ..

theorem FireCount.fireEffects {v : Nat} {t : Tile} (h : FireCount v t) (env : TileEnv) (u : Upset) (e : TabEntry)
    (a b : Opd) : FireCount v (fireEffects env u e a b t) := by
  have h0 : FireCount v (creditTile e (upsetTile env u e t)) :=
    h.of_ctr (upsetTile_proj (·.ctr) (fun _ _ => rfl) (fun _ _ => rfl) env u e t)
  have h2 : ∀ (l : List Nat) (q : Tile) (n : Nat), (l.foldl (popSrc n) q).ctr = q.ctr := by
    intro l
    induction l with
    | nil => intros; rfl
    | cons a l ih =>
      intro q n
      rw [List.foldl_cons, ih]
      unfold popSrc; split
      · rfl
      · split <;> rfl
  unfold Machine.fireEffects
  dsimp only
  refine FireCount.of_ctr (FireCount.unitFire h0 env e a b (vecResult env e a b (upsetTile env u e t))
    (unitSlots env e a b (upsetTile env u e t))) ?_
  unfold afterUnit semApply
  dsimp only
  rw [h2]
  rfl

theorem applyCtl_ctr (t : Tile) (e : TabEntry) : (applyCtl t e).ctr = t.ctr := by
  unfold applyCtl
  dsimp only
  split <;> try rfl
  · split
    · rfl
    · rfl
  · split <;> rfl

/-- A firing counts one fire (R35, R36). -/
theorem fireTile_count {v : Nat} {t : Tile} (h : FireCount v t) (env : TileEnv) (u : Upset) (e : TabEntry) :
    ctrVal (fireTile env u e t) .fire = min (v + 1) ctrMax := by
  have hc : FireCount v (countCycle env e (fireEffects env u e (upsetOpd u (eSrca e) (readSrc t e (eSrca e)))
      (upsetOpd u (eSrcb e) (readSrc t e (eSrcb e))) t)) := by
    unfold countCycle
    dsimp only
    exact FireCount.parts (((FireCount.fireEffects h ..).bump (by decide)).bump (by decide)) ..
  unfold fireTile
  dsimp only
  generalize countCycle env e _ = q at hc
  unfold ctrVal
  rw [applyCtl_ctr]
  change mget 0 (bump env.core .fire 1 q).ctr _ = _
  rw [bump_ctr, mget_mset hc.1, hc.2]

/-- Every row of the tab family is the tab command of the entries it names. -/
theorem exec_tabRows : ∀ row ∈ tabRows, ∀ (t : TileId) (u : Upset) (s : State),
    exec (row.1 t u) s = tabCommand row.2 t u s := by
  unfold tabRows ctlRows arrayRows sparseRows vectorRows otherRows
  simp only [List.map_cons, List.map_nil, List.cons_append, List.nil_append]
  simp only [List.forall_mem_cons, List.not_mem_nil, false_implies, implies_true, and_true]
  refine ⟨?_, ?_⟩ <;> intros
  · rfl
  · repeat' apply And.intro
    all_goals intros; rfl

end Sys2Proof.Machine
end

