-- ==== Sys2Proof/Laws/Memory.lean ====
section
/-!
SUPPORT. Laws/Memory: stack memory: reading what was written, and the canonical form that every operation on it keeps.
-/
namespace Sys2Proof.Machine

/-! ## Reading after writing -/

theorem memPut_wf {m : List Host.Cell} (a : Nat) (bs : List Byte) (w : Memory.wf m) : Memory.wf (memPut m a bs) := by
  induction bs generalizing m a with
  | nil => exact w
  | cons b bs ih => exact ih (a + 1) (mwf_mset w)

/-- A write leaves every other byte. -/
theorem memByte_memPut_ne {m : List Host.Cell} {a k : Nat} {bs : List Byte} (w : Memory.wf m)
    (h : k < a ∨ a + bs.length ≤ k) : memByte (memPut m a bs) k = memByte m k := by
  induction bs generalizing m a with
  | nil => rfl
  | cons b bs ih =>
    have hl : (b :: bs).length = bs.length + 1 := rfl
    have hn : k ≠ a := by omega
    have hr : k < a + 1 ∨ a + 1 + bs.length ≤ k := by omega
    rw [memPut, ih (mwf_mset w) hr]
    exact mget_mset_ne w hn

/-- A byte of a run reads as it was written. -/
theorem memByte_memPut {m : List Host.Cell} {a i : Nat} {bs : List Byte} (w : Memory.wf m) (h : i < bs.length) :
    memByte (memPut m a bs) (a + i) = bs[i] := by
  induction bs generalizing m a i with
  | nil => simp at h
  | cons b bs ih =>
    cases i with
    | zero =>
      rw [memPut, memByte_memPut_ne (mwf_mset w) (by omega)]
      exact mget_mset w
    | succ i =>
      have := ih (m := mset 0 m a b) (a := a + 1) (i := i) (mwf_mset w) (by simpa using h)
      rw [memPut, show a + (i + 1) = a + 1 + i by omega, this]
      rfl

/-! ## The invariant under the shared operations -/

/-- States that agree on everything the invariant reads. -/
theorem Inv.of_eq {s t : State} (w : Inv s) (h1 : t.tiles = s.tiles) (h2 : t.spines = s.spines) (h3 : t.stk = s.stk)
    (h4 : t.parts = s.parts) (h5 : t.ports = s.ports) (h6 : t.power.dom = s.power.dom) : Inv t :=
  ⟨h1 ▸ w.tiles, h2 ▸ w.spines, h3 ▸ w.mem, h3 ▸ w.poison, h3 ▸ w.corrected, h4 ▸ w.parts, h5 ▸ w.ports, h6 ▸ w.doms⟩

theorem inv_tiles {s : State} (w : Inv s) (m : Tiles) (h : mwf {} m = true) : Inv { s with tiles := m } :=
  ⟨h, w.spines, w.mem, w.poison, w.corrected, w.parts, w.ports, w.doms⟩
theorem inv_spines {s : State} (w : Inv s) (m : SMap Spine) (h : mwf {} m = true) : Inv { s with spines := m } :=
  ⟨w.tiles, h, w.mem, w.poison, w.corrected, w.parts, w.ports, w.doms⟩
theorem inv_parts {s : State} (w : Inv s) (m : SMap Partition) (h : mwf {} m = true) : Inv { s with parts := m } :=
  ⟨w.tiles, w.spines, w.mem, w.poison, w.corrected, h, w.ports, w.doms⟩
theorem inv_ports {s : State} (w : Inv s) (m : SMap Port) (h : mwf {} m = true) : Inv { s with ports := m } :=
  ⟨w.tiles, w.spines, w.mem, w.poison, w.corrected, w.parts, h, w.doms⟩
theorem inv_stk {s : State} (w : Inv s) (k : Stacks) (h : Memory.wf k.mem) (h' : mwf false k.poison = true)
    (h'' : mwf false k.corrected = true) : Inv { s with stk := k } :=
  ⟨w.tiles, w.spines, h, h', h'', w.parts, w.ports, w.doms⟩

theorem inv_setTile {s : State} (w : Inv s) (x y : Nat) (t : Tile) : Inv (setTile s x y t) :=
  inv_tiles w _ (mwf_mset w.tiles)
theorem inv_modTile {s : State} (w : Inv s) (x y : Nat) (f : Tile → Tile) : Inv (modTile s x y f) := inv_setTile w x y _
theorem inv_modPart {s : State} (w : Inv s) (p : Nat) (f : Partition → Partition) : Inv (modPart s p f) :=
  inv_parts w _ (mwf_mmod w.parts)
theorem inv_modPort {s : State} (w : Inv s) (o : Nat) (f : Port → Port) : Inv (modPort s o f) :=
  inv_ports w _ (mwf_mmod w.ports)
theorem inv_modSpine {s : State} (w : Inv s) (n : Nat) (f : Spine → Spine) : Inv (modSpine s n f) :=
  inv_spines w _ (mwf_mmod w.spines)
theorem inv_modDom {s : State} (w : Inv s) (d : Nat) (f : Domain → Domain) : Inv (modDom d f s) :=
  ⟨w.tiles, w.spines, w.mem, w.poison, w.corrected, w.parts, w.ports, mwf_mmod w.doms⟩
theorem inv_advanceTo {s : State} (w : Inv s) (c : Nat) : Inv (advanceTo s c) := w.of_eq rfl rfl rfl rfl rfl rfl
theorem inv_sageRaise {s : State} (w : Inv s) (e : Ev) : Inv (sageRaise s e) := w.of_eq rfl rfl rfl rfl rfl rfl
theorem inv_sageEvent {s : State} (w : Inv s) (c : EvCode) (sub detail : Nat) (p d : Option Nat)
    (t : Option (Nat × Nat)) : Inv (sageEvent s c sub detail p d t) := w.of_eq rfl rfl rfl rfl rfl rfl
theorem inv_addHistory {s : State} (w : Inv s) (h : HistItem) : Inv (addHistory h s) := w.of_eq rfl rfl rfl rfl rfl rfl
theorem inv_lifeBump {s : State} (w : Inv s) (k n : Nat) : Inv (lifeBump k n s) := w.of_eq rfl rfl rfl rfl rfl rfl
theorem inv_mgmtAnswer {s : State} (w : Inv s) (a : MgmtOut) : Inv (mgmtAnswer a s) := w.of_eq rfl rfl rfl rfl rfl rfl

/-- What a step of a fold keeps, the fold keeps. -/
theorem inv_foldl {α : Type} {s : State} (w : Inv s) (l : List α) (f : State → α → State)
    (h : ∀ s a, Inv s → Inv (f s a)) : Inv (l.foldl f s) := by
  induction l generalizing s with
  | nil => exact w
  | cons a l ih => exact ih (h s a w)

theorem inv_closeEntries {s : State} (w : Inv s) (da : Nat) : Inv (closeEntries da s) := inv_modSpine w _ _
theorem inv_spineBump {s : State} (w : Inv s) (n off k : Nat) : Inv (spineBump n off k s) := inv_modSpine w _ _
theorem inv_spineEvent {s : State} (w : Inv s) (n : Nat) (c : EvCode) (sub detail : Nat) :
    Inv (spineEvent n c sub detail s) := inv_modSpine w _ _

theorem inv_writeChunk {s : State} (w : Inv s) (da : Nat) (d : Unit512) (b : Bool) : Inv (writeChunk da d b s) := by
  have c := inv_closeEntries w da
  unfold writeChunk
  dsimp only
  generalize closeEntries da s = t at c
  generalize bytesLE d.toNat 64 = bs
  exact inv_stk c _ (memPut_wf _ _ c.mem) (mwf_mset c.poison) (mwf_mset c.corrected)

theorem inv_writePart {s : State} (w : Inv s) (da off : Nat) (bs : List Byte) (b : Bool) (e : Ecc) (who : Nat) :
    Inv (writePart da off bs b e who s) := by
  have c := inv_closeEntries w da
  unfold writePart
  dsimp only
  split
  · have k := inv_spineBump c (da / 2 ^ 37) 0x48 1
    exact inv_stk k _ (memPut_wf _ _ k.mem) k.poison k.corrected
  · split
    · have k := inv_spineEvent (inv_spineBump c (da / 2 ^ 37) 0x40 1) (da / 2 ^ 37) .stackUncorrected
        (sliceOf (da % 2 ^ 37)) (da + who <<< 48)
      exact inv_stk k _ k.mem (mwf_mset k.poison) k.corrected
    · have fin : ∀ t : State, Inv t → Inv { t with stk := { t.stk with
          mem := memPut t.stk.mem (da + off) bs, poison := mset false t.stk.poison (da / 64) b
          corrected := mset false t.stk.corrected (da / 64) false } } :=
        fun t k => inv_stk k _ (memPut_wf _ _ k.mem) (mwf_mset k.poison) (mwf_mset k.corrected)
      split
      · have k := inv_spineEvent (inv_spineBump c (da / 2 ^ 37) 0x38 1) (da / 2 ^ 37) .stackCorrected
          (sliceOf (da % 2 ^ 37)) da
        split
        · exact fin _ (inv_spineEvent k _ _ _ _)
        · exact fin _ k
      · exact fin _ c

theorem inv_writeBytes {s : State} (w : Inv s) (da : Nat) (bs : List Byte) (b : Bool) (e : Ecc) (who : Nat) :
    Inv (writeBytes da bs b e who s) := by
  unfold writeBytes
  split
  · exact inv_writeChunk w _ _ _
  · exact inv_writePart w _ _ _ _ _ _

theorem inv_sliceServe {s : State} (w : Inv s) (n sl arr dur : Nat) : Inv (sliceServe n sl arr dur s).2 :=
  inv_modSpine (inv_spineBump w _ _ _) _ _

theorem inv_serveWrite {s : State} (w : Inv s) (da arr : Nat) (whole : Bool) : Inv (serveWrite da arr whole s) :=
  inv_sliceServe (inv_spineBump w _ _ _) _ _ _ _

theorem inv_putChunk {s : State} (w : Inv s) (da : Nat) (d : Unit512) (b : Bool) : Inv (putChunk da d b s) :=
  inv_writeChunk (inv_serveWrite w _ _ _) _ _ _

theorem inv_putTags {s : State} (w : Inv s) (da : Nat) (bs : List Byte) : Inv (putTags da bs s) :=
  inv_stk w _ (memPut_wf _ _ w.mem) (mwf_mset w.poison) w.corrected

theorem inv_putDiag {s : State} (w : Inv s) (n ofs : Nat) (bs : List Byte) : Inv (putDiag n ofs bs s) :=
  inv_stk w _ (memPut_wf _ _ w.mem) w.poison w.corrected

theorem inv_arriveRead {s : State} (w : Inv s) (n g arr : Nat) (rd : Reader) : Inv (arriveRead n g arr rd s) := by
  unfold arriveRead
  dsimp only
  split
  · exact inv_modSpine (inv_spineBump (inv_spineBump w _ _ _) _ _ _) _ _
  · split
    · exact inv_modSpine (inv_spineBump (inv_sliceServe (inv_spineBump w _ _ _) _ _ _ _) _ _ _) _ _
    · exact inv_modSpine (inv_spineBump (inv_spineBump (inv_sliceServe (inv_spineBump w _ _ _) _ _ _ _) _ _ _) _ _ _) _ _

theorem inv_clearRange {s : State} (w : Inv s) (lo hi : Nat) : Inv (clearRange lo hi s) :=
  inv_stk w _ (mwf_filter _ w.mem) (mwf_filter _ w.poison) (mwf_filter _ w.corrected)

theorem inv_wipeStack {s : State} (w : Inv s) (n k : Nat) : Inv (wipeStack n k s) :=
  inv_modSpine (inv_stk w _ (mwf_filter _ w.mem) (mwf_filter _ w.poison) (mwf_filter _ w.corrected)) _ _

/-! ## Reset -/

/-- Memory at reset has the canonical form. -/
theorem reset_mem : Memory.wf State.reset.stk.mem := by decide

end Sys2Proof.Machine
end

