-- ==== Sys2Proof/Laws/PerInstr.lean ====
section
/-!
SUPPORT. Laws/PerInstr: a well-formed command acts on no tile outside the largest logical grid, constructor by constructor.
-/
namespace Sys2Proof.Laws.TileBound

/-- The tile a well-formed command acts on lies in the grid of 1,024 columns and 384 rows (R7). -/
def Statement (i : Instr) : Prop := i.wf = true → ∀ t, i.tile? = some t → t.x < 1024 ∧ t.y < 384

/-- A command that acts on no tile. -/
theorem of_none {p : Prop} : p → ∀ t : TileId, none = some t → t.x < 1024 ∧ t.y < 384 := by simp

/-- A command whose tile is checked alone. -/
theorem of_tile (a : TileId) : a.wf = true → ∀ t : TileId, some a = some t → t.x < 1024 ∧ t.y < 384 := by
  rintro h t ⟨⟩
  simpa [TileId.wf] using h

/-- A command whose tile is checked before another operand. -/
theorem of_tile_and (a : TileId) (b : Bool) :
    (a.wf && b) = true → ∀ t : TileId, some a = some t → t.x < 1024 ∧ t.y < 384 :=
  fun h => of_tile a (Bool.and_eq_true_iff.mp h).1

theorem next (a0 : TileId) (a1 : Upset) : Statement (.next a0 a1) := of_tile a0
theorem setlc (a0 : TileId) (a1 : Upset) : Statement (.setlc a0 a1) := of_tile a0
theorem loop (a0 : TileId) (a1 : Upset) : Statement (.loop a0 a1) := of_tile a0
theorem jump (a0 : TileId) (a1 : Upset) : Statement (.jump a0 a1) := of_tile a0
theorem delay (a0 : TileId) (a1 : Upset) : Statement (.delay a0 a1) := of_tile a0
theorem delayExpiry (a0 : TileId) : Statement (.delayExpiry a0) := of_tile a0
theorem endTab (a0 : TileId) (a1 : Upset) : Statement (.endTab a0 a1) := of_tile a0
theorem tabMove (a0 : TileId) (a1 : Upset) : Statement (.tabMove a0 a1) := of_tile a0
theorem semWaitGe (a0 : TileId) (a1 : Upset) : Statement (.semWaitGe a0 a1) := of_tile a0
theorem semAdd (a0 : TileId) (a1 : Upset) : Statement (.semAdd a0 a1) := of_tile a0
theorem semSub (a0 : TileId) (a1 : Upset) : Statement (.semSub a0 a1) := of_tile a0
theorem semWaitGeSub (a0 : TileId) (a1 : Upset) : Statement (.semWaitGeSub a0 a1) := of_tile a0
theorem sem2Add (a0 : TileId) (a1 : Upset) : Statement (.sem2Add a0 a1) := of_tile a0
theorem sem2Sub (a0 : TileId) (a1 : Upset) : Statement (.sem2Sub a0 a1) := of_tile a0
theorem arrLoad (a0 : TileId) (a1 : Upset) : Statement (.arrLoad a0 a1) := of_tile a0
theorem arrLoadsc (a0 : TileId) (a1 : Upset) : Statement (.arrLoadsc a0 a1) := of_tile a0
theorem arrSwap (a0 : TileId) (a1 : Upset) : Statement (.arrSwap a0 a1) := of_tile a0
theorem mac (a0 : TileId) (a1 : Upset) : Statement (.mac a0 a1) := of_tile a0
theorem macHl (a0 : TileId) (a1 : Upset) : Statement (.macHl a0 a1) := of_tile a0
theorem macLh (a0 : TileId) (a1 : Upset) : Statement (.macLh a0 a1) := of_tile a0
theorem macHh (a0 : TileId) (a1 : Upset) : Statement (.macHh a0 a1) := of_tile a0
theorem macP20 (a0 : TileId) (a1 : Upset) : Statement (.macP20 a0 a1) := of_tile a0
theorem macP11 (a0 : TileId) (a1 : Upset) : Statement (.macP11 a0 a1) := of_tile a0
theorem macP02 (a0 : TileId) (a1 : Upset) : Statement (.macP02 a0 a1) := of_tile a0
theorem macP21 (a0 : TileId) (a1 : Upset) : Statement (.macP21 a0 a1) := of_tile a0
theorem macP12 (a0 : TileId) (a1 : Upset) : Statement (.macP12 a0 a1) := of_tile a0
theorem macP22 (a0 : TileId) (a1 : Upset) : Statement (.macP22 a0 a1) := of_tile a0
theorem arrDrain (a0 : TileId) (a1 : Upset) : Statement (.arrDrain a0 a1) := of_tile a0
theorem mode (a0 : TileId) (a1 : Upset) : Statement (.mode a0 a1) := of_tile a0
theorem arrayContributionLand (a0 : TileId) (a1 : Nat) : Statement (.arrayContributionLand a0 a1) := of_tile_and a0 _
theorem drainFlit (a0 : TileId) : Statement (.drainFlit a0) := of_tile a0
theorem spLoad (a0 : TileId) (a1 : Upset) : Statement (.spLoad a0 a1) := of_tile a0
theorem loadm (a0 : TileId) (a1 : Upset) : Statement (.loadm a0 a1) := of_tile a0
theorem spLoadsc (a0 : TileId) (a1 : Upset) : Statement (.spLoadsc a0 a1) := of_tile a0
theorem spSwap (a0 : TileId) (a1 : Upset) : Statement (.spSwap a0 a1) := of_tile a0
theorem mac24 (a0 : TileId) (a1 : Upset) : Statement (.mac24 a0 a1) := of_tile a0
theorem mac24Land (a0 : TileId) (a1 : Nat) : Statement (.mac24Land a0 a1) := of_tile_and a0 _
theorem gload (a0 : TileId) (a1 : Upset) : Statement (.gload a0 a1) := of_tile a0
theorem beginStep (a0 : TileId) (a1 : Upset) : Statement (.beginStep a0 a1) := of_tile a0
theorem seg (a0 : TileId) (a1 : Upset) : Statement (.seg a0 a1) := of_tile a0
theorem segLand (a0 : TileId) (a1 : Nat) : Statement (.segLand a0 a1) := of_tile_and a0 _
theorem fallbackFetch (a0 : TileId) (a1 : Ecc) : Statement (.fallbackFetch a0 a1) := of_tile a0
theorem fallbackChunkIssue (a0 : TileId) : Statement (.fallbackChunkIssue a0) := of_tile a0
theorem sparseStepComplete (a0 : TileId) : Statement (.sparseStepComplete a0) := of_tile a0
theorem spDrain (a0 : TileId) (a1 : Upset) : Statement (.spDrain a0 a1) := of_tile a0
theorem vmov (a0 : TileId) (a1 : Upset) : Statement (.vmov a0 a1) := of_tile a0
theorem vadd (a0 : TileId) (a1 : Upset) : Statement (.vadd a0 a1) := of_tile a0
theorem vsub (a0 : TileId) (a1 : Upset) : Statement (.vsub a0 a1) := of_tile a0
theorem vmul (a0 : TileId) (a1 : Upset) : Statement (.vmul a0 a1) := of_tile a0
theorem vmin (a0 : TileId) (a1 : Upset) : Statement (.vmin a0 a1) := of_tile a0
theorem vmax (a0 : TileId) (a1 : Upset) : Statement (.vmax a0 a1) := of_tile a0
theorem vabs (a0 : TileId) (a1 : Upset) : Statement (.vabs a0 a1) := of_tile a0
theorem vneg (a0 : TileId) (a1 : Upset) : Statement (.vneg a0 a1) := of_tile a0
theorem vcmpgt (a0 : TileId) (a1 : Upset) : Statement (.vcmpgt a0 a1) := of_tile a0
theorem vcmpeq (a0 : TileId) (a1 : Upset) : Statement (.vcmpeq a0 a1) := of_tile a0
theorem vand (a0 : TileId) (a1 : Upset) : Statement (.vand a0 a1) := of_tile a0
theorem vor (a0 : TileId) (a1 : Upset) : Statement (.vor a0 a1) := of_tile a0
theorem vxor (a0 : TileId) (a1 : Upset) : Statement (.vxor a0 a1) := of_tile a0
theorem vshl (a0 : TileId) (a1 : Upset) : Statement (.vshl a0 a1) := of_tile a0
theorem vshr (a0 : TileId) (a1 : Upset) : Statement (.vshr a0 a1) := of_tile a0
theorem vrcp (a0 : TileId) (a1 : Upset) : Statement (.vrcp a0 a1) := of_tile a0
theorem vrsqrt (a0 : TileId) (a1 : Upset) : Statement (.vrsqrt a0 a1) := of_tile a0
theorem vexp2 (a0 : TileId) (a1 : Upset) : Statement (.vexp2 a0 a1) := of_tile a0
theorem vlog2 (a0 : TileId) (a1 : Upset) : Statement (.vlog2 a0 a1) := of_tile a0
theorem vrsum (a0 : TileId) (a1 : Upset) : Statement (.vrsum a0 a1) := of_tile a0
theorem vrmax (a0 : TileId) (a1 : Upset) : Statement (.vrmax a0 a1) := of_tile a0
theorem cvtW (a0 : TileId) (a1 : Upset) : Statement (.cvtW a0 a1) := of_tile a0
theorem cvtN (a0 : TileId) (a1 : Upset) : Statement (.cvtN a0 a1) := of_tile a0
theorem cvtNb (a0 : TileId) (a1 : Upset) : Statement (.cvtNb a0 a1) := of_tile a0
theorem packScl (a0 : TileId) (a1 : Upset) : Statement (.packScl a0 a1) := of_tile a0
theorem packMsk (a0 : TileId) (a1 : Upset) : Statement (.packMsk a0 a1) := of_tile a0
theorem cvtWb (a0 : TileId) (a1 : Upset) : Statement (.cvtWb a0 a1) := of_tile a0
theorem cmp24p (a0 : TileId) (a1 : Upset) : Statement (.cmp24p a0 a1) := of_tile a0
theorem cmp24f (a0 : TileId) (a1 : Upset) : Statement (.cmp24f a0 a1) := of_tile a0
theorem cmpSeg (a0 : TileId) (a1 : Upset) : Statement (.cmpSeg a0 a1) := of_tile a0
theorem cmpFlush (a0 : TileId) (a1 : Upset) : Statement (.cmpFlush a0 a1) := of_tile a0
theorem cmpCount (a0 : TileId) (a1 : Upset) : Statement (.cmpCount a0 a1) := of_tile a0
theorem cmpReset (a0 : TileId) (a1 : Upset) : Statement (.cmpReset a0 a1) := of_tile a0
theorem vectorV6 (a0 : TileId) (a1 : Nat) : Statement (.vectorV6 a0 a1) := of_tile_and a0 _
theorem extMark (a0 : TileId) : Statement (.extMark a0) := of_tile a0
theorem nonTabWriteGrant (a0 : TileId) : Statement (.nonTabWriteGrant a0) := of_tile a0
theorem fillblockLand (a0 : TileId) : Statement (.fillblockLand a0) := of_tile a0
theorem packetReadClaim (a0 : TileId) : Statement (.packetReadClaim a0) := of_tile a0
theorem packetReadGrant (a0 : TileId) (a1 : Ecc) : Statement (.packetReadGrant a0 a1) := of_tile a0
theorem bulkSlotWrite (a0 : TileId) (a1 : Ecc) : Statement (.bulkSlotWrite a0 a1) := of_tile a0
theorem accumulateWriteArrival (a0 : TileId) : Statement (.accumulateWriteArrival a0) := of_tile a0
theorem cbIdleDrain (a0 : TileId) : Statement (.cbIdleDrain a0) := of_tile a0
theorem cbDrain (a0 : TileId) : Statement (.cbDrain a0) := of_tile a0
theorem wwrite (a0 : TileId) : Statement (.wwrite a0) := of_tile a0
theorem mread (a0 : TileId) : Statement (.mread a0) := of_tile a0
theorem mcmd (a0 : TileId) : Statement (.mcmd a0) := of_tile a0
theorem resp (a0 : RespTake) : Statement (.resp a0) := of_none
theorem cfgw (a0 : TileId) : Statement (.cfgw a0) := of_tile a0
theorem queueFlitArrival (a0 : TileId) (a1 : FlitIn) : Statement (.queueFlitArrival a0 a1) := of_tile a0
theorem mergeQueueGrant (a0 : TileId) (a1 : Fin 8) : Statement (.mergeQueueGrant a0 a1) := of_tile a0
theorem peerReset (a0 : TileId) : Statement (.peerReset a0) := of_tile a0
theorem scalarSignal (a0 : TileId) : Statement (.scalarSignal a0) := of_tile a0
theorem scalarRegisterWrite (a0 : TileId) : Statement (.scalarRegisterWrite a0) := of_tile a0
theorem stallTimeout (a0 : TileId) : Statement (.stallTimeout a0) := of_tile a0
theorem managementTick (a0 : Meters) : Statement (.managementTick a0) := of_none
theorem sectionDeadlock (a0 : Fin 4) : Statement (.sectionDeadlock a0) := of_none
theorem endedReduction (a0 : Fin 4) : Statement (.endedReduction a0) := of_none
theorem haltWave (a0 : TileId) : Statement (.haltWave a0) := of_tile a0
theorem flitHop (a0 : TileId) (a1 : FlitIn) (a2 : Upset) : Statement (.flitHop a0 a1 a2) := of_tile a0
theorem course5Aged (a0 : TileId) (a1 : Dir) : Statement (.course5Aged a0 a1) := of_tile a0
theorem hopCreditReturn (a0 : TileId) (a1 : Dir) (a2 : Fin 7) : Statement (.hopCreditReturn a0 a1 a2) := of_tile a0
theorem windowTokenReturn (a0 : TileId) (a1 : Fin 9) : Statement (.windowTokenReturn a0 a1) := of_tile a0
theorem retryRequest (a0 : TileId) (a1 : Dir) (a2 : Net) : Statement (.retryRequest a0 a1 a2) := of_tile a0
theorem linkFail (a0 : TileId) (a1 : Dir) : Statement (.linkFail a0 a1) := of_tile a0
theorem packetHop (a0 : PktSrc) : Statement (.packetHop a0) :=
  match a0 with
  | .ring t => of_tile t
  | .fret t _ _ => of_tile t
theorem wireSteer (a0 : WireGroup) : Statement (.wireSteer a0) := of_none
theorem cxlMemRead (a0 : Fin 4) (a1 : Nat) (a2 : Bool) : Statement (.cxlMemRead a0 a1 a2) := of_none
theorem cxlMemWrite (a0 : Fin 4) (a1 : HostWrite) : Statement (.cxlMemWrite a0 a1) := of_none
theorem dramReadReturn (a0 : Fin 48) (a1 : Fin 64) (a2 : ChunkEcc) : Statement (.dramReadReturn a0 a1 a2) := of_none
theorem mergeEntryExpiry (a0 : Fin 48) (a1 : Fin 64) : Statement (.mergeEntryExpiry a0 a1) := of_none
theorem refreshPhase (a0 : List ScrubFind) : Statement (.refreshPhase a0) := of_none
theorem stackStreamStart (a0 : Fin 48) (a1 : Fin 64) : Statement (.stackStreamStart a0 a1) := of_none
theorem stackStreamPacket (a0 : Fin 48) (a1 : Fin 64) : Statement (.stackStreamPacket a0 a1) := of_none
theorem eventRecord (a0 : EvSrc) : Statement (.eventRecord a0) := of_none
theorem load (a0 : Fin 4) : Statement (.load a0) := of_none
theorem restore (a0 : Fin 4) : Statement (.restore a0) := of_none
theorem finish (a0 : Fin 4) : Statement (.finish a0) := of_none
theorem drainStart (a0 : Fin 4) : Statement (.drainStart a0) := of_none
theorem drainSample (a0 : Fin 4) : Statement (.drainSample a0) := of_none
theorem spillsComplete (a0 : Fin 4) : Statement (.spillsComplete a0) := of_none
theorem checkpointCaptureComplete (a0 : Fin 4) : Statement (.checkpointCaptureComplete a0) := of_none
theorem forcedPathInflightClear (a0 : Fin 4) : Statement (.forcedPathInflightClear a0) := of_none
theorem imageLoadComplete (a0 : Fin 4) : Statement (.imageLoadComplete a0) := of_none
theorem release (a0 : Fin 4) : Statement (.release a0) := of_none
theorem replayNextLoad (a0 : Fin 4) : Statement (.replayNextLoad a0) := of_none
theorem tileFault (a0 : TileId) (a1 : Fin 5) : Statement (.tileFault a0 a1) := of_tile a0
theorem repairHistoryWritten (a0 : Fin 4) : Statement (.repairHistoryWritten a0) := of_none
theorem remapCommitted (a0 : Fin 4) : Statement (.remapCommitted a0) := of_none
theorem selftestComplete (a0 : TestResult) : Statement (.selftestComplete a0) := of_none
theorem selftestOverdue (a0 : Fin 4) : Statement (.selftestOverdue a0) := of_none
theorem spareTileTest (a0 : Fin 48) (a1 : List (Nat × Nat)) : Statement (.spareTileTest a0 a1) := of_none
theorem markedUnitRetest (a0 : DefectRec) (a1 : Bool) : Statement (.markedUnitRetest a0 a1) := of_none
theorem sensorCalibration : Statement (.sensorCalibration) := of_none
theorem historyCounterWrite : Statement (.historyCounterWrite) := of_none
theorem syslogSummary : Statement .syslogSummary := of_none
theorem reportLost : Statement (.reportLost) := of_none
theorem partitionQuery (a0 : MailCmd) : Statement (.partitionQuery a0) := of_none
theorem policySet (a0 : MailCmd) : Statement (.policySet a0) := of_none
theorem submitList (a0 : MailCmd) (a1 : Option (List (BitVec 512))) : Statement (.submitList a0 a1) := of_none
theorem eventRead (a0 : MailCmd) : Statement (.eventRead a0) := of_none
theorem tileRead (a0 : MailCmd) : Statement (.tileRead a0) := of_none
theorem spineRead (a0 : MailCmd) : Statement (.spineRead a0) := of_none
theorem stallMap (a0 : MailCmd) : Statement (.stallMap a0) := of_none
theorem sectionRead (a0 : MailCmd) : Statement (.sectionRead a0) := of_none
theorem diagRead (a0 : MailCmd) : Statement (.diagRead a0) := of_none
theorem selftest (a0 : MailCmd) : Statement (.selftest a0) := of_none
theorem attest (a0 : MailCmd) : Statement (.attest a0) := of_none
theorem ideKey (a0 : MailCmd) : Statement (.ideKey a0) := of_none
theorem detach (a0 : MailCmd) : Statement (.detach a0) := of_none
theorem detachTimeout (a0 : Fin 4) : Statement (.detachTimeout a0) := of_none
theorem attach (a0 : MailCmd) : Statement (.attach a0) := of_none
theorem recBegin (a0 : MailCmd) : Statement (.recBegin a0) := of_none
theorem recData (a0 : MailCmd) : Statement (.recData a0) := of_none
theorem recCommit (a0 : MailCmd) : Statement (.recCommit a0) := of_none
theorem listStart (a0 : Fin 4) (a1 : Engine) : Statement (.listStart a0 a1) := of_none
theorem entryComplete (a0 : Fin 4) (a1 : Engine) : Statement (.entryComplete a0 a1) := of_none
theorem h2s (a0 : Fin 4) : Statement (.h2s a0) := of_none
theorem s2h (a0 : Fin 4) : Statement (.s2h a0) := of_none
theorem s2s (a0 : Fin 4) : Statement (.s2s a0) := of_none
theorem img (a0 : Fin 4) : Statement (.img a0) := of_none
theorem h2t (a0 : Fin 4) : Statement (.h2t a0) := of_none
theorem s2t (a0 : Fin 4) : Statement (.s2t a0) := of_none
theorem t2h (a0 : Fin 4) : Statement (.t2h a0) := of_none
theorem t2s (a0 : Fin 4) : Statement (.t2s a0) := of_none
theorem tcmd (a0 : Fin 4) : Statement (.tcmd a0) := of_none
theorem confirmPoll (a0 : Fin 4) : Statement (.confirmPoll a0) := of_none
theorem entryTimeout (a0 : Fin 4) : Statement (.entryTimeout a0) := of_none
theorem arm (a0 : Fin 4) : Statement (.arm a0) := of_none
theorem disarm (a0 : Fin 4) : Statement (.disarm a0) := of_none
theorem cxlCacheResponse (a0 : Fin 4) (a1 : CacheResp) : Statement (.cxlCacheResponse a0 a1) := of_none
theorem cxlCacheTimeout (a0 : Fin 4) : Statement (.cxlCacheTimeout a0) := of_none
theorem birsp (a0 : Fin 4) (a1 : Nat) (a2 : WriteBack) : Statement (.birsp a0 a1 a2) := of_none
theorem hostSnoop (a0 : Fin 4) (a1 : Nat) : Statement (.hostSnoop a0 a1) := of_none
theorem hdmDecoderCommit (a0 : Fin 4) (a1 : Nat) (a2 : Nat) (a3 : Nat) : Statement (.hdmDecoderCommit a0 a1 a2 a3) := of_none
theorem ideEnable (a0 : Fin 4) (a1 : Fin 2) : Statement (.ideEnable a0 a1) := of_none
theorem ideIntegrityFail (a0 : Fin 4) : Statement (.ideIntegrityFail a0) := of_none
theorem cdatRead (a0 : Fin 4) : Statement (.cdatRead a0) := of_none
theorem registerWrite (a0 : Fin 4) (a1 : Nat) (a2 : BitVec 64) : Statement (.registerWrite a0 a1 a2) := of_none
theorem functionLevelReset (a0 : Fin 4) : Statement (.functionLevelReset a0) := of_none
theorem linkUp (a0 : Fin 4) (a1 : LinkTrain) : Statement (.linkUp a0 a1) := of_none
theorem hostLinkDown (a0 : Fin 4) : Statement (.hostLinkDown a0) := of_none
theorem linkDownTimeout (a0 : Fin 4) : Statement (.linkDownTimeout a0) := of_none
theorem keyPairExpiry (a0 : Fin 4) : Statement (.keyPairExpiry a0) := of_none
theorem partitionSet (a0 : List PartDef) (a1 : Bool) : Statement (.partitionSet a0 a1) := of_none
theorem capoSettings (a0 : CapoReq) : Statement (.capoSettings a0) := of_none
theorem redfishPolicySet (a0 : Fin 4) (a1 : PolicyReq) (a2 : Option Bool) : Statement (.redfishPolicySet a0 a1 a2) := of_none
theorem redfishSelftest (a0 : Fin 4) (a1 : TestReq) : Statement (.redfishSelftest a0 a1) := of_none
theorem firmwareUpdate (a0 : List Byte) : Statement (.firmwareUpdate a0) := of_none
theorem computerSystemReset (a0 : Bool) : Statement (.computerSystemReset a0) := of_none
theorem commitVersion : Statement (.commitVersion) := of_none
theorem enterRecovery : Statement (.enterRecovery) := of_none
theorem prepareRemoval (a0 : Bool) : Statement (.prepareRemoval a0) := of_none
theorem devidCertWrite (a0 : List Byte) : Statement (.devidCertWrite a0) := of_none
theorem recoveryImagePut (a0 : List Byte) : Statement (.recoveryImagePut a0) := of_none
theorem recoveryStatusGet : Statement (.recoveryStatusGet) := of_none
theorem chPrsntLow : Statement (.chPrsntLow) := of_none
theorem chPrsntHigh : Statement (.chPrsntHigh) := of_none
theorem auxPowerStable (a0 : FuseSense) : Statement (.auxPowerStable a0) := of_none
theorem mainPowerEnable (a0 : StartupResult) : Statement (.mainPowerEnable a0) := of_none
theorem epoAssert : Statement (.epoAssert) := of_none
theorem flowInterlockClose : Statement (.flowInterlockClose) := of_none
theorem flowInterlockOpen : Statement (.flowInterlockOpen) := of_none
theorem coolantLow (a0 : CoolantCause) : Statement (.coolantLow a0) := of_none
theorem supplyFault (a0 : SupplyCause) : Statement (.supplyFault a0) := of_none
theorem thermalTrip (a0 : Nat) (a1 : Nat) : Statement (.thermalTrip a0 a1) := of_none
theorem quadrantTrip (a0 : Fin 48) (a1 : Fin 4) : Statement (.quadrantTrip a0 a1) := of_none
theorem quadrantOff (a0 : Fin 48) (a1 : Fin 4) : Statement (.quadrantOff a0 a1) := of_none
theorem droopTrip (a0 : Fin 48) (a1 : Fin 4) : Statement (.droopTrip a0 a1) := of_none
theorem dividerRampStep (a0 : Nat) : Statement (.dividerRampStep a0) := of_none
theorem sageLockstep (a0 : LockstepCause) : Statement (.sageLockstep a0) := of_none
theorem tabMoveLand (a0 : TileId) : Statement (.tabMoveLand a0) := of_tile a0
theorem fallbackChunkLand (a0 : TileId) (a1 : Nat) : Statement (.fallbackChunkLand a0 a1) := of_tile_and a0 _
theorem powerSwitchRamp (a0 : Nat) : Statement (.powerSwitchRamp a0) := of_none
theorem bridgeWireTuning (a0 : WireGroup) (a1 : Bool) : Statement (.bridgeWireTuning a0 a1) := of_none
theorem stackFailure (a0 : Fin 48) (a1 : Fin 2) : Statement (.stackFailure a0 a1) := of_none
theorem ringFailure : Statement (.ringFailure) := of_none
theorem unknownOpcode (a0 : MailCmd) (a1 : BitVec 16) : Statement (.unknownOpcode a0 a1) := of_none

end Sys2Proof.Laws.TileBound
end

