-- ==== Sys2Proof/Laws/Vectors.lean ====
section
/-!
SUPPORT. Laws/Vectors: what an MSI-X vector and a completion record do to a port (R358, R360).
-/

namespace Sys2Proof.Machine

variable (q : Port) (v : Nat)

@[simp] theorem putVector_out : (putVector v q).out = q.out ++ vecOut q v := rfl
@[simp] theorem putVector_pend : (putVector v q).msixPend = vecPend q v := rfl
@[simp] theorem putVector_mask : (putVector v q).msixMask = q.msixMask := rfl
@[simp] theorem putVector_up : (putVector v q).up = q.up := rfl

/-- A vector is sent and no pending bit changes, or nothing is sent and its pending bit is set. -/
theorem putVector_cases :
    (bit q.msixMask.toNat v = false ∧ putVector v q = { q with out := q.out ++ [.vector v] }) ∨
    (bit q.msixMask.toNat v = true ∧ putVector v q = { q with msixPend := q.msixPend ||| BitVec.ofNat 32 (2 ^ v) }) := by
  by_cases h : bit q.msixMask.toNat v = true
  · exact .inr ⟨h, by simp [putVector, vecOut, vecPend, h]⟩
  · simp only [Bool.not_eq_true] at h
    exact .inl ⟨h, by simp [putVector, vecOut, vecPend, h]⟩

/-- A completion record goes out before its vector, and the masks stay. -/
theorem putCompl_out (k : Completion) : (putCompl k q).out =
    q.out ++ .write k.addr (bytesLE k.record.toNat 32) false :: k.vec.toList.flatMap (vecOut q) := by
  rcases hk : k.vec with _ | w <;> simp [putCompl, hk, vecOut]

@[simp] theorem putCompl_mask (k : Completion) : (putCompl k q).msixMask = q.msixMask := by
  rcases hk : k.vec with _ | w <;> simp [putCompl, hk]

end Sys2Proof.Machine
end

