-- ==== Sys2Proof/Tests/Slice0.lean ====
section
/-!
SUPPORT. Tests/Slice0: terms that WellFormed refuses; worked examples of the spec, with the expected values the spec prints;
and for each statement that has hypotheses a state and operands that meet them, clause by clause.
-/

set_option Elab.async false
open Sys2Proof Sys2Proof.Machine

/-! ## Small states -/

def ent (l : List (Nat × Nat)) : TabEntry := BitVec.ofNat 128 (l.foldl (fun a p => a + p.2 * 2 ^ p.1) 0)
/-- Source A, source B or both from the read port; the write port into CUR. -/
def srcA : List (Nat × Nat) := [(86, 1), (70, 1)]
def srcB : List (Nat × Nat) := [(82, 1), (70, 1)]
def srcAB : List (Nat × Nat) := (82, 1) :: srcA
def toMu : List (Nat × Nat) := [(76, 1), (66, 1)]
def arrE (k f : Nat) (l : List (Nat × Nat)) : TabEntry := ent ([(104, 1), (100, k), (94, f)] ++ l)
def spE (k f : Nat) (l : List (Nat × Nat)) : TabEntry := ent ([(104, 2), (100, k), (94, f)] ++ l)
def vecE (op f : Nat) (l : List (Nat × Nat)) : TabEntry := ent ([(104, 3), (98, op), (94, f)] ++ l)
def ctlE (k : Nat) (l : List (Nat × Nat) := []) : TabEntry := ent ((124, k) :: l)

/-- Tile (0, 0), its tab running with one entry at PC, both banks of both engines valid in one format. -/
def at0 : TileId := ⟨0, 0⟩
def runTile (f : Nat) (e : TabEntry) : Tile :=
  { tab := { st := .running, mem := mset 0 [] 0 e, tc := 100, nextCore := 1000, lc := [(0, 2)] }
    arr := { active := { valid := true, fmt := BitVec.ofNat 4 f }, shadow := { valid := true, fmt := BitVec.ofNat 4 f } }
    sp := { active := { valid := true, fmt := BitVec.ofNat 4 f }, shadow := { valid := true, fmt := BitVec.ofNat 4 f }
            gfmt := BitVec.ofNat 4 f }
    mu := { slots := [(0, { data := 7, full := true })], sems := [(0, { val := 5, cap := 9 }), (1, { val := 5, cap := 9 })] } }
def onTile0 (tl : Tile) (s : State := State.reset) : State := withTile s at0 tl

/-- The hypotheses of Fires as one Boolean. -/
def firesB (s : State) (u : Upset) (e : TabEntry) : Bool :=
  tileExists s at0 && mwf {} s.tiles && issuing (tileOf s at0) && decide (curEntry (tileOf s at0) = e)
  && tabFires (envOf s at0) u (tileOf s at0)

theorem firesB_fires {s : State} {u : Upset} {e : TabEntry} (h : firesB s u e = true) : Fires s at0 u e := by
  simp only [firesB, Bool.and_eq_true, decide_eq_true_eq] at h
  exact ⟨⟨h.1.1.1.1, h.1.1.1.2, h.1.1.2, h.1.2⟩, h.2⟩

def desc : Unit512 := BitVec.ofNat 512 (1 + 2 ^ 16 + 16 * 2 ^ 24 + 3 * 2 ^ 56)
/-- An open sparse step. -/
def openStep (fallback : Bool) : SpStep :=
  { fallback := fallback, budget := 2, rows := 1, kt := 16, dbase := 0, fmt := 3, semid := 0, count := 1, begun := 5 }
def withStep (t : Tile) : Tile := { t with sp := { t.sp with step := some (openStep false) } }
def withDesc (t : Tile) : Tile := { t with mu := { t.mu with
  queues := [(0, { st := .open_, flits := [{ data := desc, poison := false, epoch := 0, last := false, str := ⟨0, 0, 0⟩, num := 0 }] })] } }

/-- A tile for each row of tabRows whose entry fires. -/
def rowTiles : List Tile :=
  [runTile 4 (ctlE 0), runTile 4 (ctlE 1 [(106, 3)]), runTile 4 (ctlE 2), runTile 4 (ctlE 3 [(106, 9)]),
   runTile 4 (ctlE 4 [(106, 3)]), runTile 4 (ctlE 5)]
  ++ [runTile 4 (arrE 1 4 srcB), runTile 4 (arrE 2 13 srcB), runTile 4 (arrE 3 0 []), runTile 4 (arrE 4 4 srcA)]
  ++ [5, 6, 7].map (fun k => runTile 2 (arrE k 2 srcA)) ++ [8, 9, 10, 11, 12, 13].map (fun k => runTile 1 (arrE k 1 srcA))
  ++ [runTile 4 (arrE 14 0 toMu), runTile 4 (arrE 15 0 [])]
  ++ [runTile 4 (spE 1 4 srcB), runTile 4 (spE 2 0 srcB), runTile 4 (spE 3 13 srcB), runTile 4 (spE 4 0 []),
      runTile 4 (spE 5 4 srcA), runTile 4 (spE 6 4 srcB), withDesc (runTile 3 (spE 7 0 (srcA ++ [(82, 8), (80, 1)]))),
      withStep (runTile 4 (spE 8 0 srcA)), runTile 4 (spE 9 0 toMu)]
  ++ [runTile 4 (vecE 1 0 (srcA ++ toMu))]
  ++ [2, 3, 4, 5, 6].map (fun k => runTile 4 (vecE k 1 (srcAB ++ toMu)))
  ++ [7, 8].map (fun k => runTile 4 (vecE k 1 (srcA ++ toMu)))
  ++ [9, 10].map (fun k => runTile 4 (vecE k 1 (srcAB ++ toMu)))
  ++ [11, 12, 13].map (fun k => runTile 4 (vecE k 0 (srcAB ++ toMu)))
  ++ [14, 15].map (fun k => runTile 4 (vecE k 12 (srcAB ++ toMu)))
  ++ [16, 17, 18, 19, 20, 21].map (fun k => runTile 4 (vecE k 1 (srcA ++ toMu)))
  ++ [runTile 4 (vecE 0x20 4 (srcA ++ toMu)), runTile 4 (vecE 0x21 4 srcAB), runTile 4 (vecE 0x22 0 toMu),
      runTile 4 (vecE 0x23 0 toMu), runTile 4 (vecE 0x30 4 (srcAB ++ toMu)), runTile 4 (vecE 0x31 4 srcAB),
      runTile 4 (vecE 0x38 3 (srcA ++ [(76, 1), (66, 2)])), runTile 4 (vecE 0x39 0 [(76, 1), (66, 2)]),
      runTile 4 (vecE 0x3A 0 toMu), runTile 4 (vecE 0x3B 0 [])]
  ++ [1, 2, 3, 4].map (fun k => runTile 4 (ent [(61, k), (39, 3)])) ++ [1, 2].map (fun k => runTile 4 (ent [(37, k), (31, 1), (23, 3)]))
  ++ [runTile 4 (ent (srcA ++ toMu)), runTile 4 (vecE 0x18 4 (srcA ++ toMu)), runTile 4 (vecE 0x28 4 (srcAB ++ toMu))]

/-! ## WellFormed -/

def farTile : TileId := ⟨1024, 0⟩
def belowTile : TileId := ⟨0, 384⟩
def noMeters : Meters := { dom := [], pin := 0, tin := 0, tout := 0, flow := 0, temps := [], silent := [], collector := true }
def noMail : MailCmd := { port := 0, len := 0, irq := false, req := [] }
def noWrite : HostWrite := { hpa := 0, data := 0, mask := 0, poison := false, e := .clean }

/-- A term that is ill-formed for each check of WellFormed. -/
def illFormedTiles : List Instr :=
  [.next farTile {}, .mac belowTile {}, .arrayContributionLand at0 (2 ^ 64), .mac24Land at0 (2 ^ 16), .segLand at0 (2 ^ 16),
   .vectorV6 at0 (2 ^ 16), .fallbackChunkLand at0 (2 ^ 16),
   .managementTick { noMeters with dom := [(390, 0)] }, .managementTick { noMeters with temps := [(390, 0)] },
   .managementTick { noMeters with silent := [farTile] },
   .packetHop (.ring farTile), .packetHop (.fret belowTile 0 false),
   .wireSteer ⟨48, 0, 0, false, 0⟩, .wireSteer ⟨0, 4, 0, false, 0⟩, .wireSteer ⟨0, 0, 128, false, 0⟩, .wireSteer ⟨0, 0, 0, false, 39⟩,
   .bridgeWireTuning ⟨0, 0, 0, false, 39⟩ 0, .eventRecord (.tile farTile),
   .cxlMemRead 0 (2 ^ 64) false, .cxlMemWrite 0 { noWrite with hpa := 2 ^ 64 },
   .refreshPhase [⟨48, 0, .single⟩], .refreshPhase [⟨0, 2 ^ 31, .single⟩]]
def illFormedMail : List Instr :=
  [.selftestComplete (.tile 0 48 0 0 true), .selftestComplete (.tile 0 0 128 0 true), .selftestComplete (.tile 0 0 0 66 true),
   .selftestComplete (.ticket 0 1 [farTile]), .spareTileTest 0 [(128, 0)], .spareTileTest 0 [(0, 66)],
   .markedUnitRetest { kind := 0, die := 0 } true, .markedUnitRetest { kind := 7, die := 0 } true,
   .markedUnitRetest { kind := 1, die := 48 } true, .markedUnitRetest { kind := 4, die := 0, edge := 4 } true,
   .markedUnitRetest { kind := 5, die := 0, stack := 2 } true, .markedUnitRetest { kind := 6, die := 0, quad := 4 } true,
   .partitionQuery { noMail with len := 4097 }, .tileRead { noMail with req := List.replicate 4097 0 },
   .birsp 0 (2 ^ 64) ⟨none, .clean⟩, .hostSnoop 0 (2 ^ 64), .hdmDecoderCommit 0 (2 ^ 64) 0 0, .hdmDecoderCommit 0 0 (2 ^ 64) 0,
   .hdmDecoderCommit 0 0 0 16, .registerWrite 0 0x80000 0, .registerWrite 0 4 0]
def illFormedDevice : List Instr :=
  [.partitionSet [⟨0, 3, 2, 0⟩] false, .partitionSet [⟨0, 0, 8, 0⟩] false,
   .capoSettings { cap := some 65536 }, .capoSettings { ramp := some 65536 }, .capoSettings { floor := some 65536 },
   .capoSettings { cpv := some 65536 }, .redfishPolicySet 0 { limit := some 32 } none, .redfishPolicySet 0 { dlticks := some 2048 } none,
   .redfishPolicySet 0 { maint := some (true, 1024) } none, .redfishPolicySet 0 { hplim := some 65536 } none,
   .redfishSelftest 0 ⟨0, some farTile⟩, .auxPowerStable { bad := [1230] }, .auxPowerStable { corrected := [1230] },
   .mainPowerEnable { badStacks := [(48, 0)] }, .mainPowerEnable { badStacks := [(0, 2)] },
   .mainPowerEnable { badTiles := [(0, 128, 0)] }, .mainPowerEnable { power := [(390, 0)] },
   .supplyFault (.regulator 390), .thermalTrip 390 0, .thermalTrip 0 (2 ^ 16), .dividerRampStep 390, .powerSwitchRamp 390,
   .sageLockstep (.sramDouble (2 ^ 64)), .sageLockstep (.sramSingle (2 ^ 64))]

theorem test_ill_formed_refused : ∀ l ∈ [illFormedTiles, illFormedMail, illFormedDevice], ∀ i ∈ l, Instr.wf i = false := by decide +kernel

/-- The greatest operands pass the same checks. -/
theorem test_greatest_operands : ∀ i ∈ ([.next ⟨1023, 383⟩ {}, .arrayContributionLand at0 (2 ^ 64 - 1), .wireSteer ⟨47, 3, 127, true, 38⟩,
    .selftestComplete (.tile 3 47 127 65 false), .tileRead { noMail with len := 4096, req := List.replicate 4096 0 },
    .registerWrite 3 0x7FFF8 0, .partitionSet [⟨3, 7, 7, 3⟩] true, .auxPowerStable { bad := [1229] }, .dividerRampStep 389] : List Instr),
    Instr.wf i = true := by decide +kernel

/-! ## Witnesses: the tab -/

set_option maxRecDepth 10000 in
/-- TabEntryFires, FiringReadsAndPops and every statement about one firing command: each row's entry fires on a small tile,
whose maps are canonical. -/
theorem witness_fires : ∀ p ∈ tabRows.zip rowTiles, let s := onTile0 p.2
    p.1.2 (curEntry p.2) = true ∧ firesB s {} (curEntry p.2) = true ∧ mwf 0 (atStart s at0).ctr = true ∧
    mwf 0 (atStart s at0).tab.lc = true ∧ mwf {} (atStart s at0).mu.sems = true ∧
    mwf {} (atStart s at0).mu.queues = true ∧ mwf {} (atStart s at0).mu.slots = true ∧
    mwf 0 (atStart s at0).arr.shadow.rows = true ∧ mwf {} (atStart s at0).arr.acc = true ∧
    mwf {} (atStart s at0).sp.acc = true ∧ mwf 0 (atStart s at0).sp.shadow.cols = true ∧
    mwf 0 (atStart s at0).sp.shadow.masks = true ∧ mwf 0 (atStart s at0).sp.gather = true := by decide +kernel

/-- Every quadrant's clock is stretched from cycle 0 to 5000. -/
def stretchedState : State := { State.reset with power := { State.reset.power with quads := {
  spans := (List.range 192).map fun k => (k, [(0, 5000)]) } } }

set_option maxRecDepth 10000 in
/-- EntrySlips: in a stretched cycle every row's entry slips. -/
theorem witness_slips : ∀ p ∈ tabRows.zip rowTiles, let s := onTile0 p.2 stretchedState
    tileExists s at0 = true ∧ mwf {} s.tiles = true ∧ issuing (tileOf s at0) = true ∧
    (atStart s at0).tab.st = .running ∧ malformed (curEntry p.2) (atStart s at0).tab.pc.toNat = false ∧
    guardSlip (envOf s at0) (atStart s at0) (curEntry p.2) = some 6 ∧ mwf 0 (atStart s at0).ctr = true := by decide +kernel

def freeEnv : TileEnv := { core := 0, stretched := false, mask := true, x := 0, y := 0 }

/-- GuardOrder, clause by clause: throttled, an empty queue, an empty skip queue, a semaphore too low, no credit. -/
theorem witness_guards :
    (let t := runTile 4 (arrE 4 4 srcA)
     eUnit (curEntry t) = 1 ∧ guardSlip { freeEnv with mask := false } t (curEntry t) = some 5) ∧
    (let t := runTile 4 (ent ((86, 8) :: toMu))
     [eSrca (curEntry t), eSrcb (curEntry t)].filter (srcEmpty t (curEntry t)) ≠ [] ∧
       guardSlip freeEnv t (curEntry t) = some 1) ∧
    (let t := runTile 4 (ent ((86, 8) :: toMu))
     guardSlip freeEnv { t with tab := { t.tab with skipq := 1 } } (curEntry t) = some 7) ∧
    (let t := runTile 4 (ent [(61, 1), (39, 6)])
     eSemop (curEntry t) = 1 ∧ (mget {} t.mu.sems 0).val.toNat < eSemval (curEntry t) ∧
       guardSlip freeEnv t (curEntry t) = some 3) ∧
    (let t := runTile 4 (ent (srcA ++ [(76, 2)]))
     credits t (eOutch (curEntry t)) < flitsEmitted t (curEntry t) ∧ guardSlip freeEnv t (curEntry t) = some 2) ∧
    (let t := runTile 4 (ctlE 0); guardSlip freeEnv t (curEntry t) = none) := by decide +kernel

/-- EntryFaultHalts, clause by clause: an entry with a RSVD bit set, a semaphore taken below zero and above its capacity,
and a fault of each unit, on tiles whose entry would fire. -/
theorem witness_faults :
    (malformed (ent [(0, 1)]) 0 = true ∧ eCtl (ent [(0, 1)]) = 0) ∧
    (∀ q ∈ [(ent [(61, 3), (39, 6)], EvCode.semUnderflow), (ent [(61, 2), (39, 6)], EvCode.semOverflow)],
      let s := onTile0 (runTile 4 q.1)
      guardSlip (envOf s at0) (atStart s at0) q.1 = none ∧ malformed q.1 0 = false ∧
        semFault (atStart s at0) q.1 = some (q.2, 0)) ∧
    (let e := arrE 4 4 srcA; let s := onTile0 (runTile 5 e)
     guardSlip (envOf s at0) (atStart s at0) e = none ∧ malformed e 0 = false ∧ semFault (atStart s at0) e = none ∧
       arrayFault (atStart s at0).arr e = true) ∧
    (let e := spE 8 0 srcA; let s := onTile0 (runTile 4 e)
     guardSlip (envOf s at0) (atStart s at0) e = none ∧ malformed e 0 = false ∧ semFault (atStart s at0) e = none ∧
       sparseFault (atStart s at0).sp e (operandB s at0 {} e) = true) ∧
    (let e := vecE 0x20 4 srcA
     let t := runTile 4 e
     let s := onTile0 { t with vfire := { pkg := 8, pkfmt := 4 } }
     guardSlip (envOf s at0) (atStart s at0) e = none ∧ malformed e 0 = false ∧ semFault (atStart s at0) e = none ∧
       vecFault (atStart s at0).vfire e = true) := by decide +kernel

/-- A tile in a DELAY with three idle cycles left. -/
def delayTile : Tile :=
  let t := runTile 4 (ctlE 4)
  { t with tab := { t.tab with delaying := true, delayLeft := 3 } }

/-- DelayRunsOut. -/
theorem witness_delay : let s := onTile0 delayTile
    tileExists s at0 = true ∧ mwf {} s.tiles = true ∧ (tileOf s at0).tab.st = .running ∧
    (tileOf s at0).tab.delaying = true ∧ (tileOf s at0).tab.delayLeft ≠ 0 ∧ mwf 0 (tileOf s at0).ctr = true ∧
    spansOf s (tilePlace s 0 0).1 (tilePlace s 0 0).2 = [] := by decide +kernel

/-! ## Witnesses: what lands -/

/-- Work of the oldest issue of a kind, of a move or a drain, of a vector entry, due now. -/
def flying (w : FlyWork) (t : Tile := runTile 4 (ctlE 0)) : State := onTile0 { t with fly := [⟨50, w⟩] }
def anIssue (k : IssueKind) : FlyWork := .issue k [{ row := 3, groups := [[.fin false 3 0, .fin true 1 2]] }]
def anEmit : Emit := { slot := some 5, data := 77 }

/-- IssuesLand, MovesAndLandings and VectorLeavesV6. -/
theorem witness_landings :
    (∀ row ∈ issueLandings, let s := flying (anIssue row.2)
      tileExists s at0 = true ∧ mwf {} s.tiles = true ∧ issuing (tileOf s at0) = true ∧ 50 ≤ (tileOf s at0).tab.tc ∧
      (tileOf s at0).fly = [⟨50, anIssue row.2⟩] ∧ mwf {} (accOf row.2 (tileOf s at0)) = true) ∧
    (∀ w ∈ [FlyWork.move anEmit, .drain false anEmit, .drain true anEmit, .vec (some anEmit) { elems := 16 } {}],
      let s := flying w
      tileExists s at0 = true ∧ mwf {} s.tiles = true ∧ issuing (tileOf s at0) = true ∧ 50 ≤ (tileOf s at0).tab.tc ∧
      (tileOf s at0).fly = [⟨50, w⟩] ∧ mwf {} (tileOf s at0).mu.slots = true ∧ mwf 0 (tileOf s at0).ctr = true) := by
  decide +kernel

/-! ## Witnesses: the sparse engine and the compressor -/

/-- A fallback step that has fetched one slot, one whose segments have all issued, and one that is complete. -/
def fallbackTile (p : SpStep) : Tile :=
  let t := runTile 3 (ctlE 0)
  { t with sp := { t.sp with step := some p } }

/-- FallbackEngine and SparseStepCompletes, SegmentIssues. -/
theorem witness_sparse_step :
    (let p := openStep true; let s := onTile0 (fallbackTile p); let q := (tileOf s at0).tab.tc - 1
     tileExists s at0 = true ∧ mwf {} s.tiles = true ∧ issuing (tileOf s at0) = true ∧ p.fallback = true ∧
     p.fetched < stepSlots p ∧ p.buf.length < 2 ∧ (tileOf s at0).mu.reads = [] ∧ (tileOf s at0).mu.rUsed ≤ q ∧ p.begun < q ∧
     readClaimed (tileOf s at0) q = false) ∧
    (let p := { openStep true with fetched := 1, buf := [(9, false, 40)] }; let s := onTile0 (fallbackTile p)
     let q := (tileOf s at0).tab.tc - 1
     40 < q ∧ p.issued < stepChunks p ∧ (if p.issued = 0 then p.begun + 1 else p.lastChunk + 1) ≤ q ∧
     (tileOf s at0).sp.mac24At ≤ q ∧ (tileEnv s 0 0 s.cycle).mask = true ∧ (tileEnv s 0 0 s.cycle).stretched = false) ∧
    (let p := { openStep false with lastSeg := some 40 }; let s := onTile0 (fallbackTile p)
     stepDone p = some 80 ∧ 80 ≤ (tileOf s at0).tab.tc ∧ mwf {} (tileOf s at0).mu.sems = true ∧
     (mget {} (tileOf s at0).mu.sems 0).at_ ≠ s.cycle + 1 ∧
     (mget {} (tileOf s at0).mu.sems 0).val.toNat < (mget {} (tileOf s at0).mu.sems 0).cap.toNat) ∧
    (let s := onTile0 (withStep (runTile 4 (spE 8 0 srcA)))
     (atStart s at0).sp.step = some (openStep false) ∧ mwf 0 (atStart s at0).ctr = true) := by decide +kernel

/-- CompressorBuffers: CMP.FLUSH with and without pending pairs, CMP.SEG with fewer than 16. -/
theorem witness_compressor :
    (let e := vecE 0x39 0 [(76, 1), (66, 2)]; let t := runTile 4 e
     firesB (onTile0 t) {} e = true ∧ (atStart (onTile0 t) at0).vfire.pend = [] ∧
     firesB (onTile0 { t with vfire := { pend := [5, 6] } }) {} e = true) ∧
    (let e := vecE 0x38 3 (srcA ++ [(76, 1), (66, 2)]); let t := runTile 4 e
     firesB (onTile0 { t with vfire := { pend := [5, 6] } }) {} e = true ∧ eSrca e ≠ 0) := by decide +kernel

/-- NarrowingConverts and the converts with a group: with and without DST. -/
theorem witness_converts : (∀ q ∈ [(0x20, srcA), (0x21, srcAB), (0x30, srcAB), (0x31, srcAB)],
      let e := vecE q.1 4 q.2; let e' := vecE q.1 4 (q.2 ++ toMu)
      firesB (onTile0 (runTile 4 e)) {} e = true ∧ eDst e = 0 ∧ firesB (onTile0 (runTile 4 e')) {} e' = true ∧ eDst e' = 1) ∧
    (∀ g < 4, let e := vecE (0x18 + g) 4 (srcA ++ toMu); let e' := vecE (0x28 + g) 4 (srcAB ++ toMu)
      firesB (onTile0 (runTile 4 e)) {} e = true ∧ firesB (onTile0 (runTile 4 e')) {} e' = true ∧ eCuflag e % 4 ≠ 2) := by
  decide +kernel

/-! ## Witnesses: the memory unit -/

/-- The small tile with another memory unit, and with another fret. -/
def muTile (f : MemUnit → MemUnit) : Tile :=
  let t := runTile 4 (ctlE 0)
  { t with mu := f t.mu }
def fretTile (f : Fret → Fret) : Tile :=
  let t := runTile 4 (ctlE 0)
  { t with fret := f t.fret }

/-- Headers of a WWRITE, an MREAD and MU commands (FILL; one with COUNT 0) of the stream engine of port 0. -/
def wwriteHdr : Unit512 := packHdr { kind := 1, dx := 0, dy := 0, npay := 1, win := 1, offset := 3, issuer := 2 }
def mreadHdr : Unit512 := packHdr { kind := 2, dx := 0, dy := 0, npay := 2, offset := 3, issuer := 2 }
def fillWord : Nat := 1 + 3 * 2 ^ 8 + 2 * 2 ^ 30
def copyWord : Nat := 2 + 3 * 2 ^ 8 + 1 * 2 ^ 19 + 2 * 2 ^ 30
def mcmdHdr (w : Nat) : Unit512 := packHdr { kind := 3, dx := 0, dy := 0, issuer := 2, cmd := w }
/-- Window 1: VALID, WSTE, BASE 16, LEN 8, with a tag mode. -/
def window (tagmode : Nat) : Reg64 := BitVec.ofNat 64 (1 + 2 ^ 5 + tagmode * 2 ^ 2 + 16 * 2 ^ 8 + 8 * 2 ^ 19)
def winTile (tagmode : Nat) (f : MemUnit → MemUnit := id) : Tile := muTile fun m => f { m with win := [(1, window tagmode)] }
def inboxState (t : Tile) (p : Packet) : State := onTile0 { t with fret := { t.fret with inbox := [p] } }

/-- DeliveredRequests, clause by clause. -/
theorem witness_requests :
    (let s := inboxState (winTile 0) { header := wwriteHdr, payload := [(5, false)] }
     let w := mget 0 (closedTile s at0).mu.win 1
     tileExists s at0 = true ∧ hKind wwriteHdr = 1 ∧ classCount (closedTile s at0) (issuerClass (hIssuer wwriteHdr)) < 4 ∧
     wValid w = true ∧ hOffset wwriteHdr < wLen w ∧ wAllows w (issuerClass (hIssuer wwriteHdr)) = true ∧ wAccum w = false) ∧
    hKind mreadHdr = 2 ∧ hKind (mcmdHdr fillWord) = 3 ∧ muCmdBad (BitVec.ofNat 64 fillWord) = false ∧
    muCmdBad (BitVec.ofNat 64 copyWord) = false ∧ muCmdBad 0 = true := by decide +kernel

/-- An accumulate-write for slot 19, and entries of the combining buffer. -/
def aCb (slot id : Nat) (wants : Option Nat) : CbEntry :=
  { slot := slot, win := 1, lanes := 0xFFFFFFFF, poison := false, count := 1, last := 40, id := id, wants := wants }

/-- A write of window 1 that has waited since tile cycle 70. -/
def aWrite : MuWrite :=
  { id := 4, cls := .ste, win := 1, slot := 19, boff := 2, bcnt := 3, data := 0xABCDEF, poison := true, arr := 70
    since := 70 }

/-- WindowsAndMarks: the write takes the port with and without FILLBLOCK, and takes a mark when a Sage write goes first. -/
theorem witness_window_writes :
    (∀ m ∈ [0, 1, 2], let s := onTile0 (winTile m fun u => { u with ingress := [aWrite] }); let t := tileOf s at0
      tileExists s at0 = true ∧ mwf {} s.tiles = true ∧ issuing t = true ∧ portOwner t t.tab.tc = some (.write aWrite) ∧
      mwf {} t.mu.slots = true ∧ mwf 0 t.ctr = true ∧ aWrite.boff + aWrite.bcnt ≤ 64) ∧
    (let s := onTile0 (winTile 0 fun u => { u with ingress := [aWrite] }); let t := tileOf s at0
     aWrite ∈ t.mu.ingress ∧ fillHeld t aWrite = false ∧ aWrite.cls ≠ .cbDrain ∧ hasMark t t.tab.tc aWrite.id = false ∧
     aWrite.since + 15 ≤ t.tab.tc - 1 ∧ (∀ v ∈ t.mu.ingress, v ≠ aWrite → aWrite.since < v.since) ∧ t.mu.cb = [] ∧
     t.mu.bulk = none ∧ ∀ m ∈ t.mu.marks, m.cycle ≠ t.tab.tc - 1 + 7) ∧
    (let s := onTile0 (muTile fun m => { m with cb := [aCb 3 1 (some 80)] }); let t := tileOf s at0
     hasMark t t.tab.tc 1 = false ∧ (aCb 3 1 (some 80)).last ≤ t.tab.tc - 1 ∧ 80 + 15 ≤ t.tab.tc - 1 ∧
     t.mu.ingress = [] ∧ t.mu.cb = [aCb 3 1 (some 80)]) := by decide +kernel

/-- A read of two slots from slot 3, and the same with its first slot taken. -/
def aRead (got : List (Unit512 × Bool × Bool)) : PRead :=
  { id := 1, issuer := 2, header := mreadHdr, arr := 50, epoch := 0, got := got }

/-- PacketReads: the claim, a slot that is not the last, the last slot. -/
theorem witness_packet_reads :
    (∀ got ∈ [[], [(0, false, false)]], let s := onTile0 (muTile fun m => { m with reads := [aRead got] })
      let t := closedTile s at0
      tileExists s at0 = true ∧ issuing (tileOf s at0) = true ∧ t.mu.reads = [aRead got] ∧ (aRead got).claimed = false ∧
      (aRead got).arr + 15 ≤ t.tab.tc - 1 ∧ hOffset mreadHdr + got.length < 2048 ∧ t.mu.rUsed ≤ t.tab.tc - 1 ∧
      t.mu.bulk = none) ∧
    ([] : List Nat).length + 1 < hNpay mreadHdr ∧ hNpay mreadHdr ≤ [0].length + 1 := by decide +kernel

/-- A bulk operation of two slots with some of its slots written. -/
def aBulk (w done : Nat) : Bulk := { cmd := BitVec.ofNat 64 w, pattern := 9, accepted := 10, done := done }

/-- BulkSlots: the first and the last slot of a FILL and of a COPY upward. -/
theorem witness_bulk : ∀ w ∈ [fillWord, copyWord], ∀ done < 2,
    let s := onTile0 (muTile fun m => { m with bulk := some (aBulk w done) }); let t := tileOf s at0
    tileExists s at0 = true ∧ mwf {} s.tiles = true ∧ issuing t = true ∧ bulkDue (aBulk w done) ≤ t.tab.tc ∧
    mwf {} t.mu.slots = true ∧ done < bCount (aBulk w done).cmd := by decide +kernel

/-- CombiningBuffer, clause by clause: an entry of the slot, a free entry, no free entry, an idle entry, a drain. -/
theorem witness_combining :
    (let s := onTile0 (muTile fun m => { m with accq := [aWrite], cb := [aCb 19 1 none] })
     (tileOf s at0).mu.cb = [aCb 19 1 none] ∧ (aCb 19 1 none).slot = aWrite.slot) ∧
    (let s := onTile0 (muTile fun m => { m with accq := [aWrite], cb := [aCb 3 1 none] })
     (∀ e ∈ (tileOf s at0).mu.cb, e.slot ≠ aWrite.slot) ∧ (tileOf s at0).mu.cb.length < 8) ∧
    (let s := onTile0 (muTile fun m => { m with accq := [aWrite], cb := (List.range 8).map fun k => aCb k k none })
     (∀ e ∈ (tileOf s at0).mu.cb, e.slot ≠ aWrite.slot) ∧ 7 ≤ (tileOf s at0).mu.cb.tail.length) ∧
    (let s := onTile0 (muTile fun m => { m with cb := [aCb 3 1 none] })
     (aCb 3 1 none).wants = none ∧ (aCb 3 1 none).last + 32 ≤ (tileOf s at0).tab.tc - 1) ∧
    (let s := onTile0 (muTile fun m => { m with cb := [aCb 3 1 (some 80)] })
     tileExists s at0 = true ∧ mwf {} s.tiles = true ∧ issuing (tileOf s at0) = true ∧
     portOwner (tileOf s at0) (tileOf s at0).tab.tc = some (.drain (aCb 3 1 (some 80))) ∧
     mwf {} (tileOf s at0).mu.slots = true) := by decide +kernel

/-! ## Witnesses: queues, scalars, stalls, the halt wave -/

/-- A flit of string (0, 0, 2), a terminal item of channel 3's input, a route entry that ends at a terminal. -/
def aFlit : Flit := { data := 4, poison := true, epoch := 0, last := true, str := ⟨0, 0, 2⟩, num := 1, arr := true }
def vTerm : Term := { inp := 35, flit := aFlit, due := 1000 }
def termRoute (l : List (Nat × Nat)) : Reg64 := BitVec.ofNat 64 (l.foldl (fun a p => a + p.2 * 2 ^ p.1) (1 + 2 ^ 5))
/-- Queue 2 in a state, reached by channel 3. -/
def queueTile (q : Queue) : Tile :=
  let t := muTile fun m => { m with queues := mset {} [] 2 q }
  { t with fret := { t.fret with route := [(35, termRoute [(11, 2)])], term := [vTerm] } }

/-- QueueArrivals, clause by clause. -/
theorem witness_queue_arrivals :
    (∀ q ∈ [({ st := .open_ } : Queue), { st := .closed }, { st := .reset }, { st := .open_, writers := 2, msglen := 4 }],
      let s := onTile0 (queueTile q); let t := tileOf s at0
      tileExists s at0 = true ∧ mwf {} s.tiles = true ∧ headTerm t (inputNum (.chan 3)) = some vTerm ∧
      scalarInput 35 = false ∧ mwf {} t.mu.queues = true ∧ mwf 0 t.ctr = true ∧ rQsel (routeOf t 35) = 2 ∧
      mget {} t.mu.queues 2 = q ∧ vTerm.flit.epoch = q.epoch ∧ qOcc q + q.msglen.toNat ≤ 32) ∧
    mergeNext (queueTile { st := .open_, writers := 2, msglen := 4 }) 2 = some vTerm := by decide +kernel

/-- A word at the terminal of the scalar string: to semaphore 1, and to the register. -/
def sTerm : Term := { inp := 40, flit := aFlit, due := 1000 }
def scalarTile (signal : Nat) : Tile :=
  fretTile fun f => { f with route := [(40, termRoute [(6, signal), (7, 1)])], term := [sTerm] }

/-- ScalarArrivals, both clauses. -/
theorem witness_scalars :
    (let s := onTile0 (scalarTile 1); let t := tileOf s at0; let old := mget {} t.mu.sems (rSemid (routeOf t sTerm.inp))
     tileExists s at0 = true ∧ mwf {} s.tiles = true ∧ mwf {} t.mu.sems = true ∧ scalarTerm true t = some sTerm ∧
     old.at_ ≤ s.cycle ∧ old.val.toNat + fld sTerm.flit.data.toNat 0 16 ≤ old.cap.toNat) ∧
    (let s := onTile0 (scalarTile 0)
     scalarTerm false (tileOf s at0) = some sTerm ∧ (tileOf s at0).tab.srxValid = false) := by decide +kernel

/-- A halted or running tile that a refusal reaches, and one whose stall count has reached its limit. -/
def refusedTile (st : TState) : Tile :=
  let t := fretTile fun f => { f with refusals := [(0, 0, 2, 3, 50)] }
  { t with tab := { t.tab with st := st } }
def stalledTile : Tile :=
  let t := runTile 4 (ctlE 0)
  { t with tab := { t.tab with wdCount := 2 ^ 22 } }

/-- RefusalsAndStalls. -/
theorem witness_stalls :
    (∀ st ∈ [TState.halted, .running], let s := onTile0 (refusedTile st)
      tileExists s at0 = true ∧ mwf {} s.tiles = true ∧ (tileOf s at0).tab.st = st ∧ mwf 0 (tileOf s at0).ctr = true ∧
      (tileOf s at0).tab.delaying = false) ∧
    2 ^ stalledTile.tab.wdLimit.toNat ≤ stalledTile.tab.wdCount ∧ stalledTile.tab.wdTripped = false := by decide +kernel

/-- A state after reset with its partition changed. -/
def withPart (f : Partition → Partition) (s : State := State.reset) : State :=
  { s with parts := mmod {} s.parts 0 f }

/-- HaltWaveReaches: a running and an ended tile of partition 0, which a wave has entered. -/
theorem witness_halt_wave : ∀ st ∈ [TState.running, .loaded, .ended, .halted],
    let t := runTile 4 (ctlE 0)
    let s := onTile0 { t with tab := { t.tab with st := st } } (withPart fun q => { q with wave := some 40 })
    tileExists s at0 = true ∧ mwf {} s.tiles = true ∧ partOfTile s 0 = some 0 ∧ (getPart s 0).wave = some 40 ∧
    (tileOf s at0).tab.st = st ∧ (tileOf s at0).tab.delaying = false := by decide +kernel

/-! ## Witnesses: frets, packets, bridges -/

/-- Reset, with the fabric rail of every die running. -/
def fabricState : State := { State.reset with power := { State.reset.power with
  dom := (List.range 48).map fun n => (8 * n + 4, { st := .run }) } }

/-- A flit on channel 3, and a word on the scalar string, routed east only, or not routed. -/
def eastTile (inp entry : Nat) : Tile :=
  fretTile fun f => { f with route := [(inp, BitVec.ofNat 64 entry)], bufs := [(inp, [aFlit])] }

/-- FlitHops, on both networks: a parity error, no valid entry, a link. -/
theorem witness_hops : ∀ i ∈ [FlitIn.chan 3, .schan], let inp := inputNum i
    (∀ e ∈ [4, 5], let s := onTile0 (eastTile inp e) fabricState; let t := tileOf s at0
     tileExists s at0 = true ∧ mwf {} s.tiles = true ∧ fretOn s 0 0 = true ∧ t.fret.bufs = [(inp, [aFlit])] ∧
     t.fret.term = [] ∧ aFlit.arr = true ∧ aFlit.left = [] ∧ aFlit.epoch = t.fret.epoch ∧ heldOnLink t inp aFlit = false ∧
     mwf 0 t.ctr = true ∧ t.tab.st ≠ .halted ∧ rValid (routeOf t inp) = decide (e = 5)) ∧
    (let s := onTile0 (eastTile inp 5) fabricState; let t := tileOf s at0; let r := routeOf t inp
     routeOuts r = [1] ∧ linkTo s 0 0 1 = some (1, 0) ∧ tileKey 1 0 ≠ tileKey 0 0 ∧
     mget 0 t.fret.used (8 * 1 + if scalarInput inp then 6 else rCourse r) < 8 ∧ mget false t.fret.c5Aged 1 = false ∧
     mwf 0 t.fret.used = true ∧ mwf [] (getTile s 1 0).fret.bufs = true) := by decide +kernel

/-- The header of a request of stream engine 0 for tile (dx, 0), and of a response, with a route. -/
def routedHdr (kind dx issuer : Nat) (segs : List (Nat × Nat)) : Unit512 :=
  packHdr { segs := segs, kind := kind, dx := dx, dy := 0, npay := 2, issuer := issuer }
def routedFlit (h : Unit512) (idx : Nat) (last : Bool) : PFlit :=
  { header := h, idx := idx, data := if idx = 0 then h else 44, last := last, epoch := 0, by_ := 2, ready := 5 }
def flitTile (g : PFlit) (f : Fret → Fret := id) : Tile := fretTile fun r => f { r with pkts := [(4, [g])] }
def eastHdr : Unit512 := routedHdr 2 3 2 [(1, 3)]

/-- CreditsAndTokens, clause by clause. -/
theorem witness_credits :
    (let s := onTile0 (flitTile (routedFlit eastHdr 0 true)) fabricState
     leastOf (course5From s 0 0 (dirNum .e)) = some 5) ∧
    (let t := fretTile fun f => { f with credit := [(10, [70])], used := [(10, 2)] }
     leastOf (mget [] t.fret.credit (8 * dirNum .e + 2)) = some 70 ∧
       mget [] (getTile (onTile0 t) 1 0).fret.bufs (8 * oppDir (dirNum .e) + 2) = []) ∧
    (let t := fretTile fun f => { f with outst := [{ ch := 2, num := 0, pending := 0, due := 60 }] }
     tileExists (onTile0 t) at0 = true ∧ (takeToken 2 t.fret.outst).isSome = true) := by decide +kernel

/-- A flit and a packet's flit that are crossing the link to the east input. -/
def crossing (f : Fret → Fret) : Tile := fretTile fun r => f { r with
  bufs := [(10, [{ aFlit with arr := false, ready := 90 }])], pkts := [(1, [{ routedFlit eastHdr 0 true with ready := 95 }])] }

/-- LinkRetriesAndFailures and BridgeWires. -/
theorem witness_links :
    (∀ n ∈ [Net.vector, .control], let s := onTile0 (crossing id); let t := tileOf s at0
     neighbour s 0 0 (dirNum .e) = some (1, 0) ∧ tileKey 1 0 ≠ tileKey 0 0 ∧ bit t.fret.failed.toNat 1 = false ∧
     (nextArrival t 1 s.cycle n).isSome = true ∧ (∀ a < 100, attemptsOf t 1 n a < 3) ∧ mwf (0, 0) t.fret.attempts = true ∧
     mwf 0 t.ctr = true ∧ mwf [] t.fret.bufs = true ∧ mwf [] t.fret.pkts = true ∧
     mwf (0, 0) (getTile s 1 0).fret.retryTo = true) ∧
    (let s := onTile0 (crossing fun f => { f with attempts := [(4, (3, 70))] })
     (mget (0, 0) (tileOf s at0).fret.attempts 4).1 = 3 ∧ s.cycle ≤ (mget (0, 0) (tileOf s at0).fret.attempts 4).2 ∧
     ∀ n < 2, (mget (0, 0) (tileOf s at0).fret.attempts (3 + 2 * n)).1 < 3) ∧
    (∀ b ∈ [[], [3], [3, 5]], let w : WireGroup := ⟨0, 1, 0, true, 7⟩
     let s := { State.reset with wires := mset {} [] (wireNum w) { bad := b } }
     wireExists s w = true ∧ (mget {} s.wires (wireNum w)).steered = none ∧ (mget {} s.wires (wireNum w)).bad = b ∧
     dieQuiet s w.die = true ∧ dieQuiet s (acrossBridge w) = true) ∧
    (let w : WireGroup := ⟨0, 1, 0, true, 7⟩
     let s := { State.reset with wires := mset {} [] (wireNum w) { steered := some 3 } }
     wireExists s w = true ∧ (mget {} s.wires (wireNum w)).steered ≠ none) := by decide +kernel

/-- PacketsTravel: entry at an edge and from a tap, an entry in a foreign epoch. -/
theorem witness_packet_entry :
    ∀ q ∈ ([(none, 0), (none, 3), (some 0, 0)] : List (Option Nat × Nat)), let p : Packet := { header := routedHdr 2 3 2 [], epoch := BitVec.ofNat 4 q.2, ready := 5 }
     let t : TileId := if q.1 = none then at0 else ⟨0, tapRow fabricState 0 0⟩
     let s := withTile { fabricState with issued := [(p, q.1)] } t {}
     tileExists s t = true ∧ mwf {} s.tiles = true ∧ fretOn s t.x t.y = true ∧ takeIssued s t s.issued = some (p, q.1, []) ∧
     (q.2 = 0 → p.epoch = (tileOf s t).fret.epoch ∧ hdrBad (entryHeader s t p.header) = false) ∧
     (q.2 = 3 → p.epoch ≠ (tileOf s t).fret.epoch) ∧ mwf 0 (tileOf s t).ctr = true := by decide +kernel

/-- PacketsTravel: the terminal for a header and a payload flit, a packet off its route, one at a fence, a response at the
array's edge, a link. -/
theorem witness_packet_hops :
    (∀ g ∈ [routedFlit (routedHdr 2 0 2 []) 0 true, routedFlit (routedHdr 2 0 2 []) 0 false], nextSeg g.data = none ∧
      hDx g.data = 0 ∧ hDy g.data = 0 ∧ issuerAllowed (hKind g.data) (hIssuer g.data) = true ∧ hKind g.data ≠ 5) ∧
    (let s := onTile0 (flitTile (routedFlit eastHdr 1 true) fun f => { f with way := [(4, .here)] }) fabricState
     mget .lost (tileOf s at0).fret.way 4 = .here ∧ mwf .lost (tileOf s at0).fret.way = true) ∧
    (nextSeg (routedHdr 2 3 2 []) = none ∧ hDx (routedHdr 2 3 2 []) ≠ 0) ∧
    (let s := { fabricState with parts := [(0, { set_ := true, hi := 0 })] }
     nextSeg eastHdr = some (0, 1) ∧ hKind eastHdr ≠ 4 ∧ neighbour s 127 0 1 = some (128, 0) ∧ fencedTo s 127 128 = true ∧
       tileExists s ⟨127, 0⟩ = true) ∧
    (let s := onTile0 (flitTile (routedFlit (routedHdr 4 0 7 [(0, 1)]) 0 true)) fabricState
     (flitWay s 0 0 4 (routedFlit (routedHdr 4 0 7 [(0, 1)]) 0 true)).1 = .out 0 0) ∧
    (let s := onTile0 (flitTile (routedFlit eastHdr 0 true)) fabricState; let t := tileOf s at0
     t.fret.pkts = [(4, [routedFlit eastHdr 0 true])] ∧ bit t.fret.failed.toNat 4 = false ∧
       (flitWay s 0 0 4 (routedFlit eastHdr 0 true)).1 = .link 1 ∧ linkTo s 0 0 1 = some (1, 0) ∧ tileKey 1 0 ≠ tileKey 0 0 ∧
       t.fret.bufs = [] ∧ mget 0 t.fret.used (8 * 1 + 5) = 0 ∧ mayOwn t 1 4 = true ∧ mwf .lost t.fret.way = true ∧
       mwf noPacket t.fret.asm = true ∧ mwf 0 t.fret.c5Own = true ∧ mwf [] (getTile s 1 0).fret.pkts = true) := by decide +kernel

/-- ControlSpaceWrites: slot 2047 and tab entries of a halted tile, the latter of Sage and of the Array engine; a RUNNING tile. -/
theorem witness_cfgw : ∀ q ∈ [(0x20000 + 64 * 2047, 1), (0x10000 + 64 * 255, 1), (0x10000 + 64 * 255, 6), (0x7000, 6)],
    let h := packHdr { kind := 5, dx := 0, dy := 0, npay := 1, issuer := q.2, cmd := q.1 }
    let s := inboxState {} { header := h, payload := [(6, true)] }
    tileExists s at0 = true ∧ mwf {} s.tiles = true ∧ hKind h = 5 ∧ fld (hCmd h) 0 20 = q.1 ∧ hIssuer h = q.2 ∧
    (tileOf s at0).tab.st ≠ .running ∧ classCount (tileOf s at0) (issuerClass (hIssuer h)) < 4 ∧
    mwf 0 (tileOf s at0).tab.mem = true ∧ mwf 0 (tileOf s at0).ctr = true := by decide +kernel

/-! ## Witnesses: stack memory and spines -/

/-- The device in service: released, partition 0 over die column 0, its port up with its window committed, its stacks up,
its quadrants running. -/
def liveState : State :=
  let s := State.reset
  { s with
    boot := { s.boot with phase := .released }
    module_ := { s.module_ with present := true, auxOn := true, mainOn := true, flowOk := true }
    parts := [(0, { set_ := true, hi := 0 })]
    power := { s.power with dom := (List.range 6).flatMap fun n => (List.range 4).map fun q => (8 * n + q, { st := .run }) }
    spines := (List.range 6).map fun n => (n, { up0 := true, up1 := true })
    ports := [(0, { st := .attached, up := true, committed := true, memActive := true, hdmBase := 0x10000000
                    hdmSize := 0x4000000000 })] }
def onPort (f : Port → Port) (s : State := liveState) : State := { s with ports := mmod {} s.ports 0 f }
def inService0 (f : Partition → Partition) : State := withPart f liveState
def onSpine0 (f : Spine → Spine) (s : State := liveState) : State := { s with spines := mmod {} s.spines 0 f }

/-- The line the witnesses read, 4,160 bytes above the window's base. -/
def lineAddr : Nat := 0x10000000 + 4160
def aDramRead : DramRead :=
  { granule := 16, opened := 0, entry := true, joinable := true, joins := [.host 0 lineAddr false 64], data := 0x55
    poison := 2, due := 96 }

/-- HostReads: outside the window; no merge entry; a joinable one; a return. -/
theorem witness_host_reads :
    hostAddr liveState 0 5 = none ∧ hostAddr liveState 0 lineAddr = some (0, 4160) ∧
    mwf {} liveState.spines = true ∧ mwf {} liveState.ports = true ∧
    (let da := paToDa (getPart liveState 0) (4160 - 4160 % 64)
     da = 4160 ∧ dieServes liveState da = true ∧ mwf [] (getSpine liveState 0).reads = true ∧
     mget [] (getSpine liveState 0).reads (sliceOf 4096) = []) ∧
    (let s := onSpine0 fun p => { p with reads := mset [] [] (sliceOf 4096) [aDramRead] }
     dieServes s 4160 = true ∧ mget [] (getSpine s 0).reads (sliceOf 4096) = [aDramRead] ∧ aDramRead.granule = 4160 / 256 ∧
     s.cycle ≤ aDramRead.opened + 63 ∧ aDramRead.returned = false ∧ lineAddr - lineAddr % 64 = lineAddr) := by decide +kernel

/-- HostWrites: a full line, a masked write of an unmarked and of a marked chunk. -/
theorem witness_host_writes :
    dieServes liveState 4160 = true ∧ Memory.wf liveState.stk.mem ∧ mwf false liveState.stk.poison = true ∧
    (let s := { liveState with stk := { liveState.stk with poison := [(65, true)] } }
     mget false s.stk.poison (4160 / 64) = true ∧ mwf false s.stk.poison = true) := by decide +kernel

/-- SpineHousekeeping: a merge entry that has delivered its data. -/
theorem witness_spine : let s := onSpine0 fun p => { p with reads := [(3, [{ aDramRead with returned := true }])] }
    mwf {} s.spines = true ∧ mwf [] (getSpine s 0).reads = true ∧
    mget [] (getSpine s 0).reads 3 = [{ aDramRead with returned := true }] := by decide +kernel

/-- A stream that waits for its start, and one with a granule to send. -/
def aStream (started : Bool) : StackStream :=
  { first := 5, count := 9, x := 3, y := 7, win := 2, ofs := 0, start := 80, started := started
    ready := if started then [(0, 0xFF, 1)] else [] }
def streamState (started : Bool) : State :=
  onSpine0 (fun p => { p with streams := [(4, aStream started)] }) (inService0 fun q => { q with st := .running })

/-- StackStreams. -/
theorem witness_streams : ∀ b ∈ [false, true], let s := streamState b
    mwf {} s.spines = true ∧ mwf {} s.parts = true ∧ getStream s 0 4 = some (aStream b) ∧ partOfDie s 0 = some 0 ∧
    (getPart s 0).st = .running ∧ (aStream b).stopped = false ∧ (getPart s 0).suspended = false ∧ (getPart s 0).wave = none ∧
    (getPart s 0).port < 4 ∧ mayIssue s (streamIssuer (getPart s 0).port) (some 0) (0x8000 + 4) = true ∧
    (b = true → ((aStream b).ready.find? fun r => decide (r.1 = (aStream b).sent)) = some (0, 0xFF, 1)) := by decide +kernel

/-! ## Witnesses: sections -/

/-- A started list of one entry at the head of an engine's queue; the partition with its die column out of service, so that its
band holds no tile. -/
def enE (l : List (Nat × Nat)) : Unit512 := BitVec.ofNat 512 (l.foldl (fun a p => a + p.2 * 2 ^ p.1) 0)
def aList (e : Unit512) : CmdList := { tag := 9, cpl := 0x2000, entries := [e], dep := none, started := true }
def queued (eng : Nat) (e : Unit512) (c : Entry := {}) (q : Partition) : Partition :=
  { q with eng := mset {} [] eng { lists := [aList e], cur := c } }
def noBand (f : Partition → Partition) : State :=
  { inService0 f with defects := [{ kind := 3, die := 0, c := 1 }, { kind := 3, die := 0, c := 2 }, { kind := 3, die := 0, c := 3 }] }
def aLoad : LoadOpts := { imgofs := 0, seed := 0, ckpt := true, force := false, stats := false }
def switching (k : SwitchKind) (ph : SwitchPhase) (st : PState := .loading) : State :=
  noBand fun q => { q with st := st, sw := some ⟨k, ph⟩ }

/-- SectionEntries, clause by clause: LOAD with and without CKPT and FORCE, RESTORE, FINISH, in each state, free and after a
stack sensor's halt. -/
theorem witness_entries : ∀ op ∈ [1, 2, 3], ∀ st ∈ [PState.idle, .running, .halted, .faulted], ∀ bits ∈ [0, 1, 2], ∀ hot ∈ [false, true],
    let e := enE [(0, op), (160, bits)]
    let s := noBand fun q => queued 0 e {} { q with st := st, hot := hot }
    mwf {} s.parts = true ∧ mwf {} (getPart s 0).eng = true ∧ arrayFree (getPart s 0) = true ∧ (getPart s 0).hot = hot ∧
    entryOf s 0 0 op false = some (aList e, e, {}) ∧ (getPart s 0).st = st ∧ (loadOpts e).ckpt = decide (bits = 1) ∧
    (loadOpts e).force = decide (bits = 2) ∧ testWaits (getPart s 0) = false := by decide +kernel

/-- SectionEndsAndDrains: every tile of the band ended; the drain starts; it settles with and without a residual token. -/
theorem witness_drains :
    (let s := noBand fun q => { q with st := .running, sw := some ⟨.load aLoad, .ended⟩ }
     (getPart s 0).endSeen = none ∧ workTiles s 0 = []) ∧
    (getPart (switching (.load aLoad) .drain .running) 0).sw = some ⟨.load aLoad, .drain⟩ ∧
    (residuals (catchUpBand 0 (advanceTo (switching (.load aLoad) (.settle 0) .draining) 2048)) 0).isEmpty = true ∧
    (let s := { switching (.load aLoad) (.settle 0) .draining with issued := [({ header := routedHdr 2 0 2 [] }, none)] }
     (residuals (catchUpBand 0 (advanceTo s 2048)) 0).isEmpty = false) := by decide +kernel

/-- Bytes of stack memory that hold a number, from an address on. -/
def bytesAt (a n v : Nat) : List Host.Cell :=
  ((List.range n).map fun i => (a + i, BitVec.ofNat 8 (elem v 8 i))).filter fun c => decide (c.2 ≠ 0)

/-- A partition over die column 0 whose image on die 0 has one spill entry: slots 3 and 4 of tile (2, 1) to chunk 40. -/
def spillState : State :=
  let b := dieBase (imgOf 0 aLoad) 0
  let s := noBand fun q => { q with st := .draining, sw := some ⟨.load aLoad, .spill⟩, opts := some aLoad }
  let word := packFields [(2, 10), (1, 9), (3, 11), (2, 12), (0, 22), (40, 31)]
  { s with stk := { s.stk with mem := bytesAt b 256 (2 ^ 89) ++ bytesAt (b + 0x900) 32 word } }

/-- CheckpointsAndForcedPaths, clause by clause. -/
theorem witness_checkpoints :
    (spillsLeft spillState 0).map (fun r => (r.x, r.y, r.first, r.count, r.dest)) = [(2, 1, 3, 2, 64 * 40)] ∧
    spillLines spillState 0 (spillsLeft spillState 0) = [] ∧ 64 * 40 + 64 * 2 ≤ reserveBase ∧
    Memory.wf spillState.stk.mem ∧ mwf false spillState.stk.poison = true ∧ mwf {} spillState.parts = true ∧
    (getPart spillState 0).sw = some ⟨.load aLoad, .spill⟩ ∧ aLoad.ckpt = true ∧ arrayBusy spillState 0 = false ∧
    (let s := switching (.finish false) .spill .draining
     (getPart s 0).sw = some ⟨.finish false, .spill⟩ ∧ (spillsLeft s 0).isEmpty = true ∧ arrayBusy s 0 = false) ∧
    (let s := switching (.load aLoad) .capture
     (getPart s 0).sw = some ⟨.load aLoad, .capture⟩ ∧ arrayBusy s 0 = false ∧ testWaits (getPart s 0) = false) ∧
    (∀ k ∈ [SwitchKind.load aLoad, .restore true], let s := switching k .inflight .halted
     (getPart s 0).sw = some ⟨k, .inflight⟩ ∧ bandTiles s 0 = [] ∧ (getPart s 0).recNo < 256 ∧ ckLatest s 0 = none ∧
     mwf {} s.tiles = true) := by decide +kernel

/-- A load whose image lies in the store, and one whose image does not. -/
def storeLoad : LoadOpts := { aLoad with imgofs := 0x88000000 }

/-- ImagesAndRelease: a load no die refuses, one a die refuses, one outside the store, a release, a replay. -/
theorem witness_images :
    (let s := inService0 fun q => { q with lo := 1, sw := some ⟨.load storeLoad, .image⟩ }
     (getPart s 0).sw = some ⟨.load storeLoad, .image⟩ ∧ arrayBusy s 0 = false ∧ imageOutside s 0 storeLoad = false ∧
       bandRuns s 0 = true ∧ bandDies (getPart s 0) = []) ∧
    (let s := switching (.load storeLoad) .image
     0 ∈ bandDies (getPart s 0) ∧ (dieFail s (imgOf 0 storeLoad) 0).isSome = true ∧ arrayBusy s 0 = false ∧ bandRuns s 0 = true) ∧
    imageOutside (switching (.load aLoad) .image) 0 aLoad = true ∧ bandRuns (switching (.load aLoad) .image) 0 = true ∧
    (let s := noBand fun q => queued 0 (enE [(0, 1)]) { started := true } { q with sw := some ⟨.load aLoad, .release 4000⟩ }
     (getPart s 0).sw = some ⟨.load aLoad, .release 4000⟩ ∧ mwf {} s.tiles = true ∧
       (entryOf s 0 0 0x01 true).isSome = true ∧ mwf {} (getPart s 0).eng = true) ∧
    (let s := noBand fun q => { q with st := .running, replaying := [aLoad] }
     (getPart s 0).replaying = [aLoad] ∧ (getPart s 0).st = .running ∧ (getPart s 0).sw = none) := by decide +kernel

/-! ## Witnesses: events, repair, tests -/

/-- A tile of partition 0 with an event to report. -/
def eventState (e : Ev) (st : PState) : State :=
  setTile (inService0 fun q => { q with st := st }) 0 0 { runTile 4 (ctlE 0) with ev := { q := [e] } }

/-- The hypotheses of OnGrid and of NoDetach as Booleans. -/
def onGridB (s : State) (t : TileId) : Bool := tileExists s t && mwf {} s.tiles
def noDetachB (s : State) : Bool := s.afterDetach.isNone && (List.range 4).all fun o => (getPort s o).detach.isNone

theorem onGridB_grid {s : State} {t : TileId} (h : onGridB s t = true) : OnGrid s t := by
  simp only [onGridB, Bool.and_eq_true] at h
  exact ⟨h.1, h.2⟩

theorem noDetachB_none {s : State} (h : noDetachB s = true) : NoDetach s := by
  simp only [noDetachB, Bool.and_eq_true, List.all_eq_true, List.mem_range, Option.isNone_iff_eq_none] at h
  exact h

/-- EventsReported, clause by clause: an event of the program, a parity error that starts a restore, a FATAL one. -/
theorem witness_events :
    (∀ e ∈ [mkEv .semUnderflow 3 7 40, mkEv .tabParity 0 9 2000, { mkEv .semUnderflow 3 7 40 with cls := .fatal }],
      let s := eventState e .running
      onGridB s at0 = true ∧ noDetachB s = true ∧ mwf {} s.parts = true ∧ mwf {} s.ports = true ∧ (tileOf s at0).ev.q = [e] ∧
      partOfTile s 0 = some 0) ∧
    (mkEv .semUnderflow 3 7 40).cls = .uncorrected ∧ (mkEv .semUnderflow 3 7 40).org = .program ∧
    (mkEv .tabParity 0 9 2000).cls = .uncorrected ∧
    (let s := eventState (mkEv .tabParity 0 9 2000) .running
     restorable (getPart s 0).st = true ∧ (getPart s 0).autoPending = false ∧ (getPart s 0).restores < 2 ∧
     mustWait (getPart s 0) = false ∧ s.sage.parityAt = []) := by decide +kernel

/-- A repair of physical tile (0, 2, 5), and a defect record of a tile of its column. -/
def aRepair (st : RepairStep) (retire : Bool) : Repair := { tiles := [(0, 2, 5)], since := 3, step := st, retire := retire }
def deadIn2 (p : Nat) : DefectRec := { kind := 1, die := 0, c := 2, p := p }

/-- FaultsAndRepair, clause by clause: the run of stalled ticks has come to its end; a tile that is silent a third time; a repair
at each step, with a spare left and with none, alone and with a restore that waits; a stack that is up, and one whose failure
waits to be reported. -/
theorem witness_repair :
    (let s := inService0 fun q => { q with st := .running, run := 8 }
     mwf {} s.parts = true ∧ (getPart s 0).st = .running ∧ (getPart s 0).run = (getPart s 0).dlNow) ∧
    (let s := setTile (inService0 id) 0 0 { runTile 4 (ctlE 0) with loaded := true, missed := 3 }
     onGridB s at0 = true ∧ partOfTile s 0 = some 0 ∧ faultOccasion s 0 0 1 = true) ∧
    (getPart (inService0 fun q => { q with repair := some (aRepair .halted false) }) 0).repair = some (aRepair .halted false) ∧
    (∀ retire ∈ [false, true], ∀ auto ∈ [false, true], ∀ used ∈ [[], [deadIn2 9, deadIn2 10]],
      let s := { inService0 fun q => { q with st := .halted, autoPending := auto, repair := some (aRepair .history retire) }
                 with defects := used }
      (getPart s 0).repair = some (aRepair .history retire) ∧ s.sage.returned = [] ∧ suspectRecs s 0 = [] ∧
      deadIn2 5 ∉ s.defects ∧ ({ kind := 3, die := 0, c := 2 } : DefectRec) ∉ s.defects ∧ (getPart s 0).sw = none ∧
      (getPart s 0).suspects = [] ∧ (getPart s 0).links = [] ∧ (decide (deadCount s 0 2 < 2) = used.isEmpty)) ∧
    (getSpine liveState 0).up0 = true ∧ (getSpine liveState 0).up1 = true ∧
    (let s := onSpine0 fun p => { p with ev := { q := [mkEv .stackFail 1 0 40] } }
     (getSpine s 0).ev.q = [mkEv .stackFail 1 0 40] ∧ (mkEv .stackFail 1 0 40).cls = .uncorrected) := by decide +kernel

/-- Physical row 64 of a column with no dead tile holds no logical tile: the column's 64 logical rows stand in rows 0-63. -/
theorem spare_row (s : State) (hd : s.defects = []) (ht : s.tiles = []) : logicalAt s 0 0 64 = none := by
  refine List.find?_eq_none.2 fun xy _ h => ?_
  have h := of_decide_eq_true h
  have hr : ∀ n c, goodRows s.defects n c = List.range 66 := fun n c => by rw [hd]; rfl
  have hn : ∀ j < 64, nth (List.range 66) j 0 = j := by decide
  unfold physPlace at h
  split at h
  · exact absurd h (by decide)
  · rename_i n c p hl
    have hp : (getTile s xy.1 xy.2).phys.getD (c, p) = (c, p) := by rw [getTile, ht]; rfl
    rw [hp] at h
    simp only [locate] at hl
    split at hl
    · have := Nat.mod_lt xy.2 (by decide : 64 > 0)
      simp only [hr, hn _ this, Option.some.injEq, Prod.mk.injEq] at h hl
      omega
    · cases hl

/-- SelfTests, clause by clause: a spare tile and an in-use tile that a test may run on, and a test that may not; a stack of
an unassigned die column; a ticket that runs; the tiles' last test; the spares' last test; marked units. -/
theorem witness_tests :
    (mayTest liveState 0 0 2 5 = true ∧ logicalAt liveState 0 2 5 = some (2, 5) ∧ partOfTile liveState 2 = some 0 ∧
      mayTest liveState 2 0 2 5 = false) ∧
    (∀ i < 4, (getPart liveState i).suspects = [] ∧ (getPart liveState i).links = []) ∧
    mwf {} liveState.tiles = true ∧ mwf 0 liveState.sage.bist = true ∧ mwf 0 liveState.sage.spareAt = true ∧
    partOfDie liveState 12 = none ∧
    (∀ t ∈ [({ num := 5, test := 1, tile := some at0, state := 0 } : Ticket),
        { num := 5, test := 0, tile := some at0, state := 0, operator := true }],
      let s := inService0 fun q => { q with tickets := [t] }
      quadRuns s (tilePlace s 0 0).1 (tilePlace s 0 0).2 = true ∧ (getPart s 0).tickets = [t] ∧ t.num = 5 ∧ t.state = 0 ∧ (getPart s 0).sw = none ∧ (getPort s (getPart s 0).port).up = true) ∧
    (let s := { liveState with sage := { liveState.sage with spareAt := [(0, 500)] } }
     (s.sage.spareAt.find? fun r => decide (r.1 = 0)) = some (0, 500) ∧ mwf 0 s.sage.spareAt = true) ∧
    (let s := { liveState with defects := [deadIn2 9], sage := { liveState.sage with passes := [(deadIn2 9, 2, 0)] }, cycle := hour }
     deadIn2 9 ∈ s.defects ∧ deadIn2 9 ∉ s.sage.returned ∧ deadIn2 9 ∉ s.sage.barred ∧ 0 + hour ≤ s.cycle) := by
  decide +kernel

/-- SelfTests, a spare tile: every test but the read check may run on it. -/
theorem witness_spare :
    mayTest liveState 1 0 0 64 = false ∧ mayTest liveState 0 0 0 64 = true ∧
    spareAt { liveState with sage := { liveState.sage with spareAt := [(0, 500)] } } 0 0 64 = true := by
  have h := spare_row liveState rfl rfl
  refine ⟨?_, ?_, ?_⟩
  · simp [mayTest, h]
  · simp only [mayTest, spareAt, h]; decide
  · rw [spareAt, spare_row _ rfl rfl]; decide

/-- SelfTests, the overdue test: partition 0 has tiles, so one of them was tested longest ago. -/
theorem witness_overdue : ∃ b, leastOf ((workTiles liveState 0).map fun xy => lastBist liveState xy.1 xy.2) = some b := by
  have h : (0, 0) ∈ workTiles liveState 0 := by
    refine List.mem_filter.2 ⟨List.mem_flatMap.2 ⟨0, ?_, List.mem_flatMap.2 ⟨0, ?_, List.mem_map.2 ⟨0, ?_, ?_⟩⟩⟩, ?_⟩ <;>
      decide +kernel
  cases hl : workTiles liveState 0 with
  | nil => rw [hl] at h; cases h
  | cons x xs =>
    cases hx : leastOf (xs.map fun xy => lastBist liveState xy.1 xy.2) with
    | none => exact ⟨_, by rw [List.map_cons, leastOf, hx]⟩
    | some b => exact ⟨_, by rw [List.map_cons, leastOf, hx]⟩

/-- PeriodicReports: the collector reached, and not, with messages held. -/
theorem witness_reports : ∀ reach : Bool,
    let s := { liveState with sage := { liveState.sage with collector := reach, minute := [(.spadCorrected, 3, 4)] } }
    s.sage.collector = reach ∧ s.sage.heldMsgs.length ≤ 8192 ∧
    (s.sage.history.map itemBytes).sum + itemBytes (.summary s.sage.counts) ≤ historyBytes := by decide +kernel

/-! ## Witnesses: the mailbox -/

/-- A command of port 0 whose request holds some fields, each as its low bit and value. -/
def aMail (n : Nat) (l : List (Nat × Nat) := []) : MailCmd :=
  { port := 0, len := n, irq := true, req := bytesLE (l.foldl (fun a p => a + p.2 * 2 ^ p.1) 0) n }

/-- The hypotheses of MailFree and of MailRuns as one Boolean. -/
def mailFreeB (s : State) (m : MailCmd) : Bool :=
  mwf {} s.ports && !(getPort s m.port.val).go && !(getPort s m.port.val).reading && (getPort s m.port.val).up
def mailRunsB (s : State) (op : Nat) (m : MailCmd) : Bool :=
  mailFreeB s m && decide (s.boot.phase = .recovery ∨ s.boot.phase = .released ∨ s.boot.phase = .prepared) && mwf {} s.parts
  && (let q := getPort (goWritten op m s) m.port.val
      decide (mailCheck (goWritten op m s) m.port.val op q.len.toNat q.req = 0))

theorem mailFreeB_free {s : State} {m : MailCmd} (h : mailFreeB s m = true) : MailFree s m := by
  simp only [mailFreeB, Bool.and_eq_true, Bool.not_eq_true'] at h
  exact ⟨h.1.1.1, h.1.1.2, h.1.2, h.2⟩

theorem mailRunsB_runs {s : State} {op : Nat} {m : MailCmd} (h : mailRunsB s op m = true) : MailRuns s op m := by
  simp only [mailRunsB, Bool.and_eq_true, decide_eq_true_eq] at h
  exact ⟨mailFreeB_free h.1.1.1, h.1.1.2, h.1.2, h.2⟩

/-- The device in recovery with a transfer of n bytes of which some have come. -/
def recoveryState (n : Nat) (got : List Byte) : State :=
  { liveState with boot := { liveState.boot with phase := .recovery, rcv := some (n, got) } }

/-- MailboxProtocol: the mailbox is free and serves; a check fails; before release it does not serve; an opcode of no table;
GO at 1; a list that Sage reads. -/
theorem witness_mail_protocol :
    mailFreeB liveState (aMail 0) = true ∧ mailServes liveState = true ∧
    mailCheck (goWritten 0x20 (aMail 0) liveState) 0 0x20 0 (getPort (goWritten 0x20 (aMail 0) liveState) 0).req = 1 ∧
    (let s := { liveState with boot := { liveState.boot with phase := .waitMain } }
     mailFreeB s (aMail 0) = true ∧ mailServes s = false) ∧
    0x77 ∉ (mailRows none).map (·.2) ∧
    (getPort (onPort fun q => { q with go := true }) 0).go = true ∧
    (getPort (onPort fun q => { q with go := true, reading := true }) 0).reading = true := by decide +kernel

/-- MailboxReads: each command with a request that passes, of its own partition and of a tile, a die, a range outside it. -/
theorem witness_mail_reads :
    partOfPort liveState 0 = some 0 ∧ liveState.boot.phase ≠ .recovery ∧
    (∀ q ∈ [(0x01, aMail 0), (0x20, aMail 8 [(0, 3)]), (0x21, aMail 8 [(0, 3), (10, 7)]), (0x21, aMail 8 [(0, 200), (19, 1)]),
        (0x22, aMail 8 [(0, 5)]), (0x22, aMail 8 [(0, 6)]), (0x23, aMail 8), (0x23, aMail 8 [(0, 1)]), (0x24, aMail 8),
        (0x25, aMail 16 [(0, 1), (32, 64), (64, 200)]), (0x25, aMail 16 [(0, 1), (64, 0)]), (0x25, aMail 16 [(0, 6), (64, 8)])],
      mailRunsB liveState q.1 q.2 = true) := by decide +kernel

/-- MailboxEffects, clause by clause. -/
theorem witness_mail_effects :
    (∀ q ∈ [(0x02, aMail 32 [(0, 1), (8, 20)]), (0x02, aMail 32 [(0, 1), (8, 3)]), (0x30, aMail 16 [(2, 1)]),
        (0x30, aMail 16 [(0, 1), (64, 5)]), (0x40, aMail 32), (0x41, aMail 1232),
        (0x10, aMail 32 [(8, 1), (16, 9), (64, 0x1000), (128, 0x2000)])], mailRunsB liveState q.1 q.2 = true) ∧
    (let b := (getPort (goWritten 0x10 (aMail 32 [(8, 1), (16, 9), (64, 0x1000), (128, 0x2000)]) liveState) 0).req
     byteField b 0 2 = 0 ∧ byteField b 8 8 = 1 ∧ byteField b 32 2 ≠ 3 ∧ byteField b 34 1 = 0 ∧ byteField b 64 64 % 64 = 0 ∧
     byteField b 128 64 % 32 = 0 ∧ (getEng (getPart liveState 0) 0).lists = [] ∧ entryOk liveState 0 0 (enE [(0, 3)]) = true) ∧
    (let r := policyRequest (getPort (goWritten 0x02 (aMail 32 [(0, 1), (8, 20)]) liveState) 0).req
     policyInRange r = true ∧ r.limit = some 20) ∧
    policyInRange (policyRequest (getPort (goWritten 0x02 (aMail 32 [(0, 1), (8, 3)]) liveState) 0).req) = false ∧
    (getPart liveState 0).nextTicket < 65535 ∧ (getPart liveState 0).tickets.length < 64 ∧
    (let s := onPort fun q => { q with ek := some (2, 900) }
     mailRunsB s 0x41 (aMail 1232) = true ∧ (getPort s 0).ek = some (2, 900) ∧ s.cycle < 900) ∧
    (∀ q ∈ [(0xF00, aMail 8 [(0, 0x4000)]), (0xF00, aMail 8 [(0, 0x4001)]), (0xF01, aMail 24 [(0, 3), (64, 7)]),
        (0xF01, aMail 24 [(0, 4), (64, 7)])], mailRunsB (recoveryState 0x4000 [1, 2, 3]) q.1 q.2 = true) ∧
    mailRunsB (recoveryState 3 [1, 2, 3]) 0xF02 (aMail 0) = true := by decide +kernel

/-- DetachAndAttach, clause by clause: a TIMEOUT out of range, a DRAIN behind a list, a DRAIN of empty queues, an ABORT, a
timeout, an ATTACH. -/
theorem witness_detach :
    partOfPort liveState 0 = some 0 ∧ noDetachB liveState = true ∧ mwf {} liveState.tiles = true ∧
    (∀ b ∈ [[(0, 0)], [(1, 60001)], [(1, 50)], [(0, 1), (1, 50)]], mailRunsB liveState 0x50 (aMail 8 b) = true) ∧
    queuesEmpty (getPart liveState 0) = true ∧ (getPort liveState 0).filter = [] ∧
    (let s := inService0 (queued 1 (enE [(0, 0x10)]))
     mailRunsB s 0x50 (aMail 8 [(1, 50)]) = true ∧ queuesEmpty (getPart s 0) = false) ∧
    mailRunsB (onPort fun q => { q with st := .detached }) 0x51 (aMail 0) = true := by decide +kernel

/-! ## Witnesses: lists and engines -/

/-- An entry of the stream engine: code, LEN or SLOTS, HADDR, SADDR, DADDR, and a tile (3, 7), window 2, OFFSET 7. -/
def sE (op len h sa da : Nat) (l : List (Nat × Nat) := []) : Unit512 :=
  enE ([(0, op), (64, h), (128, sa), (192, da), (256, len), (288, 3), (298, 7), (307, 2), (309, 7)] ++ l)
/-- Partition 0 in a PSTATE with the entry in its stream engine. -/
def streamSt (e : Unit512) (c : Entry := {}) (st : PState := .running) : State :=
  inService0 fun q => queued 1 e c { q with st := st, steNo := 4 }

/-- The maps of EngineMaps as one Boolean. -/
def engineMapsB (s : State) : Bool :=
  mwf {} s.parts && mwf {} s.ports && mwf {} (getPart s 0).eng && mwf {} s.spines
theorem engineMapsB_maps {s : State} (h : engineMapsB s = true) : EngineMaps s 0 := by
  simp only [engineMapsB, Bool.and_eq_true] at h
  exact ⟨h.1.1.1, h.1.1.2, h.1.2, h.2⟩

/-- A queued list of partition 0's Array engine starts, whether or not a list it depends on has failed. -/
theorem witness_list_start :
    ∀ failed ∈ [false, true],
      let l : CmdList := { aList 0 with started := false, depFailed := failed }
      let s := inService0 fun q => { q with eng := [(1, { lists := [l] })] }
      engineMapsB s = true ∧ (getEng (getPart s 0) 1).lists = [l] ∧ (getEng (getPart s 0) 1).held.length < 16 := by
  decide +kernel

theorem witness_no_boot_event : liveState.boot.event = none := rfl

/-- An ended entry, the last of its list and not, with its port up and down. -/
theorem witness_entry_complete :
    ∀ up ∈ [false, true], ∀ index ∈ [0, 1],
      let l : CmdList := { aList 0 with entries := [0, 0], index := index }
      let s := onPort (fun q => { q with up := up }) (inService0 fun q =>
        { q with eng := [(1, { lists := [l], cur := { ended := some (0x403, 7, 0) } })] })
      engineMapsB s = true ∧ (getEng (getPart s 0) 1).cur.ended = some (0x403, 7, 0) ∧ noDetachB s = true ∧
      (getPort s 0).up = up ∧ (getEng (getPart s 0) 1).held.length < 16 := by
  decide +kernel

/-- Both channel operations, of an armed channel and of one that is not. -/
theorem witness_channels :
    ∀ op ∈ [0x20, 0x21], ∀ armed ∈ [false, true],
      let e := enE [(0, op), (64, 1), (66, 1)]
      let s := inService0 fun q => queued 2 e {} { q with chan := [(1, { armed := armed, acc := 5 })] }
      engineMapsB s = true ∧ entryOf s 0 2 op false = some (aList e, e, {}) ∧ mwf {} (getPart s 0).chan = true ∧
      (mget {} (getPart s 0).chan (fld e.toNat 64 2)).armed = armed := by
  decide +kernel

/-- A read of a run of bytes by the stream engine of partition 0, at byte ofs of its granule. -/
def engineRead (ofs len : Nat) : DramRead :=
  { granule := 16, opened := 0, entry := true, joinable := true, joins := [.engine 0 4 ofs len], data := 0x55, poison := 0, due := 96 }
def reading (e : Unit512) (ofs len : Nat) (c : Entry := { started := true }) : State :=
  onSpine0 (fun p => { p with reads := mset [] [] (sliceOf 4096) [engineRead ofs len] }) (streamSt e { c with reading := some 4 })

/-- PieceComes has a witness: the bytes an entry holds once the read of its granule has returned. -/
theorem witness_piece :
    let c : Entry := { started := true, reading := some 4 }
    PieceComes (reading (sE 0x11 100 0x5018 4160 8200) 64 40 c) 0 c 0 ⟨sliceOf 4096, by decide +kernel⟩
      ⟨.clean, .clean, .clean, .clean, .clean⟩ (slice (bytesLE 0x55 256) 64 40) 0 := by
  refine ⟨engineRead 64 40, [{ engineRead 64 40 with returned := true }], 4, 64, 40, ?_, rfl, rfl, by decide, by decide, by decide, ?_, ?_⟩ <;>
    decide +kernel

/-- HostTransfers, clause by clause: H2S and IMG, S2H and S2S with no line of a host in the way, S2H of a stack that is down;
entries that wait for the host; a line that the host gives back. -/
theorem witness_host_transfers :
    (∀ op ∈ [0x10, 0x13, 0x11, 0x12], let e := sE op 100 0x5010 4112 8200
      let s := streamSt e
      engineMapsB s = true ∧ openEntry s 0 1 = some (aList e, e, {}) ∧ 1 ≤ enLen e ∧ enOp e = op ∧ (getPort s 0).up = true ∧
      trackedLines s 0 (enSaddr e) 100 = [] ∧ trackedLines s 0 (enDaddr e) 100 = [] ∧
      stackServes s (paToDa (getPart s 0) (enSaddr e)) = true) ∧
    (let e := sE 0x11 64 0x5000 4096 0
     let s := onSpine0 (fun p => { p with up0 := false, up1 := false }) (streamSt e)
     ∀ i < 64, stackServes s (paToDa (getPart s 0) (enSaddr e + i)) = false) ∧
    (∀ op ∈ [0x11, 0x12], ∀ len ∈ [40, 100], let e := sE op len 0x5018 4160 8200
      let s := reading e 64 40
      openEntry s 0 1 = some (aList e, e, { started := true, reading := some 4 }) ∧ mwf [] (getSpine s 0).reads = true ∧
      trackedLines s 0 (enSaddr e + 40) 100 = [] ∧ stackServes s (paToDa (getPart s 0) (enSaddr e + 40)) = true) ∧
    (∀ op ∈ [0x10, 0x11], ∀ len ∈ [64, 100], let e := sE op len 0x5000 4096 0
      let c : Entry := { started := true, asked := some 3, reqAddr := 0x5000, reqLen := 64 }
      let s := streamSt e c
      openEntry s 0 1 = some (aList e, e, c) ∧ trackedLines s 0 (enSaddr e) 64 = [] ∧ Memory.wf s.stk.mem ∧
      (∀ i < 64, stackServes s (paToDa (getPart s 0) (enSaddr e + i)) = true) ∧ (decide (enLen e ≤ 64) = decide (len = 64))) ∧
    (let s := onPort fun q => { q with filter := [64, 65], snoops := [64] }
     64 ∈ (getPort s 0).snoops ∧ partOfPort s 0 = some 0 ∧ openEntry s 0 1 = none ∧ (curOf s 0).wecc = .clean ∧
     stackServes s (paToDa (getPart s 0) (64 * 64)) = true ∧ (getPort s 0).heldReads = []) := by decide +kernel

/-- The response of tile (3, 7) to a read of two slots, and the read that it answers. -/
def aResp : Packet :=
  { header := packHdr { kind := 4, dx := 3, dy := 7, npay := 2, issuer := 7, tag := 0, seq := 6, offset := 7 }, by_ := 2
    payload := [(5, false), (6, true)], ready := 3 }
def aReadOut : ReadOut :=
  { issuer := 2, part := 0, tap := none, tag := 0, seq := 6, x := 3, y := 7, offset := 7, npay := 2 }
def withResp (s : State) : State := { s with resps := [aResp], asked := [aReadOut] }

/-- TileTransfers: each code in a partition that runs and in one that is IDLE, with and without CONFIRM. -/
theorem witness_tile_transfers :
    ∀ op ∈ [0x14, 0x15, 0x16, 0x17, 0x18], ∀ conf ∈ [0, 1], ∀ st ∈ [PState.running, .idle],
      let e := sE op 3 0x5000 4160 (if op = 0x18 then copyWord else 8192) [(320, 1), (322, conf)]
      let s := streamSt e {} st
      engineMapsB s = true ∧ openEntry s 0 1 = some (aList e, e, {}) ∧ enSlots e = 3 ∧ enOp e = op ∧ (getPart s 0).st = st ∧
      (getPart s 0).suspended = false ∧ mayIssue s 2 none 0 = true ∧ mayIssue s 2 (some (tileDie s 3 7)) 0 = true ∧
      (confirmCount s e).isSome = true ∧ trackedLines s 0 4160 192 = [] ∧
      stackServes s (paToDa (getPart s 0) 4160) = true := by decide +kernel

/-- TCMD by its BOP: a FILL takes its slot from the host and sends it, a COPY sends no slot. -/
theorem witness_tcmd :
    bOp (BitVec.ofNat 64 (enDaddr (sE 0x18 1 0x5000 0 fillWord))) = 1 ∧
    bOp (BitVec.ofNat 64 (enDaddr (sE 0x18 1 0x5000 0 copyWord))) ≠ 1 ∧
    (let e := sE 0x18 1 0x5000 0 fillWord
     let c : Entry := { started := true, asked := some 3, reqAddr := 0x5000, reqLen := 64 }
     openEntry (streamSt e c) 0 1 = some (aList e, e, c) ∧ c.packets = 0) := by decide +kernel

/-- Slots that come from the host and from stack memory. -/
theorem witness_slots_come :
    (let e := sE 0x14 3 0x5000 0 0
     let c : Entry := { started := true, asked := some 3, reqAddr := 0x5080, reqLen := 64, ready := [(1, false), (2, true)], moved := 128 }
     openEntry (streamSt e c) 0 1 = some (aList e, e, c) ∧ c.sent + c.ready.length + 1 = enSlots e) ∧
    (let e := sE 0x15 1 0 4160 0
     let s := reading e 64 64
     openEntry s 0 1 = some (aList e, e, { started := true, reading := some 4 }) ∧ 64 = 64 * min 8 (enSlots e - 0)) := by decide +kernel

/-- A response, and a poll. -/
theorem witness_tile_answers :
    (∀ op ∈ [0x16, 0x17], let e := sE op 2 0x5000 4096 0
      let c : Entry := { started := true, sent := 2, packets := 1, lastSent := some 5 }
      let s := withResp (streamSt e c)
      openEntry s 0 1 = some (aList e, e, c) ∧ s.asked.find? (answers aResp) = some aReadOut ∧ aResp.by_ = 2 + 0 ∧
      hTag aResp.header = 0 ∧ hOffset aResp.header = 7 ∧ sentEntry s 0 = some (e, c) ∧
      trackedLines s 0 4096 128 = [] ∧ ∀ i < 128, stackServes s (paToDa (getPart s 0) (4096 + i)) = true) ∧
    (let e := sE 0x14 2 0x5000 0 0 [(320, 1), (322, 1)]
     let c : Entry := { started := true, sent := 2, packets := 1, lastSent := some 5, base := some 3 }
     sentEntry (streamSt e c) 0 = some (e, c) ∧ c.base = some 3 ∧ c.lastSent = some 5) := by decide +kernel

/-! ## Witnesses: ports, the operator, start-up, power -/

/-- PortCommands: keys installed, a key pair that expires, a decoder's own size; GO at 0; the last vector's mask set, and cleared with
its pending bit 0 and 1. -/
theorem witness_ports :
    (let s := onPort fun q => { q with keys := [(0, [1, 2])], ek := some (3, 900) }
     (getPort s 0).up = true ∧ mget [] (getPort s 0).keys 0 ≠ [] ∧ mget [] (getPort s 0).keys 1 = [] ∧
     (getPort s 0).ek = some (3, 900) ∧ partOfPort s 0 = some 0 ∧ mwf {} s.ports = true) ∧
    (getPort liveState 0).go = false ∧ (getPort liveState 0).reading = false ∧ mailServes liveState = true ∧
    ((0xA000000000200001#64).getLsbD 63 = true ∧ fld (0xA000000000200001#64).toNat 0 16 = 0x01) ∧
    (0x18008 + 16 * 31 = 0x181F8 ∧ (0x100000000#64).getLsbD 32 = true ∧ (0#64).getLsbD 32 = false ∧
     (getPort liveState 0).msixPend.getLsbD 31 = false ∧
     (getPort (onPort fun q => { q with msixPend := 0x80000000 }) 0).msixPend.getLsbD 31 = true) := by decide +kernel

/-- LinksOfPorts, clause by clause: a link that trains, after release and before; one that goes down under IDE, with no entry and
with an entry that needs the host; 60 s without a link; a function level reset; the same of a port without a partition. -/
theorem witness_port_links :
    (let s := onPort fun q => { q with up := false }
     mwf {} s.ports = true ∧ mwf {} s.parts = true ∧ partOfPort s 0 = some 0 ∧ mwf {} (getPart s 0).eng = true ∧
     (getPort s 0).up = false ∧ s.boot.phase = .released ∧ openEntry s 0 1 = none) ∧
    (let s := onPort fun q => { q with ide := true }
     (getPort s 0).ide = true ∧ (getPort s 0).up = true ∧ (getPort s 0).st = .attached ∧ noDetachB s = true ∧ openEntry s 0 1 = none) ∧
    (let e := enE [(0, 0x10), (256, 100)]
     let s := streamState false
     partOfPort s 0 = some 0 ∧ openEntry (inService0 (queued 1 e { started := true })) 0 1 = some (aList e, e, { started := true }) ∧
     enOp e = 0x10) ∧
    (let s := onPort fun q => { q with up := false, downAt := some 440 }
     (getPort s 0).downAt = some 440 ∧ (getPort s 0).st = .attached ∧ (getPort s 0).filter = [] ∧ noDetachB s = true ∧
     mwf {} s.tiles = true) ∧
    (let s := { liveState with ports := [(0, getPort liveState 0), (1, { up := true })] }
     partOfPort s 1 = none ∧ (getPort s 1).up = true ∧ s.boot.phase = .released ∧ noDetachB s = true) := by decide +kernel

/-- PortWithoutPartition: port 1, its link down and up. -/
theorem witness_no_partition :
    partOfPort liveState 1 = none ∧ (getPort liveState 1).up = false ∧ (getPort liveState 1).detach = none ∧
    (let s := { liveState with ports := [(0, getPort liveState 0), (1, { up := true })] }
     mailFreeB s { aMail 0 with port := 1 } = true ∧ mailFreeB s { aMail 32 with port := 1 } = true ∧
     (getPort s 1).st = .detached ∧ partOfPort s 1 = none) := by decide +kernel

/-- OperatorSettings, clause by clause. -/
theorem witness_operator :
    inService liveState = true ∧ mwf {} liveState.parts = true ∧ mwf {} liveState.ports = true ∧
    ({ liveState.boot with phase := .waitMain } : Boot).phase = .waitMain ∧
    setValid [⟨0, 1, 0, 0⟩] = false ∧
    (setValid [⟨0, 0, 1, 0⟩] = true ∧ setAllowed liveState [⟨0, 0, 1, 0⟩] = false) ∧
    (let s := onPort fun q => { q with st := .detached }
     inService s = true ∧ setAllowed s [⟨0, 0, 1, 0⟩] = true ∧ columnOwner s 1 = none) ∧
    policyInRange { limit := some 20 } = true ∧ policyInRange { limit := some 40 } = false ∧
    (getPart liveState 0).set_ = true ∧ ownsTile liveState 0 0 0 = true ∧ (getPart liveState 0).nextTicket < 65535 ∧
    regionInUse liveState 0 (some at0) = false ∧
    regionInUse (setTile liveState 0 0 (runTile 4 (ctlE 0))) 0 (some at0) = false ∧
    regionInUse (setTile liveState 0 0 { runTile 4 (ctlE 0) with loaded := true }) 0 (some at0) = true := by decide +kernel

/-- OperatorResets: quiet and not; a boot whose image is newer than the fuses, on trial and from the other slot. -/
theorem witness_resets :
    inService liveState = true ∧ deviceQuiet liveState = false ∧ noDetachB liveState = true ∧ (∀ o < 4, (getPort liveState o).filter = []) ∧
    deviceQuiet (onPort fun q => { q with st := .detached, up := false }) = true ∧
    (let b := { liveState.boot with latch := { liveState.boot.latch with svn := 5 } }
     b.latch.boot = .normal ∧ b.latch.trial = false ∧ popcount b.fuses.svnfuse.toNat 64 < b.latch.svn ∧ b.latch.svn ≤ 64) ∧
    verifyImage liveState.boot.fuses.pkhash (popcount liveState.boot.fuses.svnfuse.toNat 64) [1, 2, 3] ≠ 0 ∧
    (bootRec liveState.boot).seq.toNat < 2 ^ 32 - 1 := by decide +kernel

/-- A firmware image whose key and signature are zeros: header, BODYHASH, a body of 4,096 zeros. -/
def anImage : List Byte :=
  bytesLE (0x46575244 + 2 ^ 32 + 3 * 2 ^ 48 + 4096 * 2 ^ 128) 64 ++ bytesLE 0xa72c89488bbdda857a7cb47cff05584f026bd1d1d704c066e9c66f58b2ac7fad 32 ++ List.replicate (0x3000 - 96 + 4096) 0

set_option maxRecDepth 100000 in
/-- OperatorResets with v = 0: anImage verifies under the hash of its key where its body has the hash that stands in it and its
signature is good. Whether some signature is good is the algorithm's to say, which the model holds open. -/
theorem witness_verified (h5 : sha256 (imBody anImage) = imBodyhash anImage)
    (h : Config.slhDsaVerify (imPk anImage) (slice anImage 0 0x1000) (imSig anImage) = true) :
    verifyImage (shaWord (imPk anImage)) 0 anImage = 0 := by
  have h1 : ¬(anImage.length < 0x3000 ∨ imMagic anImage ≠ 0x46575244 ∨ imFormat anImage ≠ 1 ∨ byteField anImage 56 8 ≠ 0
      ∨ (!(slice anImage 20 12).all fun b => decide (b = 0)) ∨ (!(slice anImage 96 4000).all fun b => decide (b = 0))
      ∨ (!(slice anImage 11952 336).all fun b => decide (b = 0))) := by decide +kernel
  have h2 : ¬(imBodylen anImage % 4096 ≠ 0 ∨ imBodylen anImage < 4096 ∨ imBodylen anImage > 0x01FFD000) := by decide +kernel
  have h4 : (imBody anImage).length = imBodylen anImage := by decide +kernel
  rw [verifyImage, if_neg h1, if_neg h2, if_neg (fun k => k rfl), h, if_neg (by decide), if_neg (by simp [h4, h5]), if_neg (Nat.not_lt_zero _)]

/-- StartUp, clause by clause. -/
theorem witness_startup :
    State.reset.module_.present = false ∧ liveState.module_.present = true ∧
    (let s := { liveState with boot := { liveState.boot with phase := .aux } }
     (bootRec s.boot).pending = false ∧ verify s (slotOf s.boot (bootRec s.boot).active) ≠ 0 ∧
     verify s (slotOf s.boot (!(bootRec s.boot).active)) ≠ 0) ∧
    (let s := { liveState with module_ := { liveState.module_ with wantMain := true, mainOn := false }, boot := { liveState.boot with phase := .waitMain } }
     s.module_.auxOn = true ∧ s.module_.flowOk = true ∧ s.module_.flowLatched = false ∧ s.module_.epoLatched = false ∧
     (∀ o < 4, (getPort s o).waiting = none) ∧ mwf {} s.spines = true) ∧
    liveState.module_.mainOn = true ∧ inService liveState = true ∧ liveState.boot.lockAt = [] ∧
    (∀ e ∈ liveState.sage.ev.q, e.code ≠ .coolantLow) := by decide +kernel

/-- ManagementTick: the device in service, with a partition under a host power limit and without. -/
theorem witness_tick : ∀ hp ∈ [0, 90],
    let s := inService0 fun q => { q with policy := { q.policy with hplim := hp }, kp := 9 }
    s.module_.auxOn = true ∧ s.boot.phase = .released ∧ mwf {} s.parts = true ∧ mwf {} s.ports = true ∧
    mwf {} s.power.dom = true ∧ mwf 0 s.power.tele.temps = true ∧ (getPart s 0).policy.hplim = hp ∧
    ∀ p < 4, ∀ w ∈ (getPart s p).sw, w.phase ≠ .test 0 := by decide +kernel

/-- The device in service with one domain in a state. -/
def domState (d : Nat) (x : Domain) (s : State := liveState) : State :=
  { s with power := { s.power with dom := mset {} s.power.dom d x } }

/-- PowerAndHeat, clause by clause: a switch and a divider that ramp, up and down, in use and not; a quadrant that has not
tripped and one that has. -/
theorem witness_power :
    (getDom (domState 0 { st := .off, ramp := .switch 48 }) 0).ramp = .switch 48 ∧ hasRoot 0 = true ∧
    (∀ up ∈ [false, true], ∀ k ∈ [0, 2, 4],
      (getDom (domState 0 { st := .stopped, ramp := .divider up k 101 }) 0).ramp = .divider up k 101) ∧
    domInUse liveState 0 = true ∧ domInUse (noBand id) 100 = false ∧
    (let s := domState 0 { st := .run, ramp := .none }
     mget 0 s.power.quads.tripped 0 = 0 ∧ (getDom s 0).st = .run ∧ (getDom s 0).ramp = .none ∧
     mwf 0 s.power.quads.tripped = true ∧ mwf 16 s.power.quads.kt = true ∧ mwf {} s.power.dom = true) ∧
    coolantLost liveState = false ∧
    coolantLost { liveState with boot := { liveState.boot with event := some (BitVec.ofNat 256 (evNum .coolantLow)) } } = true ∧
    (let s := { liveState with power := { liveState.power with quads := { liveState.power.quads with tripped := [(0, 600)] } } }
     mget 0 s.power.quads.tripped 0 ≠ 0 ∧ mwf 0 s.power.quads.tripped = true ∧ partOfDie s 0 = some 0) := by decide +kernel

/-- R360: a vector that is masked at reset sets its pending bit and sends nothing; one that is unmasked is sent. -/
theorem test_msix_mask :
    (let q := putVector 2 {}; q.out = [] ∧ q.msixPend = 4) ∧
    (let q := putVector 2 { msixMask := 0xFFFFFFFB }; q.out = [.vector 2] ∧ q.msixPend = 0) := by decide +kernel

/-! ## Worked examples of the spec -/

/-- The two encodings under Tab entry layout (after R23). -/
theorem test_entry_layout :
    (let e : TabEntry := 0x00000000020210060000000000000000#128
     eSrca e = 8 ∧ ePopa e = true ∧ eDst e = 1 ∧ eWrop e = 1 ∧ eWrtag e = 2 ∧ eCtl e = 0 ∧ malformed e 4 = false) ∧
    (let e : TabEntry := 0x20000800024200000000002380800000#128
     eCtl e = 2 ∧ eLcsel e = 0 ∧ eTarget e = 2 ∧ eSrca e = 9 ∧ ePopa e = true ∧ eSem2op e = 1 ∧ eSem2id e = 7 ∧ eSem2val e = 1 ∧
     malformed e 6 = false) := by decide +kernel

/-- R22, item by item: a RSVD bit, SEMID 48, both operations on one semaphore, RDOP with no source, WROP with no destination,
UNIT 0 with CUFMT, an undefined operation, the last entry. -/
theorem test_malformed :
    ∀ q ∈ [(ent [(22, 1)], 0), (ent [(61, 2), (55, 48)], 0), (ent [(61, 2), (37, 1)], 0), (ent [(70, 1)], 0), (ent [(66, 1)], 0),
      (ent [(94, 1)], 0), (vecE 0x16 1 srcA, 0), (ent [], 1023)], malformed q.1 q.2 = true := by decide +kernel

/-- The products of a column from codes. -/
def prods (f : Nat) (pa pb : Piece) (l : List (Nat × Nat)) : List Prod :=
  l.map fun q => mkProd pa pb (decodeFloat f q.1) (decodeFloat f q.2)

/-- Table 2.8. -/
theorem test_column_example :
    (accAdd false true 0 (columnValue (some 0) (prods 3 .whole .whole
      [(0x3F80, 0x3F80), (0x3E01, 0x3E01), (0xBFFF, 0x3AC0), (0x4040, 0x0000)]))).1 = 0x3F81A880 := by decide +kernel

/-- Tables 3.9 and 3.10: the row after each pass is 5,024, 12,160 and 1,027,456 times 2^-20. -/
theorem test_split_passes :
    let ps := [(0x3C07, 0x3C05), (0x2809, 0xBC0B)]
    let hl := (accAdd false true 0 (columnValue (some 0) (prods 2 .h16 .l16 ps))).1
    let lh := (accAdd false false hl (columnValue (some 0) (prods 2 .l16 .h16 ps))).1
    let hh := (accAdd false false lh (columnValue (some 0) (prods 2 .h16 .h16 ps))).1
    hl = rne32 (.fin false 5024 (-20)) ∧ lh = rne32 (.fin false 12160 (-20)) ∧ hh = rne32 (.fin false 1027456 (-20)) ∧
    hh = 0x3F7AD800 := by decide +kernel

/-- Table 3.6. -/
theorem test_conversions :
    let v := decodeFloat 1 0x3E99999A
    (convFloat 4 false .rne v).code = 0x2A ∧ (convFloat 4 false .rtz v).code = 0x29 ∧
    (convFloat 4 false (.sr 6710880) v).code = 0x2A ∧ (convFloat 4 false (.sr 6710879) v).code = 0x29 ∧
    convFloat 4 false .rne (.fin false 464 0) = { code := 0x7E } ∧ convFloat 4 false .rne (.fin false 470 0) = { code := 0x7E, sat := true } ∧
    convFloat 4 true .rne (.fin false 470 0) = { code := 0x7F } ∧
    (convFloat 4 false .rne (decodeFloat 1 0xBA83126F)).code = 0x81 ∧ (convFloat 4 false .rtz (decodeFloat 1 0xBA83126F)).code = 0x80 := by
  decide +kernel

/-- The worked example of block scaling before Table 4.4: 37.6 and -0.0049 in one block, 0.91 in the other. -/
theorem test_block_scales :
    (let vs := [decodeFloat 1 0x42166666, decodeFloat 1 0xBBA0902E]
     blockScale 4 vs = 0x7C ∧ (blockElems 4 0 0x7C [] vs).map (·.code) = [0x79, 0x92]) ∧
    (let vs := [decodeFloat 1 0x3F68F5C3]
     blockScale 4 vs = 0x76 ∧ blockElems 4 0 0x76 [] vs = [{ code := 0x7E, sat := true }]) := by decide +kernel

/-- Lane 0 of Table 10.3, addition by addition. -/
theorem test_tree_of_sums :
    let add := floatOp 1 vAdd
    add 0x3F800000 0x33800000 = 0x3F800000 ∧ add 0x33800000 0x33800000 = 0x34000000 ∧ add 0x3F800000 0x34000000 = 0x3F800001 ∧
    add 0x3F800001 0x33800000 = 0x3F800002 := by decide +kernel

/-- R54 and Table 2.6: a load of 64 B of FP8 in mode 4x64 fills row 3 and wraps LROW. -/
theorem test_load_wraps_lrow :
    (bankLoad 2 4 0 3 0 {} { data := 7 }).2 = (0, 0) ∧ (bankLoad 2 4 0 2 0 {} { data := 7 }).2 = (3, 0) := by decide +kernel

/-- The worked encoding of a header under R215. -/
theorem test_packet_header :
    packHdr { segs := [(3, 3), (2, 130)], kind := 1, dx := 37, dy := 130, tag := 0x0A31, seq := 0x7FFE, npay := 2, win := 2, offset := 5,
              issuer := 1 }
      = BitVec.ofNat 512 (0x00000000020A00F2 + 0x0208251000000000 * 2 ^ 64 + 0x000001627FFE0A31 * 2 ^ 128 + 1 * 2 ^ 192) := by
  decide +kernel

/-- Table 8.4: a read of cycle 163 joins the entry of cycle 100 and one of cycle 164 opens another; data comes 96 cycles after
the start of service. -/
theorem test_merging :
    let s := arriveRead 0 0x246C 100 (.stream 10 0) liveState
    let reads := fun (q : State) => (mget [] (getSpine q 0).reads (sliceOf (256 * 0x246C)))
    (reads s).map (·.due) = [196] ∧ (reads (arriveRead 0 0x246C 163 (.stream 11 0) s)).map (·.joins.length) = [2] ∧
    (reads (arriveRead 0 0x246C 164 (.stream 11 0) s)).length = 2 := by decide +kernel

/-- The completion record under Table 12.23. -/
theorem test_completion_record :
    let s := { liveState with cycle := 5, parts := [(1, { restoreSeq := 3 })] }
    complRecord s 1 0 { aList 0 with tag := 7, seq := 3 } { section_ := 1 } 0 1 6
      = BitVec.ofNat 256 (0x0001000700080000 + 5 * 2 ^ 64 + 1 * 2 ^ 128 + 6 * 2 ^ 192) := by decide +kernel

/-- The check values of Table 12.22. -/
theorem test_check_values :
    let bs : List Byte := [0x31, 0x32, 0x33, 0x34, 0x35, 0x36, 0x37, 0x38, 0x39]
    crc32c bs = 0xE3069283 ∧ crc64 bs = 0xAE8B14860A799888 := by decide +kernel

/-- The row of 3.001 s in Table 13.10 and the tick after it. -/
theorem test_capo_level : nextKp 270005 336000 16 = 12 ∧ nextKp 270005 272000 12 = 11 ∧ nextKp 270005 256000 11 = 12 := by decide +kernel

/-- Table 5.7: the step of T(40, 8), whose last SEG fires in cycle 24, is complete at the end of cycle 63; that of T(43, 8), whose
chunk 63 issues in cycle 65, at the end of cycle 104. -/
theorem test_steps_complete :
    let p : SpStep := { fallback := false, budget := 24, rows := 16, kt := 64, dbase := 0, fmt := 3, semid := 9, count := 1,
                        begun := 0, lastSeg := some 24 }
    stepDone p = some 64 ∧ stepDone { p with fallback := true, issued := stepChunks p, lastChunk := 65 } = some 105 := by decide +kernel
end

/-! ## The invariant under what moves through the frets (R193-R265) -/

section
namespace Sys2Proof.Machine

variable {s : State} {x y c core now inp o d port : Nat} {f : Flit} {i : TileId}

/-- A choice between two states that meet the invariant. -/
theorem inv_ite {q : Prop} [Decidable q] {a b : State} (ha : Inv a) (hb : Inv b) : Inv (if q then a else b) := by
  split
  · exact ha
  · exact hb

/-- A further change that is made in one case only. -/
theorem inv_when {q : Prop} [Decidable q] {a b : State} (ha : Inv a) (hb : Inv a → Inv b) : Inv (if q then b else a) :=
  inv_ite (hb ha) ha

/-- The invariant reads the maps of tiles, spines, partitions, ports and domains, and stack memory: every other field may
change. -/
theorem Inv.rest {grade : Grade} {defects : List DefectRec} {wires : SMap WireState} {sage : Sage} {boot : Boot}
    {module_ : Module} {issued resps asked afterDetach mgmt pktSeq cycle pending} (h : Inv s) :
    Inv { s with
      grade := grade, defects := defects, wires := wires, sage := sage, boot := boot, module_ := module_, issued := issued
      resps := resps, asked := asked, afterDetach := afterDetach, mgmt := mgmt, pktSeq := pktSeq, cycle := cycle
      pending := pending } :=
  h.of_eq rfl rfl rfl rfl rfl rfl

theorem inv_power {dom : SMap Domain} {quads : Quads} {capo : Capo} {tele : Tele} (h : Inv s) (hd : mwf {} dom = true) :
    Inv { s with power := { dom := dom, quads := quads, capo := capo, tele := tele } } :=
  ⟨h.tiles, h.spines, h.mem, h.poison, h.corrected, h.parts, h.ports, hd⟩

theorem inv_releaseToken (h : Inv s) : Inv (releaseToken core f s) := inv_modTile h ..
theorem inv_releaseAll {fs : List Flit} (h : Inv s) : Inv (releaseAll core fs s) :=
  inv_foldl h _ _ fun _ _ h => inv_releaseToken h
theorem inv_outside {g : Nat → Tile → Tile} (h : Inv s) : Inv (outside i g s) := inv_modTile h ..
theorem inv_tabStep {u : Upset} (h : Inv s) : Inv (tabStep i u s) :=
  inv_releaseAll (inv_setTile (inv_advanceTo h _) ..)

theorem inv_returnCredit (h : Inv s) : Inv (returnCredit x y inp c s) := by
  unfold returnCredit
  split
  · exact h
  · split
    · exact h
    · exact inv_modTile h ..

theorem inv_settleOne (h : Inv s) : Inv (settleOne x y inp now s) := by
  unfold settleOne
  dsimp only
  split
  · exact h
  · exact inv_ite (inv_when (inv_setTile h ..) inv_returnCredit) h

theorem inv_settleInput (h : Inv s) : Inv (settleInput x y inp now s) :=
  inv_foldl h _ _ fun _ _ h => inv_settleOne h

theorem inv_popInput (h : Inv s) : Inv (popInput x y inp c s) :=
  inv_when (inv_setTile (inv_settleInput h) ..) inv_returnCredit

theorem inv_arriveFlit (h : Inv s) : Inv (arriveFlit x y inp c f s) := inv_setTile h ..

theorem inv_takeTerm (h : Inv s) : Inv (takeTerm x y inp c s) :=
  inv_when (inv_setTile (inv_settleInput h) ..) inv_returnCredit

theorem inv_sendOn (h : Inv s) : Inv (sendOn x y inp o c f s) := by
  unfold sendOn
  split
  · exact h
  · exact inv_arriveFlit (inv_setTile h ..)

theorem inv_deliverWindow (h : Inv s) : Inv (deliverWindow x y inp c f s) :=
  inv_when (inv_setTile h ..) inv_releaseToken

theorem inv_leaveOn (h : Inv s) : Inv (leaveOn x y inp c f o s) :=
  inv_ite (inv_sendOn h) (inv_ite (inv_setTile h ..) (inv_deliverWindow h))

theorem inv_branchTokens {n : Nat} (h : Inv s) : Inv (branchTokens f n s) := inv_ite h (inv_modTile h ..)

theorem inv_forwardFlit (h : Inv s) : Inv (forwardFlit x y inp c f s) := by
  unfold forwardFlit
  dsimp only
  split
  · exact h
  · exact inv_when (inv_modTile (inv_foldl (inv_when (inv_settleInput (inv_advanceTo h _)) inv_branchTokens) _ _
      fun _ _ h => inv_leaveOn h) ..) inv_popInput

theorem inv_dropStale (h : Inv s) : Inv (dropStale x y inp c s) := by
  unfold dropStale
  dsimp only
  split
  · exact inv_settleInput h
  · exact inv_when (inv_setTile (inv_advanceTo (inv_settleInput h) _) ..) inv_returnCredit

theorem inv_windowTerm (h : Inv s) : Inv (windowTerm x y inp s) := by
  unfold windowTerm
  dsimp only
  split
  · exact h
  · exact inv_ite h (inv_takeTerm (inv_deliverWindow (inv_advanceTo h _)))

theorem inv_hopFlit {u : Upset} (h : Inv s) : Inv (hopFlit x y inp u s) := by
  unfold hopFlit
  dsimp only
  split
  · exact inv_ite h (inv_dropStale h)
  · exact inv_windowTerm h
  · exact inv_ite h <| inv_ite (inv_windowTerm h) <| inv_ite (inv_modTile (inv_advanceTo h _) ..) <|
      inv_ite (inv_popInput (inv_modTile (inv_advanceTo h _) ..)) <|
        inv_ite (inv_forwardFlit (inv_modTile h ..)) (inv_forwardFlit h)

theorem inv_queueArrive (h : Inv s) : Inv (queueArrive x y inp s) := by
  unfold queueArrive
  dsimp only
  split
  · exact h
  · refine inv_ite h ?_
    split
    case h_1 => exact inv_modTile (inv_takeTerm (inv_advanceTo h _)) ..
    case h_2 => exact inv_releaseToken (inv_modTile (inv_takeTerm (inv_advanceTo h _)) ..)
    case h_3 =>
      refine inv_ite (inv_modTile (inv_takeTerm (inv_advanceTo h _)) ..) ?_
      split
      · exact h
      · exact inv_modTile (inv_takeTerm (inv_modTile (inv_advanceTo h _) ..)) ..

theorem inv_failPort (h : Inv s) : Inv (failPort x y d s) := inv_modTile h ..

theorem inv_failLink (h : Inv s) : Inv (failLink x y d s) := by
  unfold failLink
  split
  · exact h
  · exact inv_ite h (inv_modTile (inv_failPort (inv_failPort h)) ..)

theorem inv_failLane {g : WireGroup} (h : Inv s) : Inv (failLane g s) := by
  unfold failLane
  dsimp only
  split
  · exact inv_failLink h
  · exact inv_failLink h
  · exact h

/-! ### Packets -/

theorem inv_takePkt {last : Bool} {way : PktWay} (h : Inv s) : Inv (takePkt x y port c last way s) :=
  inv_when (inv_modTile h ..) inv_returnCredit

theorem inv_discardPacket {code : EvCode} {q : Unit512} (h : Inv s) : Inv (discardPacket code x y c q s) := inv_modTile h ..

theorem inv_gatherFlit {g : PFlit} {whole : Packet → State → State} (h : Inv s)
    (hw : ∀ p s, Inv s → Inv (whole p s)) : Inv (gatherFlit x y port g whole s) :=
  inv_ite (hw _ _ (inv_modTile h ..)) (inv_modTile h ..)

theorem inv_sendPkt {g : PFlit} (h : Inv s) : Inv (sendPkt x y port d c g s) := by
  unfold sendPkt
  dsimp only
  split
  · exact h
  · exact inv_ite h (inv_modTile (inv_modTile (inv_takePkt (inv_modTile (inv_advanceTo h _) ..)) ..) ..)

theorem inv_upsetNext (h : Inv s) : Inv (upsetNext x y port s) := inv_modTile h ..

theorem inv_hopPacket (h : Inv s) : Inv (hopPacket x y port s) := by
  unfold hopPacket
  dsimp only
  split
  · exact h
  · refine inv_ite h (inv_ite (inv_takePkt (inv_when (inv_advanceTo h _) fun h => inv_modTile h ..)) ?_)
    split
    case h_1 =>
      refine inv_takePkt ?_
      split
      · exact inv_discardPacket (inv_advanceTo h _)
      · exact inv_advanceTo h _
    case h_2 =>
      exact inv_gatherFlit (inv_takePkt (inv_modTile (inv_advanceTo h _) ..)) fun _ _ h => inv_modTile h ..
    case h_3 =>
      exact inv_gatherFlit (inv_takePkt (inv_modTile (inv_advanceTo h _) ..)) fun _ _ h => h.rest
    case h_4 => exact inv_sendPkt h

theorem inv_enterPacket (h : Inv s) : Inv (enterPacket i s) := by
  unfold enterPacket
  split
  · exact h
  · have v := inv_advanceTo h
    exact inv_ite (inv_ite (inv_modTile (Inv.rest (v _)) ..)
      (inv_ite (inv_discardPacket (Inv.rest (v _))) (inv_modTile (Inv.rest (v _)) ..))) h

theorem inv_issuePacket {p dest : Nat} {tap : Option Nat} {q : Hdr} {pay : List (Unit512 × Bool)} (h : Inv s) :
    Inv (issuePacket p tap q pay s dest) := h.rest

end Sys2Proof.Machine
end

/-! ## The invariant under what partitions, engines and sections do (R210-R286, R347-R358) -/

section
namespace Sys2Proof.Machine

variable {s : State} {x y c n o p eng st d0 d1 pa k : Nat} {e : Unit512} {bs : List Byte} {b : Bool}

theorem inv_overTiles {ts : List (Nat × Nat)} {f : Nat → Nat → Tile → Tile} (h : Inv s) : Inv (overTiles s ts f) :=
  inv_foldl h _ _ fun _ _ v => inv_modTile v ..

theorem inv_noteWrote (h : Inv s) : Inv (noteWrote b x s) := by
  unfold noteWrote
  split
  · exact inv_modPart h ..
  · exact h

theorem inv_startWave (h : Inv s) : Inv (startWave s p) := inv_modPart h ..
theorem inv_haltAt (h : Inv s) : Inv (haltAt x y c s) := inv_modTile h ..
theorem inv_foldChannels {g : Nat → Chan → Bool} (h : Inv s) : Inv (foldChannels p g bs s) := inv_modPart h ..
theorem inv_foldLine (h : Inv s) : Inv (foldLine p k pa e s) := inv_foldChannels h

theorem inv_noteReads {m : Nat} (h : Inv s) : Inv (noteReads n k m s) :=
  inv_ite (inv_spineBump (inv_spineBump h ..) ..) (inv_spineBump (inv_spineBump (inv_spineBump h ..) ..) ..)

theorem inv_snoopLines {ls : List Nat} (h : Inv s) : Inv (snoopLines o ls s) := inv_modPort h ..

theorem inv_loadTiles {i : Img} {l : LoadOpts} {ts : List (Nat × Nat)} (h : Inv s) : Inv (loadTiles i l ts s) :=
  inv_foldl h _ _ fun _ _ v => inv_modTile v ..

/-! ### Engines and their entries -/

theorem inv_modEngine {f : EngineQ → EngineQ} (h : Inv s) : Inv (modEngine p eng f s) := inv_modPart h ..
theorem inv_modCur {f : Entry → Entry} (h : Inv s) : Inv (modCur p eng f s) := inv_modPart h ..

theorem inv_endEntry (h : Inv s) : Inv (endEntry p eng st d0 d1 s) := by
  unfold endEntry
  split
  · exact h
  · exact inv_when (inv_modCur h) fun v => v.rest

theorem inv_sendVector (h : Inv s) : Inv (sendVector o n s) := inv_modPort h ..

theorem inv_writeCompl {m : Completion} (h : Inv s) : Inv (writeCompl p eng m s) := inv_ite (inv_modPort h ..) (inv_modEngine h)

theorem inv_completeList {l : CmdList} (h : Inv s) : Inv (completeList p eng l s) := inv_modPart h ..

theorem inv_retireEntry (h : Inv s) : Inv (retireEntry p eng s) := by
  unfold retireEntry
  dsimp only
  split
  · exact inv_ite (inv_completeList (inv_writeCompl h)) (inv_modEngine (inv_writeCompl h))
  · exact h

/-- What one round of a loop keeps, the loop keeps. -/
theorem inv_repeat {f : State → State} (h : Inv s) (hf : ∀ s, Inv s → Inv (f s)) : ∀ n, Inv (Nat.repeat f n s)
  | 0 => h
  | n + 1 => hf _ (inv_repeat h hf n)

theorem inv_flushEngine {sec : Option Nat} (h : Inv s) : Inv (flushEngine p eng st s sec) :=
  have v := inv_when (q := (openEntry s p eng).isSome) h fun h => inv_modCur (p := p) (eng := eng) (f := flushSection sec) h
  inv_ite v (inv_repeat (inv_retireEntry (inv_endEntry v)) (fun _ v => inv_retireEntry (inv_modEngine v)) _)

theorem inv_flushPart (h : Inv s) : Inv (flushPart p st s) := inv_foldl h _ _ fun _ _ v => inv_flushEngine v

/-! ### The defect map and sections -/

theorem inv_storeMap (h : Inv s) : Inv (storeMap s) := h.rest
theorem inv_setDefects {ds : List DefectRec} (h : Inv s) : Inv (setDefects ds s) := inv_ite h (inv_storeMap h.rest)
theorem inv_addDefect {d : DefectRec} (h : Inv s) : Inv (addDefect d s) := inv_ite h (inv_setDefects h)
theorem inv_fieldDefect {d : DefectRec} (h : Inv s) : Inv (fieldDefect d s) := inv_addDefect h.rest
theorem inv_markDead (h : Inv s) : Inv (markDead s) := h.rest

theorem inv_retireColumn (h : Inv s) : Inv (retireColumn n c s) :=
  inv_ite h (inv_markDead (inv_sageEvent (inv_lifeBump (inv_fieldDefect (inv_addHistory h _)) ..) ..))

theorem inv_deadTile (h : Inv s) : Inv (deadTile n c p s) := inv_when (inv_fieldDefect h) fun v => inv_retireColumn v

theorem inv_catchUpBand (h : Inv s) : Inv (catchUpBand p s) := inv_foldl h _ _ fun _ _ v => inv_setTile v ..

theorem inv_raiseResiduals {rs : List Residual} (h : Inv s) : Inv (raiseResiduals p rs s) :=
  inv_foldl h _ _ fun _ _ v => inv_sageEvent v ..

theorem inv_endStarted (h : Inv s) : Inv (endStarted p st d0 d1 s) := inv_when h fun h => inv_endEntry h
theorem inv_failSwitch {code : EvCode} {q : PState} (h : Inv s) : Inv (failSwitch p code q s) := inv_modPart (inv_endStarted h) ..

theorem inv_copyStats (h : Inv s) : Inv (copyStats p s) := by
  unfold copyStats
  exact inv_foldl h _ _ fun _ _ v => inv_foldl v _ _ fun _ _ v => inv_putTags v ..

theorem inv_closeSection (h : Inv s) : Inv (closeSection p n b s) :=
  inv_ite h (inv_modPart (inv_putDiag (inv_when h inv_copyStats) ..) ..)

theorem inv_refreshMap (h : Inv s) : Inv (refreshMap p s) :=
  inv_foldl (Inv.rest (inv_setDefects h)) _ _ fun _ _ v => inv_deadTile v

theorem inv_checkPlacement {l : LoadOpts} (h : Inv s) : Inv (checkPlacement p l s) := by
  unfold checkPlacement
  dsimp only
  refine inv_modPart ?_ ..
  split
  · exact inv_when h fun h => inv_sageEvent h ..
  · exact h

theorem inv_beginImage {m : SwitchKind} (h : Inv s) : Inv (beginImage p m s) := inv_modPart (inv_overTiles h) ..

theorem inv_forcePath {m : SwitchKind} (h : Inv s) : Inv (forcePath p m s) := by
  unfold forcePath
  dsimp only
  refine inv_modPart ?_ ..
  split
  · exact inv_when (inv_startWave h) fun v => inv_endEntry v
  · exact inv_startWave h

theorem inv_captureTile {xy : Nat × Nat} (h : Inv s) : Inv (captureTile n xy s) :=
  inv_foldl (inv_foldl (inv_clearRange (inv_spineBump h ..) ..) _ _ fun _ _ v => inv_writeChunk v ..) _ _
    fun _ _ v => inv_putTags v ..

theorem inv_clearValid (h : Inv s) : Inv (clearValid n k s) := inv_putChunk h ..

theorem inv_beginCapture (h : Inv s) : Inv (beginCapture p s) :=
  inv_modPart (inv_foldl h _ _ fun _ _ v => inv_clearValid v) ..

theorem inv_idleLoad {l : LoadOpts} (h : Inv s) : Inv (idleLoad p l s) :=
  have v := inv_modPart (inv_checkPlacement (l := l) (inv_refreshMap (p := p) h)) p fun q =>
    { startJob (logLoad l q) with suspended := true, endSeen := none, gap := false, bunits := 0 }
  inv_ite (inv_beginCapture (inv_modPart v ..)) (inv_beginImage v)

theorem inv_foldCapture (h : Inv s) : Inv (foldCapture p s) :=
  inv_when h fun h => inv_foldl h _ _ fun _ _ v => inv_foldl v _ _ fun _ _ v => inv_foldChannels v

theorem inv_capture {l : LoadOpts} (h : Inv s) : Inv (capture p l s) :=
  inv_modPart (inv_foldl (inv_foldCapture (inv_foldl h _ _ fun _ _ v => inv_captureTile v)) _ _
    fun _ _ v => inv_putChunk v ..) ..

theorem inv_restoreTile {xy : Nat × Nat} (h : Inv s) : Inv (restoreTile n xy s) := inv_ite h (inv_modTile (inv_noteReads h) ..)

theorem inv_refuseRestore (h : Inv s) : Inv (refuseRestore p s) := inv_modPart (inv_endStarted (inv_sageEvent h ..)) ..

theorem inv_readCheckpoint {m : SwitchKind} (h : Inv s) : Inv (readCheckpoint p m s) := by
  unfold readCheckpoint
  split
  · exact inv_refuseRestore h
  · exact inv_ite (inv_modPart (inv_foldl h _ _ fun _ _ v => inv_restoreTile v) ..) (inv_refuseRestore h)

theorem inv_autoRestore (h : Inv s) : Inv (autoRestore p s) := inv_forcePath (inv_lifeBump (inv_modPart h ..) ..)

/-! ### Packets of the Array engine -/

theorem inv_askedOne (h : Inv s) : Inv (askedOne n s) := inv_modSpine h ..
theorem inv_clearAsks (h : Inv s) : Inv (clearAsks p s) := inv_foldl h _ _ fun _ _ v => inv_modSpine v ..
theorem inv_readRun6 {r : SlotRun} (h : Inv s) : Inv (readRun6 p n r s) := inv_issuePacket h

theorem inv_arrayPacket (h : Inv s) : Inv (arrayPacket p n s) := by
  unfold arrayPacket
  dsimp only
  refine inv_ite h ?_
  split
  · split
    · exact h
    · split
      · exact inv_askedOne (inv_readRun6 h)
      · exact inv_snoopLines h
  · split
    · exact h
    · exact inv_askedOne (inv_readRun6 h)
  · split
    · exact h
    · exact inv_askedOne (inv_issuePacket h)
  · exact h

theorem inv_respArray {m : Packet} {r : ReadOut} (h : Inv s) : Inv (respArray p m r s) :=
  inv_when (inv_foldl h _ _ fun _ _ v => inv_putChunk v ..) fun v => inv_putTags v ..

theorem inv_offerPacket {i : TileId} (h : Inv s) : Inv (offerPacket i s) := by
  unfold offerPacket
  split
  · exact inv_arrayPacket h
  · exact h

end Sys2Proof.Machine
end

/-! ## The invariant under what faults, start-up, power and operators do (R287-R320, R365-R412) -/

section
namespace Sys2Proof.Machine

variable {s t : State} {x y c n o p k st : Nat} {e : Ev} {pl : Place} {r : BitVec 256} {rsp : List Byte} {b : Bool}

/-- Taking an event from its port leaves the maps in canonical form. -/
theorem inv_takeEvent {src : EvSrc} (h : Inv s) (ht : takeEvent s src = some (e, t)) : Inv t := by
  unfold takeEvent at ht
  cases src with
  | tile i =>
    dsimp only at ht
    split at ht
    · cases ht
    · cases ht
      exact inv_setTile h ..
  | spine d =>
    dsimp only at ht
    split at ht
    · cases ht
    · cases ht
      exact inv_modSpine h ..
  | sage =>
    dsimp only at ht
    split at ht
    · cases ht
    · cases ht
      exact h.rest

theorem inv_ringStore (h : Inv s) : Inv (ringStore p r s) := inv_putDiag (inv_modPart h ..) ..
theorem inv_portLearns (h : Inv s) : Inv (portLearns o n s) := inv_modPort h ..
theorem inv_mgmtSend {a : MgmtOut} (h : Inv s) : Inv (mgmtSend a s) := h.rest
theorem inv_syslogSend {m : SyslogMsg} (h : Inv s) : Inv (syslogSend m s) := inv_ite (inv_mgmtSend h) h.rest
theorem inv_tellOperator (h : Inv s) : Inv (tellOperator pl e r s) :=
  inv_ite h.rest (inv_syslogSend (inv_mgmtSend h))

theorem inv_noteLifetime (h : Inv s) : Inv (noteLifetime pl e s) :=
  inv_when (inv_when h fun h => Inv.rest (inv_when h fun h => inv_lifeBump h ..)) fun v => v.rest

theorem inv_fileRecord (h : Inv s) : Inv (fileRecord pl e r s) := by
  unfold fileRecord
  extract_lets seq _ logged told noted fatal ringed learnt
  have hn : Inv noted := inv_noteLifetime (inv_lifeBump (inv_tellOperator h.rest) ..)
  have hl : Inv learnt := inv_foldl (inv_foldl hn _ _ fun _ _ v => inv_when v inv_ringStore) _ _
    fun _ _ v => inv_when v inv_portLearns
  clear_value learnt
  split
  · exact hl.rest
  · exact hl.rest
  · exact inv_ite (inv_addHistory hl _) (inv_addHistory (inv_addHistory hl _) _)

/-- The notes on suspicions are Sage's own. -/
theorem inv_noteSuspicion (h : Inv s) : Inv (noteSuspicion p pl e s).1 := by
  unfold noteSuspicion
  dsimp only
  split <;> exact h.rest

theorem inv_suspicion (h : Inv s) : Inv (suspicion pl e s) := by
  unfold suspicion
  split
  · exact inv_ite (inv_modPart (inv_noteSuspicion h) ..) (inv_noteSuspicion h)
  · exact h

theorem inv_callRestore (h : Inv s) : Inv (callRestore p s) :=
  inv_ite (inv_when h fun h => inv_modPart h ..) <|
    inv_ite (inv_modPart (inv_sageEvent (inv_startWave h) ..) ..) <|
      inv_ite (inv_modPart (inv_startWave (inv_modPart h ..)) ..) (inv_autoRestore (inv_modPart h ..))

theorem inv_haltPart (h : Inv s) : Inv (haltPart p e s) := inv_modPart (inv_endStarted (inv_startWave h)) ..
theorem inv_hardwareEvent (h : Inv s) : Inv (hardwareEvent p e s) := inv_ite (inv_callRestore h) (inv_haltPart h)

theorem inv_testLink (h : Inv s) : Inv (testLink p pl n s) := by
  unfold testLink
  dsimp only
  split
  · exact inv_modPart h ..
  · exact h

theorem inv_uncorrected (h : Inv s) : Inv (uncorrected p pl e s) := by
  unfold uncorrected
  split
  · exact inv_hardwareEvent h
  · exact inv_ite (inv_modPart h ..) (inv_ite (inv_callRestore (inv_modPart h ..)) (inv_hardwareEvent (inv_modPart h ..)))
  · exact inv_ite (inv_modPart (inv_fieldDefect (inv_haltPart h)) ..) (inv_hardwareEvent (inv_testLink h))
  · exact inv_haltPart h

theorem inv_fatalAll (h : Inv s) : Inv (fatalAll e r s) :=
  inv_foldl h.rest _ _ fun _ _ v => inv_when v fun v => inv_modPart (inv_flushPart (inv_startWave v)) ..

theorem inv_refuseEntry (h : Inv s) : Inv (refuseEntry p pl e s) := by
  unfold refuseEntry
  split
  · exact inv_when h fun h => inv_endEntry h
  · exact h

theorem inv_columnOut (h : Inv s) : Inv (columnOut n s) := by
  unfold columnOut
  dsimp only
  split
  · exact inv_modPart (inv_startWave (inv_sageEvent h.rest ..)) ..
  · exact inv_sageEvent h.rest ..

theorem inv_stackLost (h : Inv s) : Inv (stackLost pl k s) := by
  unfold stackLost
  split
  · exact inv_columnOut (inv_fieldDefect h)
  · exact h

theorem inv_respond (h : Inv s) : Inv (respond pl e r s) := by
  unfold respond
  extract_lets seen
  have hs : Inv seen := inv_suspicion h
  split
  · exact inv_fatalAll hs
  · refine inv_when ?_ inv_stackLost
    split
    · exact inv_when hs fun v => inv_uncorrected (inv_refuseEntry v)
    · exact hs
  · exact inv_when (inv_refuseEntry hs) inv_callRestore
  · exact inv_when hs fun v => v.rest
  · exact hs

theorem inv_faultTile (h : Inv s) : Inv (faultTile x y k s) := by
  unfold faultTile
  dsimp only
  split
  · exact inv_deadTile (inv_addHistory (inv_sageEvent h ..) _)
  · exact inv_modPart (inv_sageEvent h ..) ..

theorem inv_faultSpare (h : Inv s) : Inv (faultSpare n c p s) := inv_deadTile (inv_addHistory h _)

theorem inv_testFails (h : Inv s) : Inv (testFails k n c p st s) := by
  unfold testFails
  split
  · exact inv_faultTile (inv_sageEvent h ..)
  · exact inv_faultSpare (inv_sageEvent h ..)

theorem inv_recordDead {l : Nat × Nat × Nat} (h : Inv s) : Inv (recordDead s l) := inv_ite (inv_fieldDefect h) (inv_retireColumn h)
theorem inv_putResult {l : List Nat} (h : Inv s) : Inv (putResult n k l s) := inv_putDiag h ..

/-! ### Start-up and reset -/

theorem inv_startEvent {code : EvCode} (h : Inv s) : Inv (startEvent code n k pl s) := inv_fileRecord h
theorem inv_latchEvent {code : EvCode} (h : Inv s) : Inv (latchEvent code n s) := h.rest

theorem inv_fileLatched (h : Inv s) : Inv (fileLatched s) := by
  unfold fileLatched
  split
  · exact h
  · exact inv_ite (inv_ite h.rest (inv_addHistory h.rest _)) (inv_addHistory h.rest _)

/-- A fold that carries more beside the device. -/
theorem inv_foldl_fst {α β : Type} {u : State × β} (h : Inv u.1) (l : List α) {f : State × β → α → State × β}
    (hf : ∀ u a, Inv u.1 → Inv (f u a).1) : Inv (l.foldl f u).1 := by
  induction l generalizing u with
  | nil => exact h
  | cons a l ih => exact ih (hf u a h)

/-- The device of an answer that carries more beside it. -/
theorem inv_of_fst {β : Type} {u : State × β} {v : β} (h : Inv u.1) (hu : u = (t, v)) : Inv t := by
  rw [hu] at h
  exact h

theorem inv_loseWord (h : Inv s) : Inv (loseWord b n s).1 := by
  refine inv_foldl_fst h _ fun u l v => ?_
  cases l with
  | hold => exact v
  | none_ => exact v
  | trim d => exact v.rest
  | record m =>
    dsimp only
    split
    · exact v
    · split
      · exact v.rest
      · exact v

theorem inv_senseFuses {f : FuseSense} (h : Inv s) : Inv (senseFuses f s).1 := by
  unfold senseFuses
  extract_lets _ cleared
  split
  next t hold heq =>
    refine Inv.rest (inv_of_fst ?_ heq)
    exact inv_foldl_fst (u := (cleared, false)) h.rest _ fun _ _ v => inv_loseWord v

theorem inv_bootOrder (h : Inv s) : Inv (bootOrder s).1 := by
  unfold bootOrder
  dsimp only
  split
  · exact h.rest
  · exact h

/-- An image that runs files what was latched and the words that the fuses corrected. -/
theorem inv_imageRuns {f : FuseSense} {ds : List DefectRec} {g : Boot} {m : Module} (h : Inv s) :
    Inv (f.corrected.foldl (fun s w => addHistory (.corrected w) s)
      (fileLatched { s with defects := ds, boot := g, module_ := m })) :=
  inv_foldl (inv_fileLatched h.rest) _ _ fun _ _ v => inv_addHistory v _

theorem inv_bootImage {f : FuseSense} (h : Inv s) : Inv (bootImage f s) := by
  unfold bootImage
  extract_lets _ locked
  split
  next t order trial heq =>
    have v : Inv t := inv_of_fst (inv_bootOrder h.rest) heq
    exact inv_ite (inv_imageRuns v.rest) <| inv_ite (inv_imageRuns v.rest) <| Inv.rest (inv_latchEvent v.rest)

theorem inv_bootRom {f : FuseSense} (h : Inv s) : Inv (bootRom f s) :=
  inv_ite (Inv.rest (inv_latchEvent (inv_senseFuses h))) (inv_bootImage (inv_senseFuses h))

/-- What the state without power holds is in canonical form. -/
theorem inv_loseVolatile : Inv (loseVolatile s) :=
  ⟨mwf_nil, mwf_nil, mwf_nil, mwf_nil, mwf_nil, mwf_msetAll mwf_nil, mwf_msetAll mwf_nil, mwf_nil⟩

theorem inv_deviceReset : Inv (deviceReset s) := Inv.rest (inv_lifeBump inv_loseVolatile ..)
theorem inv_resetToRecovery : Inv (resetToRecovery s) := Inv.rest inv_deviceReset
theorem inv_losePower : Inv (losePower s) := Inv.rest inv_loseVolatile

theorem inv_loseMain (h : Inv s) : Inv (loseMain s) := by
  have v : Inv ([0, 1, 2, 3].foldl (fun s o => modPort s o fun q => { q with filter := [], snoops := [], heldReads := [] })
      ([1, 2, 3].foldl (fun s o => modPort s o fun q => { q with up := false }) s)) :=
    inv_foldl (inv_foldl h _ _ fun _ _ v => inv_modPort v ..) _ _ fun _ _ v => inv_modPort v ..
  exact ⟨mwf_nil, mwf_nil, mwf_nil, mwf_nil, mwf_nil, v.parts, v.ports, mwf_filter _ h.doms⟩

theorem inv_installRecovery {l : List Byte} : Inv (installRecovery l s) := inv_deviceReset

/-! ### Power -/

theorem inv_startUp (h : Inv s) : Inv (startUp n s) := inv_ite h (inv_ite (inv_modDom h ..) (inv_modDom h ..))

theorem inv_wipeQuad (h : Inv s) : Inv (wipeQuad n k s) := inv_foldl h _ _ fun _ _ v => inv_when v fun v => inv_modTile v ..

theorem inv_nodeOff (h : Inv s) : Inv (nodeOff n s) := by
  have v := inv_modDom h n fun x => { x with st := .off, ramp := .none }
  unfold nodeOff
  refine inv_ite v ?_
  dsimp only
  split
  · exact inv_foldl v _ _ fun _ _ v => inv_modTile v ..
  · exact inv_modSpine v ..
  · exact inv_wipeStack v ..
  · exact inv_wipeStack v ..
  · exact inv_wipeQuad v

theorem inv_startDown (h : Inv s) : Inv (startDown n s) :=
  inv_ite h (inv_ite (inv_nodeOff h) (inv_ite (inv_modDom h ..) (inv_modDom h ..)))

theorem inv_gateAdvance (h : Inv s) : Inv (gateAdvance s) :=
  inv_foldl (inv_foldl h _ _ fun _ _ v => inv_startDown v) _ _ fun _ _ v => inv_startUp v

theorem inv_gateSettled (h : Inv s) : Inv (gateSettled s) := inv_power h (mwf_msetAll mwf_nil)

/-! ### Operators and ports -/

theorem inv_hostSend {m : HostOut} (h : Inv s) : Inv (hostSend o m s) := inv_modPort h ..

theorem inv_clearColumn (h : Inv s) : Inv (clearColumn n s) :=
  inv_foldl h _ _ fun _ _ v => inv_foldl (inv_modSpine (inv_clearRange v ..) ..) _ _ fun _ _ v => inv_setTile v ..

theorem inv_returnStacks (h : Inv s) : Inv (returnStacks s) :=
  Inv.rest (inv_foldl (Inv.rest (inv_setDefects h)) _ _ fun _ _ v => inv_modSpine v ..)

theorem inv_applyPartitions {ps : List PartDef} (h : Inv s) : Inv (applyPartitions ps s) := by
  unfold applyPartitions
  extract_lets find changed before oldPorts defined after cols cleared ports detached noted logged
  have hc : Inv cleared := inv_foldl (inv_foldl h _ _ fun _ _ v => inv_modPart v ..) _ _ fun _ _ v => inv_clearColumn v
  have hn : Inv noted := inv_addHistory (inv_foldl hc _ _ fun _ _ v => inv_modPort v ..) _
  have hl : Inv logged := inv_foldl hn _ _ fun _ _ v => inv_when v fun v => inv_addHistory v _
  exact inv_gateAdvance (inv_returnStacks hl)

theorem inv_doRemoval (h : Inv s) : Inv (doRemoval s) := Inv.rest (inv_loseMain (inv_addHistory h _))

theorem inv_runOperator {m : OperatorReq} (h : Inv s) : Inv (runOperator m s) := by
  have v : Inv (mgmtAnswer .done { s with afterDetach := none }) := h.rest
  unfold runOperator
  cases m with
  | partitions ps => exact inv_applyPartitions v
  | reset => exact inv_deviceReset
  | removal => exact inv_doRemoval v

theorem inv_endMail (h : Inv s) : Inv (endMail o st rsp s) := inv_when (inv_modPort h ..) inv_sendVector

theorem inv_sweepBand (h : Inv s) : Inv (sweepBand p b s) :=
  inv_modPart (inv_foldl (inv_overTiles (inv_catchUpBand (inv_when h fun h => inv_flushPart (inv_when h inv_startWave)))) _ _
    fun _ _ v => inv_modSpine v ..) ..

theorem inv_detachSweep (h : Inv s) : Inv (detachSweep o s) := by
  unfold detachSweep
  split
  · exact inv_ite h (inv_ite (inv_snoopLines (inv_modPort (inv_sweepBand h) ..)) (inv_modPort (inv_modPort (inv_sweepBand h) ..) ..))
  · exact h

theorem inv_detachEnd (h : Inv s) : Inv (detachEnd o s) := by
  unfold detachEnd
  split
  · exact h
  · exact inv_when h fun h => inv_when (inv_modPort h ..) inv_endMail

theorem inv_detachAll (h : Inv s) : Inv (detachAll s) := by
  have v : Inv ((List.range 4).foldl (fun s o => detachEnd o (detachSweep o s)) s) :=
    inv_foldl h _ _ fun _ _ v => inv_detachEnd (inv_detachSweep v)
  unfold detachAll
  dsimp only
  split
  · exact v
  · exact inv_ite v (inv_runOperator v)

theorem inv_beginDetach {d : Detach} (h : Inv s) : Inv (beginDetach o d s) := inv_modPort h ..
theorem inv_abortPort (h : Inv s) : Inv (abortPort b o s) := inv_ite (inv_modPort h ..) (inv_beginDetach h)

theorem inv_forceRequest {os : List Nat} {m : OperatorReq} (h : Inv s) : Inv (forceRequest os m s) :=
  inv_detachAll (inv_foldl h.rest _ _ fun _ _ v => inv_abortPort v)

end Sys2Proof.Machine
end

/-! ## The invariant under streams, stack memory and the host's accesses (R224-R246, R331, R352-R356) -/

section
namespace Sys2Proof.Machine

variable {s t : State} {c n o p st da pa k ofs : Nat} {e : Unit512} {bs : List Byte} {b : Bool} {w : Ecc} {a : Entry}

theorem inv_steCount (h : Inv s) : Inv (steCount o b n s) := inv_when (inv_modPort h ..) fun v => inv_sageEvent v ..
theorem inv_foldSnoop (h : Inv s) : Inv (foldSnoop p e n bs s) := inv_foldChannels h
theorem inv_steReads (h : Inv s) : Inv (steReads p e bs s) := inv_foldSnoop (inv_steCount h)
theorem inv_steWrites (h : Inv s) : Inv (steWrites p e bs s) := inv_foldSnoop (inv_steCount h)

theorem inv_writePiece (h : Inv s) : Inv (writePiece o da bs b w s) :=
  inv_when h fun h => inv_writeBytes (inv_serveWrite h ..) ..

theorem inv_writeRun (h : Inv s) : Inv (writeRun o da bs b w s) := inv_foldl h _ _ fun _ _ v => inv_writePiece v
theorem inv_writePa (h : Inv s) : Inv (writePa p pa bs b w s) := inv_foldl h _ _ fun _ _ v => inv_writePiece v

theorem inv_untracked (h : Inv s) : Inv (untracked p pa n s).1 := by
  unfold untracked
  split
  · exact h
  · exact inv_snoopLines h

theorem inv_fetchRun {m : Nat} (h : Inv s) : Inv (fetchRun p pa m n s).1 := by
  induction n generalizing s with
  | zero => exact h
  | succ n ih =>
    unfold fetchRun
    split
    · exact h
    · dsimp only
      split_ifs
      · exact h
      · exact h
      · exact inv_untracked h
      · exact inv_arriveRead (inv_modCur (inv_modPart (inv_untracked h) ..)) ..
      · exact ih (inv_modCur (inv_untracked h))

theorem inv_fetched (h : Inv s) (ht : fetched p pa n s = (t, b)) : Inv t :=
  inv_of_fst (inv_fetchRun h) ht

theorem inv_endMoved (h : Inv s) : Inv (endMoved p st e a s) := inv_endEntry h
theorem inv_askHost (h : Inv s) : Inv (askHost p ofs e a s) := inv_ite (inv_hostSend (inv_modCur h)) (inv_endMoved h)
theorem inv_giveHost (h : Inv s) : Inv (giveHost p ofs bs e a s) := inv_ite (inv_hostSend (inv_modCur h)) (inv_endMoved h)

theorem inv_pullGo (h : Inv s) : Inv (pullGo p e a s) := by
  unfold pullGo
  extract_lets img from_
  split
  next u free hu =>
    have v : Inv u := by
      split at hu
      · cases hu
        exact h
      · exact inv_of_fst (inv_untracked h) hu
    refine inv_ite v (inv_ite (inv_endMoved (inv_modCur ?_)) (inv_askHost (inv_modCur ?_))) <;>
      exact inv_steWrites (inv_ite v (inv_ite (inv_writeRun v) (inv_writePa v)))

theorem inv_pushGo (h : Inv s) : Inv (pushGo p e a s) := by
  unfold pushGo
  refine inv_ite (inv_endMoved h) ?_
  extract_lets _ n
  split
  next hu => exact inv_fetched h hu
  next hu =>
    have v := inv_fetched h hu
    split
    · exact v
    · exact inv_giveHost (inv_modCur (inv_steReads v))

theorem inv_copyGo (h : Inv s) : Inv (copyGo p e s) := by
  unfold copyGo
  extract_lets n dst
  split
  next hu => exact inv_fetched h hu
  next hu =>
    have v := inv_fetched h hu
    split
    · exact v
    · dsimp only
      exact inv_ite (inv_untracked v) (inv_endMoved (inv_modCur (inv_steWrites (inv_foldl
        (inv_steReads (inv_untracked v)) _ _ fun _ _ v => inv_writePiece v))))

theorem inv_sendTile {tap : Option Nat} {kind npay cmd : Nat} {rs : List (Nat × Nat)} {pay : List (Unit512 × Bool)}
    (h : Inv s) : Inv (sendTile p tap kind npay ofs cmd rs pay e s) :=
  inv_ite (inv_modCur (inv_issuePacket h)) (inv_modPart (inv_modCur (inv_issuePacket h)) ..)

theorem inv_sentAll (h : Inv s) : Inv (sentAll p e s) := by
  unfold sentAll
  refine inv_ite (inv_modCur h) ?_
  split
  · exact inv_endMoved h
  · exact h

theorem inv_sendSlots {tap : Option Nat} (h : Inv s) : Inv (sendSlots p tap e a s) := by
  unfold sendSlots
  exact inv_modCur (inv_sendTile (inv_steWrites h))

theorem inv_h2tGo (h : Inv s) : Inv (h2tGo p e a s) := by
  have sent := inv_when (q := decide (a.ready.length = 8 ∨ a.sent + a.ready.length ≥ enSlots e) ∧ a.ready ≠ []) h
    (inv_sendSlots (p := p) (tap := none) (e := e) (a := a))
  unfold h2tGo
  dsimp only
  split
  · exact inv_endMoved h
  · exact h
  · split
    · exact sent
    · exact inv_ite (inv_sentAll sent) (inv_askHost sent)

theorem inv_s2tOne (h : Inv s) : Inv (s2tOne p e s) := by
  unfold s2tOne
  split
  · exact h
  · dsimp only
    split
    · exact h
    · split
      next hu => exact inv_fetched h hu
      next hu =>
        have v := inv_fetched h hu
        split
        · exact v
        · exact inv_sendSlots (inv_modCur (inv_steReads v))
    · exact h

theorem inv_s2tGo (h : Inv s) : Inv (s2tGo p e a s) := by
  have v := inv_repeat h (f := s2tOne p e) (fun _ v => inv_s2tOne v) 256
  unfold s2tGo
  split
  · exact inv_endMoved h
  · exact h
  · dsimp only
    split
    · exact inv_ite (inv_sentAll v) v
    · exact v

theorem inv_readTile (h : Inv s) : Inv (readTile p e a s) := by
  unfold readTile
  dsimp only
  split
  · exact inv_endMoved h
  · exact h
  · exact inv_modCur (inv_sendTile h)

theorem inv_t2xGo (h : Inv s) : Inv (t2xGo p e a s) := by
  unfold t2xGo
  refine inv_ite (inv_endMoved h) (inv_ite (inv_ite (inv_giveHost h) ?_) (inv_ite h (inv_readTile h)))
  dsimp only
  refine inv_ite (inv_untracked h) (inv_ite (inv_endMoved (inv_modCur ?_)) (inv_readTile (inv_modCur ?_))) <;>
    exact inv_steWrites (inv_foldl (inv_untracked h) _ _ fun _ _ v => inv_writePa v)

theorem inv_tcmdGo (h : Inv s) : Inv (tcmdGo p e a s) := by
  unfold tcmdGo
  dsimp only
  split
  · exact inv_endMoved h
  · exact h
  · exact inv_ite h (inv_ite (inv_askHost h) (inv_sentAll (inv_sendTile (inv_steWrites h))))

theorem inv_streamGo (h : Inv s) : Inv (streamGo p s) := by
  unfold streamGo
  split
  · exact h
  · refine inv_ite h ?_
    split
    · exact inv_pullGo h
    · exact inv_pullGo h
    · exact inv_pushGo h
    · exact inv_copyGo h
    · exact inv_ite h (inv_h2tGo h)
    · exact inv_ite h (inv_s2tGo h)
    · exact inv_t2xGo h
    · exact inv_t2xGo h
    · exact inv_tcmdGo h
    · exact h

theorem inv_engineData (h : Inv s) : Inv (engineData p n bs b s) := by
  unfold engineData
  split
  · exact inv_when h fun h => inv_streamGo (inv_modCur h)
  · exact h

theorem inv_streamWith (h : Inv s) : Inv (streamWith w p s) := inv_modCur (inv_streamGo (inv_modCur h))

/-! ### Stack memory -/

theorem inv_portRange (h : Inv s) : Inv (portRange s o n) := inv_sageEvent h ..
theorem inv_portOut {m : HostOut} (h : Inv s) : Inv (portOut o m s) := inv_modPort h ..

theorem inv_hostRead (h : Inv s) : Inv (hostRead o n b s) := by
  unfold hostRead
  dsimp only
  split
  · exact inv_portOut (inv_portRange h)
  · exact inv_ite (inv_portOut h) <| inv_ite (inv_snoopLines (inv_modPort h ..)) <|
      inv_arriveRead (inv_when h fun h => inv_modPort h ..) ..

theorem inv_corrected (h : Inv s) : Inv { s with stk := { s.stk with corrected := mset false s.stk.corrected k true } } :=
  inv_stk h _ h.mem h.poison (mwf_mset h.corrected)

theorem inv_checkChunk {r : DramRead} {q : ChunkEcc} (h : Inv s) : Inv (checkChunk n k r q c s).1 := by
  unfold checkChunk
  dsimp only
  split
  · exact inv_spineBump h ..
  · split
    · exact h
    · have v : ∀ d : Prop, [Decidable d] → Inv (if d then spineEvent n .stackRepeat k (devAddr n (256 * r.granule + 64 * c))
          (spineEvent n .stackCorrected k (devAddr n (256 * r.granule + 64 * c)) (spineBump n 0x38 1 s))
          else spineEvent n .stackCorrected k (devAddr n (256 * r.granule + 64 * c)) (spineBump n 0x38 1 s)) :=
        fun d _ => inv_when (inv_spineEvent (inv_spineBump h ..) ..) fun v => inv_spineEvent v ..
      exact inv_when (v _) inv_corrected
    · have v := inv_spineEvent (inv_spineBump h n 0x40 1) n .stackUncorrected k
        (devAddr n (256 * r.granule + 64 * c) + (((namedReader r).map (readerCode s)).getD 0) <<< 48)
      exact inv_stk v _ v.mem (mwf_mset v.poison) v.corrected

theorem inv_deliverRead {d : BitVec 2048} {r : Reader} (h : Inv s) : Inv (deliverRead n d k r s) := by
  unfold deliverRead
  cases r with
  | host o hpa cached ofs =>
    refine inv_portOut ?_
    split
    · exact inv_foldLine h
    · exact h
  | stream k idx => exact inv_modSpine h ..
  | engine p no ofs len => exact inv_engineData h

theorem inv_setWecc {l : List Reader} (h : Inv s) : Inv (setWecc w l s) := by
  refine inv_foldl h _ _ fun s r v => ?_
  split
  · exact inv_modCur v
  · exact v

theorem inv_scrubDie (h : Inv s) : Inv (scrubDie k n s) := inv_when h fun h => inv_spineBump (inv_modSpine h ..) ..
theorem inv_scrubFind {f : ScrubFind} (h : Inv s) : Inv (scrubFind k f s) := inv_ite h (inv_ite h (inv_checkChunk h))

theorem inv_streamRead (h : Inv s) : Inv (streamRead p n k s) := by
  unfold streamRead
  split
  · exact h
  · exact inv_ite h (inv_ite (inv_snoopLines h) (inv_arriveRead (inv_modSpine h ..) ..))

theorem inv_modStream {f : StackStream → StackStream} (h : Inv s) : Inv (modStream n k f s) := inv_modSpine h ..

/-! ### Responses that reach an engine -/

theorem inv_respSlots {m : Packet} (h : Inv s) : Inv (respSlots p m w s) := by
  unfold respSlots
  split
  · exact h
  · exact inv_when h fun h => inv_streamWith (inv_modCur (inv_steReads h))

theorem inv_takeLine {d : Unit512} (h : Inv s) : Inv (takeLine p d b w e a s) := inv_streamWith (inv_modCur (inv_steReads h))

end Sys2Proof.Machine
end

/-! ## The invariant under section switches, tests, requests, ticks and start-up (R247-R286, R303-R320, R339-R350, R365-R412) -/

section
namespace Sys2Proof.Machine

variable {s t : State} {x y c n o p k st op : Nat} {b : Bool} {req : List Byte} {l : LoadOpts} {ts : List (Nat × Nat × Nat)}

theorem inv_startEntry (h : Inv s) : Inv (startEntry p k s) := inv_modCur h
theorem inv_stopStreams (h : Inv s) : Inv (stopStreams p s) := inv_foldl h _ _ fun _ _ v => inv_modSpine v ..
theorem inv_raiseMismatch (h : Inv s) : Inv (raiseMismatch p s) := inv_foldl h _ _ fun _ _ v => inv_sageEvent v ..
theorem inv_setPhase {f : SwitchPhase} (h : Inv s) : Inv (setPhase p f s) := inv_modPart h ..
theorem inv_doSpill {r : SlotRun} (h : Inv s) : Inv (doSpill r s) := inv_foldl h _ _ fun _ _ v => inv_putChunk v ..

theorem inv_continueSwitch (h : Inv s) : Inv (continueSwitch p s) := by
  unfold continueSwitch
  split
  · exact h
  · dsimp only
    split
    · exact inv_modPart (inv_overTiles (inv_modCur (inv_endStarted (inv_closeSection h)))) ..
    · exact inv_beginImage (inv_closeSection h)

theorem inv_closeWindow (h : Inv s) : Inv (closeWindow p s) :=
  inv_continueSwitch (inv_foldl h _ _ fun _ _ v => inv_restoreTile v)

theorem inv_windowEnds (h : Inv s) : Inv (windowEnds p s) := by
  unfold windowEnds
  split
  · exact inv_ite h (inv_closeWindow h)
  · exact h

theorem inv_tickWindow (h : Inv s) : Inv (tickWindow p s) := by
  unfold tickWindow
  split
  · exact inv_when h fun h => inv_closeWindow (inv_modPart h ..)
  · exact h

theorem inv_loadStreams {i : Img} (h : Inv s) : Inv (loadStreams i n s) := inv_modSpine h ..

theorem inv_refuseLoad {bad : List (Nat × LoadFail × Nat)} (h : Inv s) : Inv (refuseLoad p l bad s) := by
  unfold refuseLoad
  dsimp only
  split
  · exact h
  · split
    · exact inv_failSwitch (inv_sageEvent (inv_foldl h _ _ fun _ _ v => inv_loadTiles v) ..)
    · exact inv_failSwitch (inv_sageEvent (inv_foldl h _ _ fun _ _ v => inv_loadTiles v) ..)

theorem inv_refuseRange (h : Inv s) : Inv (refuseRange p l s) :=
  inv_failSwitch (inv_foldl h _ _ fun _ _ v => inv_spineEvent (inv_spineBump v ..) ..)

theorem inv_noteImage (h : Inv s) : Inv (noteImage n s) := inv_noteReads h

theorem inv_afterRestore (h : Inv s) : Inv (afterRestore p s) := by
  unfold afterRestore
  extract_lets q repaired noted
  have hr : Inv repaired := by
    dsimp only [repaired]
    split
    · exact inv_sageEvent (inv_lifeBump h ..) ..
    · exact h
  have hn : Inv noted := inv_modPart hr ..
  exact inv_ite (inv_modPart (inv_flushEngine hn) ..) (inv_modPart hn ..)

theorem inv_resumeQueue (h : Inv s) : Inv (resumeQueue p s) := by
  unfold resumeQueue
  refine inv_ite h ?_
  split
  · exact inv_modPart h ..
  · exact inv_endStarted (inv_modCur h)

/-! ### Repair and tests -/

theorem inv_rejoinColumns (h : Inv s) : Inv (rejoinColumns ts s) := inv_ite h h.rest

theorem inv_remap (h : Inv s) : Inv (remap p ts s) :=
  inv_storeMap (inv_markDead (Inv.rest (inv_foldl (inv_foldl (inv_rejoinColumns h) _ _ fun _ _ v => inv_recordDead v) _ _
    fun _ _ v => inv_deadTile v)))

theorem inv_restoreWhenReady (h : Inv s) : Inv (restoreWhenReady p s) := inv_when h inv_autoRestore
theorem inv_suspectPasses (h : Inv s) : Inv (suspectPasses p x y k s) := inv_when h fun h => inv_modPart (inv_sageEvent h ..) ..
theorem inv_linksSettle (h : Inv s) : Inv (linksSettle p s) := inv_foldl (inv_modPart h ..) _ _ fun _ _ v => inv_faultTile v

theorem inv_tileTested (h : Inv s) : Inv (tileTested k n c p o x y b s) :=
  inv_ite (inv_restoreWhenReady (inv_linksSettle (inv_modPart (inv_suspectPasses (inv_modTile h ..)) ..)))
    (inv_testFails (inv_modPart (inv_modTile h ..) ..))

theorem inv_noteBist (h : Inv s) : Inv (noteBist n c p s) := by
  unfold noteBist
  dsimp only
  split
  · exact inv_when h.rest fun v => inv_modPart v ..
  · exact h.rest

theorem inv_tellRequester {m : Ticket} (h : Inv s) : Inv (tellRequester p m b s) := inv_ite (inv_mgmtSend h) (inv_sendVector h)

theorem inv_endTicket {bad : List TileId} (h : Inv s) : Inv (endTicket p n bad s) := by
  unfold endTicket
  split
  · exact h
  · exact inv_ite h <| inv_windowEnds <| inv_tellRequester <|
      inv_foldl (inv_modPart (inv_putResult (inv_overTiles h)) ..) _ _ fun _ _ v => inv_faultTile (inv_sageEvent v ..)

theorem inv_stackHour (h : Inv s) : Inv (stackHour s) := Inv.rest (inv_foldl h _ _ fun _ _ v => inv_lifeBump v ..)

/-! ### Requests of the mailbox: the device that an answer leaves -/

theorem inv_applyPolicy {r : PolicyReq} (h : Inv s) : Inv (applyPolicy p r s) := inv_addHistory (inv_modPart h ..) _

/-- A choice between two answers. -/
theorem inv_ite_fst {β : Type} {q : Prop} [Decidable q] {u v : State × β} (hu : Inv u.1) (hv : Inv v.1) :
    Inv (if q then u else v).1 := by
  split
  · exact hu
  · exact hv

theorem inv_doPolicy (h : Inv s) : Inv (doPolicy p req s).1 := inv_ite_fst h (inv_ite_fst (inv_applyPolicy h) h)

theorem inv_doSubmit {host : Option (List Unit512)} (h : Inv s) : Inv (doSubmit p req host s).1 := by
  unfold doSubmit
  refine inv_ite_fst h (inv_ite_fst h (inv_ite_fst h ?_))
  split
  · exact h
  · split
    · exact h
    · refine inv_ite_fst h ?_
      dsimp only
      split
      · exact h
      · exact inv_modEngine h

theorem inv_doTileRead (h : Inv s) : Inv (doTileRead p req s).1 := inv_ite_fst h (inv_ite_fst h h)
theorem inv_doSpineRead (h : Inv s) : Inv (doSpineRead p req s).1 := inv_ite_fst h h
theorem inv_doStallMap (h : Inv s) : Inv (doStallMap p req s).1 := inv_ite_fst h h
theorem inv_doSectionRead (h : Inv s) : Inv (doSectionRead p req s).1 := inv_ite_fst h h
theorem inv_doDiagRead (h : Inv s) : Inv (doDiagRead p req s).1 := inv_ite_fst h (inv_ite_fst h h)
theorem inv_newTicket {tile : Option TileId} (h : Inv s) : Inv (newTicket p k tile st b s).1 := inv_modPart h ..

theorem inv_doSelftest (h : Inv s) : Inv (doSelftest p req s).1 := by
  unfold doSelftest
  extract_lets test x y tile num
  split
  · exact inv_ite_fst h <| inv_ite_fst h <| inv_ite_fst h <|
      inv_ite_fst (inv_ite_fst (inv_newTicket h) h) (inv_newTicket h)
  · split
    · exact h
    · exact h
  · exact h

theorem inv_doAttest (h : Inv s) : Inv (doAttest o req s).1 := inv_ite_fst h (inv_modPort h.rest ..)

theorem inv_doIdeKey (h : Inv s) : Inv (doIdeKey o req s).1 := by
  unfold doIdeKey
  dsimp only
  split
  · exact h
  · refine inv_ite_fst (inv_modPort h ..) ?_
    split
    · exact inv_modPort h ..
    · exact inv_modPort (inv_modPort h ..) ..

theorem inv_doDetach (h : Inv s) : Inv (doDetach o req s).1 := inv_ite_fst h (inv_detachAll (inv_beginDetach h))
theorem inv_doRecBegin (h : Inv s) : Inv (doRecBegin req s).1 := inv_ite_fst h h.rest

theorem inv_doRecData (h : Inv s) : Inv (doRecData n req s).1 := by
  unfold doRecData
  split
  · exact h
  · exact inv_ite_fst h h.rest

theorem inv_doRecCommit (h : Inv s) : Inv (doRecCommit o s).1 := by
  unfold doRecCommit
  split
  · exact h
  · exact inv_ite_fst h (inv_ite_fst h.rest inv_installRecovery)

theorem inv_mailBody {host : Option (List Unit512)} (h : Inv s) : Inv (mailBody o op host s).1 := by
  unfold mailBody
  dsimp only
  split
  · exact h
  · exact inv_doPolicy h
  · exact inv_doSubmit h
  · exact h
  · exact inv_doTileRead h
  · exact inv_doSpineRead h
  · exact inv_doStallMap h
  · exact inv_doSectionRead h
  · exact inv_doDiagRead h
  · exact inv_doSelftest h
  · exact inv_doAttest h
  · exact inv_doIdeKey h
  · exact inv_doDetach h
  · exact inv_modPort h ..
  · exact inv_doRecBegin h
  · exact inv_doRecData h
  · exact inv_doRecCommit h

theorem inv_runMail {host : Option (List Unit512)} (h : Inv s) : Inv (runMail o host s) := by
  unfold runMail
  extract_lets q op c
  split
  next u a hu =>
    have v : Inv u := by
      split at hu
      · cases hu
        exact h
      · exact inv_of_fst (inv_mailBody h) hu
    split
    · exact inv_endMail v
    · exact v

theorem inv_goMail {m : MailCmd} {host : Option (List Unit512)} (h : Inv s) : Inv (goMail op m host s) :=
  inv_ite (inv_runMail h) (inv_modPort h.rest ..)

theorem inv_writeCmd {port : Fin 4} (h : Inv s) : Inv (writeCmd port n s) := inv_ite (inv_modPort h ..) (inv_goMail (inv_modPort h ..))

theorem inv_runWaiting (h : Inv s) : Inv (runWaiting s) := by
  refine inv_foldl h _ _ fun t a v => ?_
  dsimp only
  split
  · exact inv_runMail (inv_modPort v ..)
  · exact v

/-! ### Links -/

theorem inv_writeHeld (h : Inv s) : Inv (writeHeld p s) :=
  inv_foldl h _ _ fun _ _ v => inv_foldl (inv_modEngine v) _ _ fun _ _ v => inv_writeCompl v

theorem inv_linkDown (h : Inv s) : Inv (linkDown o s) := by
  unfold linkDown
  refine inv_ite h (inv_detachAll (inv_when (inv_modPort h ..) fun v => ?_))
  dsimp only
  split
  · exact inv_sageEvent v ..
  · split
    · exact inv_ite (inv_endMoved (inv_sageEvent v ..)) (inv_streamGo (inv_sageEvent v ..))
    · exact inv_sageEvent v ..

/-! ### The management tick -/

theorem inv_tickRun {silent : List TileId} (h : Inv s) : Inv (tickRun silent p s) := inv_modPart (inv_overTiles (inv_catchUpBand h)) ..
theorem inv_tickResponders {silent : List TileId} (h : Inv s) : Inv (tickResponders silent p s) := by
  unfold tickResponders
  exact inv_overTiles h.rest

/-- Meters write the watts of nodes one by one. -/
theorem mwf_meters {d : SMap Domain} (h : mwf {} d = true) (ws : List (Nat × Nat)) :
    mwf {} (ws.foldl (fun d (k, w) => if k < 390 then mmod {} d k fun x => { x with watts := w } else d) d) = true := by
  induction ws generalizing d with
  | nil => exact h
  | cons a ws ih =>
    refine ih ?_
    dsimp only
    split
    · exact mwf_mmod h
    · exact h

theorem inv_tickMeters {m : Meters} (h : Inv s) : Inv (tickMeters m s) := by
  unfold tickMeters
  dsimp only
  exact inv_when (inv_when (Inv.rest (inv_power h (mwf_meters h.doms m.dom))) fun v => inv_sageEvent v ..)
    fun v => inv_sageEvent v ..

theorem inv_tickLevels (h : Inv s) : Inv (tickLevels n k s) := inv_power h h.doms
theorem inv_tickSettings (h : Inv s) : Inv (tickSettings s) := inv_power h h.doms

theorem inv_tickTelemetry (h : Inv s) : Inv (tickTelemetry n k p s) :=
  inv_foldl (inv_foldl (inv_modPart h ..) _ _ fun _ _ v => inv_sageEvent v ..) _ _ fun _ _ v => inv_lifeBump v ..

theorem inv_tickCapo (h : Inv s) : Inv (tickCapo p s) := inv_modPart h ..
theorem inv_tickHot (h : Inv s) : Inv (tickHot p s) := inv_when h fun h => inv_modPart h ..

theorem inv_tickLifetime {old : Tele} (h : Inv s) : Inv (tickLifetime old s) :=
  inv_lifeBump (inv_lifeBump (inv_lifeBump (inv_lifeBump (inv_lifeBump (inv_lifeBump (inv_lifeBump h ..) ..) ..) ..) ..) ..) ..

theorem inv_tickVectors (h : Inv s) : Inv (tickVectors s) :=
  inv_foldl h _ _ fun _ _ v => inv_when v fun v => inv_modPort (inv_sendVector v) ..

/-! ### Heat and operators -/

theorem inv_setTemp (h : Inv s) : Inv (setTemp n k s) := inv_power h h.doms
theorem inv_noteLevel (h : Inv s) : Inv (noteLevel k s) := inv_power h h.doms

theorem inv_dieThermal (h : Inv s) : Inv (dieThermal n s) := by
  have v : Inv ((List.range 4).foldl (fun s q => noteLevel (4 * n + q) s) s) := inv_foldl h _ _ fun _ _ v => inv_noteLevel v
  exact inv_power v v.doms

/-- Domains that are not OFF go OFF one by one. -/
theorem inv_nodesOff (h : Inv s) (ds : List Nat) :
    Inv (ds.foldl (fun s d => if (getDom s d).st = .off then s else nodeOff d s) s) :=
  inv_foldl h _ _ fun _ _ v => inv_ite v (inv_nodeOff v)

theorem inv_dropHot (h : Inv s) : Inv (dropHot n s) := inv_when h fun h => inv_nodesOff h _
theorem inv_stopBallast (h : Inv s) : Inv (stopBallast s) := inv_foldl h _ _ fun _ _ v => inv_when v fun v => inv_modPart v ..
theorem inv_commitTo (h : Inv s) : Inv (commitTo n s) := h.rest

/-! ### Start-up with main power -/

theorem inv_trainStacks {bad : List (Nat × Nat)} (h : Inv s) : Inv (trainStacks bad s) := by
  have v : ∀ l : List (Nat × Nat), Inv (l.foldl (fun s (n, k) =>
      if 48 ≤ n ∨ 2 ≤ k ∨ s.defects.contains { kind := 5, die := n, stack := k } then s
      else startEvent .diecolOut 0 0 (diePlace n) (fieldDefect { kind := 5, die := n, stack := k }
        (startEvent .stackFail k 0 (diePlace n) s))) s) := fun l =>
    inv_foldl h _ _ fun _ _ v => inv_ite v (inv_startEvent (inv_fieldDefect (inv_startEvent v)))
  exact inv_foldl (inv_stk (v bad) {} mwf_nil mwf_nil mwf_nil) _ _ fun _ _ v => inv_modSpine v ..

theorem inv_startupDead (h : Inv s) : Inv (startupDead n c p s) :=
  inv_ite h (inv_startEvent (inv_fieldDefect (inv_addHistory h _)))

theorem inv_startupRetire (h : Inv s) : Inv (startupRetire n c s) :=
  inv_ite h (inv_startEvent (inv_lifeBump (inv_fieldDefect (inv_addHistory h _)) ..))

theorem inv_startupTest (h : Inv s) : Inv (startupTest ts s) :=
  Inv.rest (inv_foldl (inv_foldl h _ _ fun _ _ v => inv_startupDead v) _ _ fun _ _ v => inv_startupRetire v)

theorem inv_startupColumns (h : Inv s) : Inv (startupColumns s) := inv_foldl h.rest _ _ fun _ _ v => inv_startEvent v

theorem inv_setWatts {ws : List (Nat × Nat)} (h : Inv s) : Inv (setWatts ws s) :=
  inv_foldl h _ _ fun _ _ v => inv_when v fun v => inv_modDom v ..

theorem inv_releasePart (h : Inv s) : Inv (releasePart s p) := inv_when h fun h => inv_modPart h ..
theorem inv_releasePort (h : Inv s) : Inv (releasePort s o) := inv_modPort h ..

theorem inv_releaseDevice (h : Inv s) : Inv (releaseDevice s) :=
  inv_runWaiting (Inv.rest (inv_foldl (inv_foldl h _ _ fun _ _ v => inv_releasePart v) _ _ fun _ _ v => inv_releasePort v))

theorem inv_recordOpening (h : Inv s) : Inv (recordOpening s) := inv_ite h.rest (inv_sageEvent h ..)
theorem inv_enterRomHold (h : Inv s) : Inv (enterRomHold s) := inv_gateSettled (Inv.rest (inv_modPort (inv_loseMain h) ..))

theorem inv_lockstepFail (h : Inv s) : Inv (lockstepFail n s) :=
  inv_when (Inv.rest (inv_fatalAll h)) inv_enterRomHold

theorem inv_keepStall {r : BitVec 256} (h : Inv s) : Inv (keepStall p x y r s) := inv_putDiag (inv_modPart h ..) ..
theorem inv_waveAt (h : Inv s) : Inv (waveAt p x y c s) := inv_when (inv_haltAt h) inv_keepStall

end Sys2Proof.Machine
end

/-! ## What a command answers: a next state, and the invariant kept -/

section
namespace Sys2Proof.Machine

variable {s t : State} {i : TileId} {a b : Out} {u : Upset} {port p : Fin 4} {n k m : Nat} {w : Ecc}

/-- The command completes, and its next state keeps the invariant. -/
def Answers (s : State) (a : Out) : Prop := ∃ s', a = .next s' ∧ (Inv s → Inv s')

/-- The command acts on one tile: it completes where the tile exists, keeping the invariant, and is a fault where not. -/
def AnswersOn (i : TileId) (s : State) (a : Out) : Prop :=
  ∃ s', a = (if tileExists s i then .next s' else .fault .noSuchTile) ∧ (Inv s → Inv s')

theorem answers_next (h : Inv s → Inv t) : Answers s (.next t) := ⟨t, rfl, h⟩
theorem answers_self : Answers s (.next s) := answers_next id

theorem answers_ite {q : Prop} [Decidable q] (ha : Answers s a) (hb : Answers s b) : Answers s (if q then a else b) := by
  split
  · exact ha
  · exact hb

theorem onTile_answers {f : State → State} (h : ∀ s, Inv s → Inv (f s)) : AnswersOn i s (onTile i s f) := ⟨f s, rfl, h s⟩

/-! ### Tiles -/

theorem tabCommand_answers {sel : TabEntry → Bool} : AnswersOn i s (tabCommand sel i u s) :=
  onTile_answers fun _ h => inv_when h inv_tabStep

theorem landCommand_answers {q : FlyWork → Bool} : AnswersOn i s (landCommand q i m s) :=
  onTile_answers fun _ h => by
    dsimp only
    split
    · exact h
    · exact inv_when h fun h => inv_modTile (inv_advanceTo h _) ..

theorem execDelayExpiry_answers : AnswersOn i s (execDelayExpiry i s) :=
  onTile_answers fun _ h => inv_when h fun h => inv_setTile (inv_advanceTo h _) ..

theorem execFallbackFetch_answers : AnswersOn i s (execFallbackFetch i w s) :=
  onTile_answers fun _ h => by
    dsimp only
    split
    · exact h
    · exact inv_when h fun h => inv_ite (inv_when h inv_outside) (inv_outside (inv_advanceTo h _))

theorem execFallbackChunkIssue_answers : AnswersOn i s (execFallbackChunkIssue i s) :=
  onTile_answers fun _ h => by
    dsimp only
    split
    · exact h
    · exact inv_when h fun h => inv_when h fun h => inv_outside (inv_ite h (inv_advanceTo h _))

theorem execSparseStepComplete_answers : AnswersOn i s (execSparseStepComplete i s) :=
  onTile_answers fun _ h => by
    dsimp only
    split
    · exact h
    · split
      · exact h
      · exact inv_ite (inv_when h fun h => inv_modTile h ..) (inv_modTile (inv_advanceTo h _) ..)

theorem execExtMark_answers : AnswersOn i s (execExtMark i s) :=
  onTile_answers fun _ h => by
    dsimp only
    split
    · exact inv_ite h (inv_outside h)
    · exact h

theorem grantWrite_answers {ok : Tile → MuWrite → Bool} : AnswersOn i s (grantWrite ok i s) :=
  onTile_answers fun _ h => by
    dsimp only
    split
    · exact inv_when h fun h => inv_noteWrote (inv_releaseAll (inv_modTile (inv_advanceTo h _) ..))
    · exact h

theorem execPacketReadClaim_answers : AnswersOn i s (execPacketReadClaim i s) :=
  onTile_answers fun _ h => by
    refine inv_ite h ?_
    split
    · exact inv_outside h
    · exact h

theorem execPacketReadGrant_answers : AnswersOn i s (execPacketReadGrant i w s) :=
  onTile_answers fun _ h => by
    dsimp only
    split
    · exact h
    · exact inv_ite (inv_when h inv_outside) (inv_outside (inv_advanceTo h _))

theorem execBulkSlotWrite_answers : AnswersOn i s (execBulkSlotWrite i w s) :=
  onTile_answers fun _ h => by
    dsimp only
    split
    · exact h
    · exact inv_ite (inv_when h fun h => inv_noteWrote (inv_modTile (inv_advanceTo h _) ..))
        (inv_noteWrote (inv_modTile (inv_advanceTo h _) ..))

theorem execAccumulateWriteArrival_answers : AnswersOn i s (execAccumulateWriteArrival i s) :=
  onTile_answers fun _ h => inv_releaseAll (inv_modTile h ..)

theorem execCbIdleDrain_answers : AnswersOn i s (execCbIdleDrain i s) :=
  onTile_answers fun _ h => by
    dsimp only
    split
    · exact h
    · exact inv_when h fun h => inv_outside (inv_ite h (inv_advanceTo h _))

theorem execCbDrain_answers : AnswersOn i s (execCbDrain i s) :=
  onTile_answers fun _ h => by
    dsimp only
    split
    · exact inv_modTile (inv_advanceTo h _) ..
    · exact h

theorem execWwrite_answers : AnswersOn i s (execWwrite i s) :=
  onTile_answers fun _ h => by
    split
    · exact h
    · exact inv_modTile h ..

theorem execMread_answers : AnswersOn i s (execMread i s) :=
  onTile_answers fun _ h => by
    split
    · exact h
    · exact inv_modTile h ..

theorem execMcmd_answers : AnswersOn i s (execMcmd i s) :=
  onTile_answers fun _ h => by
    split
    · exact h
    · exact inv_modTile h ..

theorem execCfgw_answers : AnswersOn i s (execCfgw i s) :=
  onTile_answers fun _ h => by
    dsimp only
    split
    · exact h
    · exact inv_ite (inv_discardPacket (inv_modTile (inv_noteWrote h) ..))
        (inv_ite (inv_modTile (inv_noteWrote h) ..) (inv_outside (inv_noteWrote h)))

theorem execQueueFlitArrival_answers {q : FlitIn} : AnswersOn i s (execQueueFlitArrival i q s) :=
  onTile_answers fun _ h => inv_queueArrive h

theorem execMergeQueueGrant_answers {q : Fin 8} : AnswersOn i s (execMergeQueueGrant i q s) :=
  onTile_answers fun _ h => by
    dsimp only
    split
    · exact h
    · split
      · exact inv_modTile (inv_advanceTo h _) ..
      · exact h

theorem execPeerReset_answers : AnswersOn i s (execPeerReset i s) :=
  onTile_answers fun _ h => by
    split
    · exact h
    · exact inv_modTile (inv_advanceTo h _) ..

theorem execScalarSignal_answers : AnswersOn i s (execScalarSignal i s) :=
  onTile_answers fun _ h => by
    split
    · exact h
    · exact inv_releaseToken (inv_modTile (inv_takeTerm (inv_modTile (inv_advanceTo h _) ..)) ..)

theorem execScalarRegisterWrite_answers : AnswersOn i s (execScalarRegisterWrite i s) :=
  onTile_answers fun _ h => by
    dsimp only
    split
    · exact h
    · exact inv_ite h (inv_modTile (inv_takeTerm (inv_modTile (inv_advanceTo h _) ..)) ..)

theorem execStallTimeout_answers : AnswersOn i s (execStallTimeout i s) :=
  onTile_answers fun _ h => inv_when h fun h => inv_modTile h ..

theorem execHaltWave_answers : AnswersOn i s (execHaltWave i s) :=
  onTile_answers fun _ h => by
    split
    · exact h
    · exact inv_waveAt (inv_advanceTo h _)

theorem execFlitHop_answers {q : FlitIn} : AnswersOn i s (execFlitHop i q u s) :=
  onTile_answers fun _ h => inv_when h fun h => inv_hopFlit h

theorem execCourse5Aged_answers {d : Dir} : AnswersOn i s (execCourse5Aged i d s) :=
  onTile_answers fun _ h => by
    dsimp only
    split
    · exact h
    · exact inv_modTile (inv_advanceTo h _) ..

theorem execHopCreditReturn_answers {d : Dir} {lane : Fin 7} : AnswersOn i s (execHopCreditReturn i d lane s) :=
  onTile_answers fun s h => by
    extract_lets k settled q
    have v : Inv settled := by
      dsimp only [settled]
      split
      · exact inv_settleInput h
      · exact h
    split
    · exact v
    · exact inv_modTile (inv_advanceTo v _) ..

theorem execWindowTokenReturn_answers {ch : Fin 9} : AnswersOn i s (execWindowTokenReturn i ch s) :=
  onTile_answers fun _ h => by
    split
    · exact h
    · exact inv_modTile (inv_advanceTo h _) ..

theorem execRetryRequest_answers {d : Dir} {net : Net} : AnswersOn i s (execRetryRequest i d net s) :=
  onTile_answers fun _ h => by
    dsimp only
    split
    · exact inv_ite h (inv_when (inv_modTile (inv_modTile (inv_advanceTo h _) ..) ..) fun v => inv_sageEvent v ..)
    · exact h

theorem execLinkFail_answers {d : Dir} : AnswersOn i s (execLinkFail i d s) :=
  onTile_answers fun _ h => by
    dsimp only
    split
    · exact h
    · exact inv_failLink (inv_advanceTo h _)

theorem execTileFault_answers {trig : Fin 5} : AnswersOn i s (execTileFault i trig s) :=
  onTile_answers fun _ h => by
    refine inv_when h fun _ => inv_faultTile (inv_modTile ?_ ..)
    split
    · exact inv_modPart h ..
    · exact h

theorem execPacketHop_answers {src : PktSrc} : AnswersOn src.tile s (execPacketHop src s) := by
  cases src with
  | ring i => exact onTile_answers fun _ h => inv_enterPacket (inv_offerPacket h)
  | fret i port bad =>
    unfold execPacketHop
    exact onTile_answers fun _ h => inv_when h fun h => inv_hopPacket (inv_when h inv_upsetNext)

/-! ### Bridges and stack memory -/

theorem execWireSteer_answers {g : WireGroup} : Answers s (execWireSteer g s) := by
  unfold execWireSteer
  dsimp only
  split
  · exact answers_self
  · exact answers_ite (answers_next fun h => inv_ite (inv_sageEvent h.rest ..) (inv_failLane (inv_sageEvent h.rest ..)))
      answers_self

theorem execBridgeWireTuning_answers {g : WireGroup} {bad : Bool} : Answers s (execBridgeWireTuning g bad s) :=
  answers_ite answers_self <| answers_ite (answers_next fun h => h.rest) (answers_next fun h => inv_when h inv_failLane)

theorem inv_memPut {da : Nat} {bs : List Byte} (h : Inv s) :
    Inv { s with stk := { s.stk with mem := memPut s.stk.mem da bs } } :=
  inv_stk h _ (memPut_wf _ _ h.mem) h.poison h.corrected

theorem execCxlMemWrite_answers {q : HostWrite} : Answers s (execCxlMemWrite port q s) := by
  unfold execCxlMemWrite
  dsimp only
  split
  · exact answers_next fun h => inv_portOut (inv_portRange h)
  · refine answers_ite (answers_next inv_portOut) (answers_next fun h => inv_portOut ?_)
    exact inv_ite (inv_writeChunk (inv_foldLine (inv_serveWrite h ..)) ..)
      (inv_ite (inv_writePart (inv_foldLine (inv_serveWrite h ..)) ..)
        (inv_memPut (inv_writePart (inv_foldLine (inv_serveWrite h ..)) ..)))

theorem execDramReadReturn_answers {d : Fin 48} {sl : Fin 64} {e : ChunkEcc} : Answers s (execDramReadReturn d sl e s) := by
  unfold execDramReadReturn
  split
  · exact answers_self
  · extract_lets reached
    split
    next u ps hu =>
      refine answers_next fun h => ?_
      have v : Inv u := inv_of_fst (inv_foldl_fst (u := (reached, [])) (inv_advanceTo h _) _ fun _ _ v => inv_checkChunk v) hu
      exact inv_setWecc (inv_foldl (inv_setWecc (inv_modSpine v ..)) _ _ fun _ _ v => inv_deliverRead v)

theorem execMergeEntryExpiry_answers {d : Fin 48} {sl : Fin 64} : Answers s (execMergeEntryExpiry d sl s) := by
  unfold execMergeEntryExpiry
  dsimp only
  split
  · exact answers_self
  · exact answers_next fun h => inv_modSpine (inv_advanceTo h _) ..

theorem execRefreshPhase_answers {e : List ScrubFind} : Answers s (execRefreshPhase e s) :=
  answers_next fun h => inv_foldl (inv_foldl (inv_advanceTo h _) _ _ fun _ _ v => inv_scrubDie v) _ _ fun _ _ v => inv_scrubFind v

theorem execStackStreamStart_answers {d : Fin 48} {q : Fin 64} : Answers s (execStackStreamStart d q s) := by
  unfold execStackStreamStart
  split
  · exact answers_ite answers_self (answers_next fun h => inv_foldl (inv_modStream (inv_advanceTo h _)) _ _
      fun _ _ v => inv_streamRead v)
  · exact answers_self

theorem execStackStreamPacket_answers {d : Fin 48} {q : Fin 64} : Answers s (execStackStreamPacket d q s) := by
  unfold execStackStreamPacket
  split
  · dsimp only
    split
    · exact answers_next fun h => inv_when h inv_streamRead
    · exact answers_ite answers_self (answers_next fun h => inv_streamRead (inv_modStream (inv_issuePacket h)))
  · exact answers_self

/-! ### Engines -/

theorem execListStart_answers {eng : Engine} : Answers s (execListStart p eng s) := by
  unfold execListStart
  dsimp only
  split
  · exact answers_self
  · refine answers_ite answers_self ?_
    split
    · exact answers_next inv_flushEngine
    · exact answers_next inv_modEngine

theorem execEntryComplete_answers {eng : Engine} : Answers s (execEntryComplete p eng s) :=
  answers_ite answers_self (answers_next fun h => inv_detachAll (inv_retireEntry h))

theorem streamEntry_answers : Answers s (streamEntry n k s) := by
  have begin_ : ∀ (q : Prop) [Decidable q] (g : Entry → Entry) (e : Unit512) (c : Entry),
      Answers s (.next (if q then endMoved k 0x404 e c (modCur k 1 g s) else streamGo k (modCur k 1 g s))) :=
    fun _ _ _ _ _ => answers_next fun h => inv_ite (inv_endMoved (inv_modCur h)) (inv_streamGo (inv_modCur h))
  unfold streamEntry
  split
  · exact answers_self
  · refine answers_ite answers_self (answers_ite (answers_next inv_streamGo) ?_)
    dsimp only
    split
    · split
      · exact answers_next inv_endMoved
      · exact answers_self
      · exact begin_ ..
    · exact begin_ ..

theorem execResp_answers {q : RespTake} : Answers s (execResp q s) := by
  unfold execResp
  split
  · exact answers_self
  · dsimp only
    split
    · exact answers_next fun h => Inv.rest (inv_advanceTo h _)
    · exact answers_next fun h => inv_ite (inv_respArray (Inv.rest (inv_advanceTo h _)))
        (inv_respSlots (Inv.rest (inv_advanceTo h _)))

theorem execConfirmPoll_answers : Answers s (execConfirmPoll p s) := by
  unfold execConfirmPoll
  split
  · exact answers_self
  · split
    · exact answers_self
    · dsimp only
      split
      · exact answers_next fun h => inv_endMoved (inv_modCur (inv_advanceTo h _))
      · exact answers_ite (answers_next fun h => inv_endMoved (inv_modCur (inv_advanceTo h _)))
          (answers_next fun h => inv_modCur (inv_advanceTo h _))

theorem execEntryTimeout_answers : Answers s (execEntryTimeout p s) := by
  unfold execEntryTimeout
  split
  · exact answers_self
  · exact answers_next fun h => inv_endEntry (inv_sageEvent (inv_advanceTo h _) ..)

theorem execCxlCacheResponse_answers {r : CacheResp} : Answers s (execCxlCacheResponse p r s) := by
  unfold execCxlCacheResponse
  split
  · exact answers_self
  · refine answers_ite answers_self ?_
    split
    · exact answers_next fun h => inv_endMoved (inv_modCur h)
    · exact answers_ite answers_self (answers_next inv_takeLine)
    · exact answers_ite answers_self (answers_next fun h => inv_streamGo (inv_modCur (inv_steWrites h)))

theorem execCxlCacheTimeout_answers : Answers s (execCxlCacheTimeout p s) := by
  unfold execCxlCacheTimeout
  split
  · exact answers_self
  · split
    · exact answers_self
    · exact answers_next fun h => inv_endEntry (inv_sageEvent (inv_modCur (inv_advanceTo h _)) ..)

theorem execArm_answers : Answers s (execArm p s) := by
  unfold execArm
  split
  · exact answers_self
  · exact answers_ite (answers_next fun h => inv_endEntry (inv_modCur h))
      (answers_next fun h => inv_endEntry (inv_modPart (inv_modCur h) ..))

theorem execDisarm_answers : Answers s (execDisarm p s) := by
  unfold execDisarm
  split
  · exact answers_self
  · exact answers_next fun h => inv_endEntry (inv_modPart (inv_modCur h) ..)

theorem execBirsp_answers {wb : WriteBack} : Answers s (execBirsp port n wb s) := by
  unfold execBirsp
  refine answers_ite answers_self ?_
  extract_lets part written dropped served folded
  clear_value part
  refine answers_next fun h => ?_
  have hw : Inv written := by
    dsimp only [written]
    split
    · exact inv_when h fun h => inv_writeChunk (inv_serveWrite h ..) ..
    · exact h
  have hd : Inv dropped := inv_modPort hw ..
  have hs : Inv served := by
    dsimp only [served]
    split
    · exact inv_hostRead (inv_modPort hd ..)
    · exact hd
  have hf : Inv folded := by
    dsimp only [folded]
    split
    · exact inv_streamWith hs
    · exact hs
  exact inv_detachAll hf

end Sys2Proof.Machine
end

/-! ## What the commands of sections, faults, hosts and operators answer -/

section
namespace Sys2Proof.Machine

variable {s t : State} {port p : Fin 4} {n k op : Nat} {m : MailCmd} {force b : Bool}

/-! ### Sections -/

theorem execLoad_answers : Answers s (execLoad p s) := by
  unfold execLoad
  dsimp only
  split
  · exact answers_self
  · refine answers_ite (answers_ite (answers_next fun h => inv_endEntry (inv_startEntry h)) ?_) answers_self
    split
    · exact answers_next fun h => inv_idleLoad (inv_startEntry h)
    · exact answers_ite (answers_next fun h => inv_forcePath (inv_modPart (inv_startEntry h) ..))
        (answers_next fun h => inv_modPart (inv_startEntry h) ..)
    · exact answers_ite (answers_next fun h => inv_forcePath (inv_modPart (inv_startEntry h) ..))
        (answers_next fun h => inv_endEntry (inv_startEntry h))

theorem execRestore_answers : Answers s (execRestore p s) := by
  unfold execRestore
  dsimp only
  split
  · exact answers_self
  · exact answers_ite (answers_ite (answers_next fun h => inv_endEntry (inv_startEntry h))
      (answers_next fun h => inv_forcePath (inv_startEntry h))) answers_self

theorem execFinish_answers : Answers s (execFinish p s) := by
  unfold execFinish
  dsimp only
  split
  · exact answers_self
  · refine answers_ite ?_ answers_self
    split
    · exact answers_next fun h => inv_endEntry (inv_startEntry h)
    · exact answers_next fun h => inv_modPart (inv_startEntry h) ..
    · exact answers_next fun h => inv_endEntry (inv_startEntry h)

theorem execEndedReduction_answers : Answers s (execEndedReduction p s) :=
  answers_ite answers_self <| answers_ite
    (answers_ite (answers_next fun h => inv_modPart (inv_stopStreams (inv_advanceTo h _)) ..) <| answers_ite
      (answers_next fun h => inv_failSwitch (inv_raiseMismatch (inv_modPart (inv_stopStreams (inv_advanceTo h _)) ..)))
      (answers_next fun h => inv_modPart (inv_modPart (inv_stopStreams (inv_advanceTo h _)) ..) ..))
    (answers_next fun h => inv_stopStreams (inv_advanceTo h _))

theorem execDrainStart_answers : Answers s (execDrainStart p s) :=
  answers_ite (answers_next fun h => inv_setPhase (inv_modPart h ..)) answers_self

theorem execDrainSample_answers : Answers s (execDrainSample p s) := by
  unfold execDrainSample
  split
  · dsimp only
    split
    · exact answers_next fun h => inv_clearAsks (inv_setPhase (inv_catchUpBand (inv_advanceTo h _)))
    · exact answers_next fun h => inv_failSwitch (inv_raiseResiduals (inv_catchUpBand (inv_advanceTo h _)))
  · exact answers_self

theorem execSpillsComplete_answers : Answers s (execSpillsComplete p s) := by
  have spilled : ∀ l : List SlotRun, Inv s → Inv (clearAsks p.val (l.foldl (fun s r => doSpill r s) s)) :=
    fun _ h => inv_clearAsks (inv_foldl h _ _ fun _ _ v => inv_doSpill v)
  unfold execSpillsComplete
  refine answers_ite (answers_ite (answers_next inv_snoopLines) ?_) answers_self
  dsimp only
  split
  · exact answers_next fun h => inv_ite (inv_beginCapture (spilled _ h)) (inv_continueSwitch (spilled _ h))
  · exact answers_next fun h => inv_continueSwitch (spilled _ h)

theorem execCheckpointCaptureComplete_answers : Answers s (execCheckpointCaptureComplete p s) := by
  unfold execCheckpointCaptureComplete
  split
  · split
    · exact answers_self
    · exact answers_self
    · exact answers_next fun h => inv_ite (inv_setPhase (inv_modPart (inv_clearAsks (inv_capture h)) ..))
        (inv_continueSwitch (inv_modPart (inv_clearAsks (inv_capture h)) ..))
  · exact answers_self

theorem execForcedPathInflightClear_answers : Answers s (execForcedPathInflightClear p s) := by
  unfold execForcedPathInflightClear
  split
  · refine answers_ite answers_self ?_
    extract_lets reached caught lost closed e forced cleared
    have hl : Inv s → Inv cleared := fun h =>
      inv_modPart (inv_overTiles (inv_closeSection (inv_catchUpBand (inv_advanceTo h _)))) ..
    split
    · exact answers_next fun h => inv_readCheckpoint (hl h)
    · exact answers_next fun h => inv_setPhase (inv_modPart (hl h) ..)
  · exact answers_self

theorem execImageLoadComplete_answers : Answers s (execImageLoadComplete p s) := by
  unfold execImageLoadComplete
  dsimp only
  split
  · refine answers_ite answers_self <| answers_ite (answers_next inv_refuseRange) <| answers_ite (answers_next inv_refuseLoad) <|
      answers_next fun h => inv_modPart (inv_modCur (inv_when ?_ fun v => inv_sageEvent v ..)) ..
    exact inv_foldl (inv_clearAsks h) _ _ fun _ _ v => inv_loadStreams (inv_loadTiles (inv_noteImage v))
  · exact answers_self

theorem execRelease_answers : Answers s (execRelease p s) := by
  unfold execRelease
  split
  · extract_lets reached tiles streams counted released q done resume
    have hr : Inv s → Inv released := fun h =>
      inv_modPart (inv_lifeBump (inv_foldl (inv_overTiles (inv_advanceTo h _)) _ _ fun _ _ v => inv_modSpine v ..) ..) ..
    have hd : ∀ t, Inv t → Inv (done t) := fun _ v => inv_endStarted (inv_modCur v)
    split
    · exact answers_next fun h => hd _ (hr h)
    · exact answers_next hr
    · exact answers_next fun h => inv_resumeQueue (hr h)
    · exact answers_next fun h => inv_detachAll (inv_ite (inv_afterRestore (inv_when (hr h) (hd _)))
        (inv_resumeQueue (inv_afterRestore (inv_when (hr h) (hd _)))))
  · exact answers_self

theorem execReplayNextLoad_answers : Answers s (execReplayNextLoad p s) := by
  unfold execReplayNextLoad
  dsimp only
  split
  · exact answers_self
  · exact answers_ite (answers_next fun h => inv_modPart h ..) answers_self

/-! ### Events, repair and tests -/

theorem execEventRecord_answers {src : EvSrc} : Answers s (execEventRecord src s) := by
  unfold execEventRecord
  split
  · exact answers_self
  next he => exact answers_next fun h => inv_detachAll (inv_respond (inv_fileRecord (inv_takeEvent h he)))

theorem execSectionDeadlock_answers : Answers s (execSectionDeadlock p s) :=
  answers_ite (answers_next fun h => inv_modPart (inv_startWave (inv_sageEvent h ..)) ..) answers_self

theorem execRepairHistoryWritten_answers : Answers s (execRepairHistoryWritten p s) := by
  unfold execRepairHistoryWritten
  split
  · exact answers_self
  · exact answers_ite (answers_next fun h => inv_modPart (inv_foldl (inv_foldl h _ _ fun _ _ v => inv_addHistory v _) _ _
      fun _ _ v => inv_addHistory v _) ..) answers_self

theorem execRemapCommitted_answers : Answers s (execRemapCommitted p s) := by
  unfold execRemapCommitted
  split
  · exact answers_self
  · exact answers_ite (answers_ite (answers_next fun h => inv_modPart (inv_remap h) ..) <| answers_ite
      (answers_next fun h => inv_restoreWhenReady (inv_modPart (inv_remap h) ..))
      (answers_next fun h => inv_lifeBump (inv_modPart (inv_remap h) ..) ..)) answers_self

theorem execStackFailure_answers {d : Fin 48} {q : Fin 2} : Answers s (execStackFailure d q s) :=
  answers_ite (answers_next fun h => inv_modSpine (inv_spineEvent h ..) ..) answers_self

theorem execSelftestComplete_answers {r : TestResult} : Answers s (execSelftestComplete r s) := by
  unfold execSelftestComplete
  split
  · refine answers_ite answers_self ?_
    extract_lets noted put
    have hp : Inv s → Inv put := fun h => inv_putResult (inv_when h inv_noteBist)
    split
    · split
      · exact answers_next fun h => inv_tileTested (hp h)
      · exact answers_next fun h => inv_ite (hp h) (inv_testFails (hp h))
    · exact answers_next fun h => inv_ite (hp h) (inv_testFails (hp h))
  · exact answers_ite answers_self (answers_next fun h => inv_ite (inv_putResult h) (inv_sageEvent (inv_putResult h) ..))
  · exact answers_next inv_endTicket

theorem execSelftestOverdue_answers : Answers s (execSelftestOverdue p s) := by
  unfold execSelftestOverdue
  dsimp only
  split
  · exact answers_self
  · exact answers_ite answers_self (answers_next fun h => inv_modPart (inv_sageEvent (inv_advanceTo h _) ..) ..)

theorem execSpareTileTest_answers {d : Fin 48} {l : List (Nat × Nat)} : Answers s (execSpareTileTest d l s) :=
  answers_next fun h => inv_foldl (inv_putResult (Inv.rest (inv_advanceTo h _))) _ _ fun _ _ v => inv_testFails v

theorem execMarkedUnitRetest_answers {r : DefectRec} : Answers s (execMarkedUnitRetest r b s) := by
  unfold execMarkedUnitRetest
  refine answers_ite answers_self (answers_ite (answers_next fun h => h.rest) ?_)
  split
  · exact answers_next fun h => h.rest
  · exact answers_ite answers_self <| answers_ite (answers_next fun h => h.rest) <|
      answers_next fun h => inv_sageEvent (inv_addHistory h.rest _) ..

theorem execSensorCalibration_answers : Answers s (execSensorCalibration s) :=
  answers_next fun h => Inv.rest (inv_advanceTo h _)

theorem execHistoryCounterWrite_answers : Answers s (execHistoryCounterWrite s) :=
  answers_next fun h => Inv.rest (inv_when (inv_addHistory (inv_advanceTo h _) _) fun v =>
    Inv.rest (inv_addHistory (inv_stackHour v) _))

theorem execSyslogSummary_answers : Answers s (execSyslogSummary s) :=
  answers_next fun h => inv_foldl h.rest _ _ fun _ _ v => inv_syslogSend v

theorem execReportLost_answers : Answers s (execReportLost s) :=
  answers_ite answers_self (answers_next fun h => inv_sageEvent
    (Inv.rest (inv_foldl h _ _ fun _ _ v => inv_mgmtSend v)) ..)

/-! ### Mailboxes and ports -/

theorem mailCommand_answers {host : Option (List Unit512)} : Answers s (mailCommand op m host s) :=
  answers_ite (answers_ite (answers_next fun h => inv_goMail (inv_modPort h ..)) answers_self)
    (answers_ite answers_self (answers_next fun h => inv_goMail (inv_modPort h ..)))

theorem execDetachTimeout_answers : Answers s (execDetachTimeout port s) := by
  unfold execDetachTimeout
  split
  · exact answers_self
  · exact answers_ite answers_self (answers_next fun h => inv_detachAll (inv_modPort (inv_advanceTo h _) ..))

theorem execHdmDecoderCommit_answers {x : Nat} : Answers s (execHdmDecoderCommit port n k x s) :=
  answers_ite answers_self (answers_next fun h => inv_modPort h ..)

theorem execIdeEnable_answers {q : Fin 2} : Answers s (execIdeEnable port q s) :=
  answers_ite (answers_next fun h => inv_modPort h ..) answers_self

theorem execRegisterWrite_answers {v : BitVec 64} : Answers s (execRegisterWrite port n v s) :=
  answers_ite answers_self <| answers_ite (answers_next fun h => inv_modPort h ..) <|
    answers_ite (answers_next fun h => inv_modPort h ..) <|
      answers_ite (answers_ite answers_self (answers_next inv_writeCmd)) <|
        answers_ite (answers_ite answers_self (answers_next fun h => inv_modPort h ..)) answers_self

theorem execFunctionLevelReset_answers : Answers s (execFunctionLevelReset port s) :=
  answers_ite answers_self (answers_next fun h => inv_detachAll (inv_abortPort h))

theorem execLinkUp_answers {r : LinkTrain} : Answers s (execLinkUp port r s) := by
  unfold execLinkUp
  dsimp only
  split
  · exact answers_self
  · refine answers_ite answers_self ?_
    split
    · exact answers_next fun h => inv_streamGo (inv_writeHeld (inv_modPort h ..))
    · exact answers_next fun h => inv_modPort h ..

theorem execLinkDownTimeout_answers : Answers s (execLinkDownTimeout port s) := by
  unfold execLinkDownTimeout
  dsimp only
  split
  · exact answers_self
  · refine answers_ite answers_self ?_
    split
    · exact answers_next fun h => inv_foldl (inv_detachAll (inv_abortPort (inv_modPort (inv_advanceTo h _) ..))) _ _
        fun _ _ v => inv_modEngine v
    · exact answers_next fun h => inv_detachAll (inv_abortPort (inv_modPort (inv_advanceTo h _) ..))

theorem execKeyPairExpiry_answers : Answers s (execKeyPairExpiry port s) := by
  unfold execKeyPairExpiry
  split
  · exact answers_self
  · exact answers_next fun h => inv_modPort (inv_advanceTo h _) ..

/-! ### Power and heat -/

theorem execManagementTick_answers {q : Meters} : Answers s (execManagementTick q s) := by
  unfold execManagementTick
  refine answers_ite answers_self ?_
  extract_lets lo hi old metered ps run told settled hot windows
  have hm : Inv s → Inv metered := fun h => inv_tickMeters (inv_advanceTo h _)
  have ht : Inv s → Inv told := fun h => inv_foldl
    (inv_foldl (hm h) _ _ fun _ _ v => inv_tickRun (inv_tickResponders v)) _ _ fun _ _ v => inv_tickTelemetry v
  have hw : Inv s → Inv windows := fun h => inv_foldl (inv_foldl (inv_tickSettings (inv_tickLevels (ht h))) _ _
    fun _ _ v => inv_tickHot (inv_tickCapo v)) _ _ fun _ _ v => inv_tickWindow v
  exact answers_ite (answers_next fun h => inv_tickLifetime (hm h))
    (answers_next fun h => inv_tickVectors (inv_tickLifetime (hw h)))

theorem execPowerSwitchRamp_answers : Answers s (execPowerSwitchRamp n s) := by
  unfold execPowerSwitchRamp
  split
  · exact answers_next fun h => inv_gateAdvance (inv_modDom (inv_advanceTo h _) ..)
  · exact answers_self

theorem execDividerRampStep_answers : Answers s (execDividerRampStep n s) := by
  unfold execDividerRampStep
  split
  · exact answers_ite
      (answers_ite (answers_next fun h => inv_modDom (inv_advanceTo h _) ..)
        (answers_next fun h => inv_gateAdvance (inv_modDom (inv_advanceTo h _) ..)))
      (answers_ite (answers_next fun h => inv_modDom (inv_advanceTo h _) ..)
        (answers_next fun h => inv_gateAdvance (inv_nodeOff (inv_advanceTo h _))))
  · exact answers_self

theorem execDroopTrip_answers {d : Fin 48} {q : Fin 4} : Answers s (execDroopTrip d q s) :=
  answers_next fun h => inv_power h h.doms

theorem execThermalTrip_answers : Answers s (execThermalTrip n k s) := by
  unfold execThermalTrip
  refine answers_ite ?_ answers_self
  extract_lets d hot
  have hh : Inv s → Inv hot := fun h => inv_dropHot (inv_dieThermal (inv_setTemp h))
  split
  · exact answers_next fun h => inv_sageEvent (inv_modPart (hh h) ..) ..
  · exact answers_next fun h => inv_sageEvent (hh h) ..

theorem execQuadrantTrip_answers {d : Fin 48} {q : Fin 4} : Answers s (execQuadrantTrip d q s) := by
  unfold execQuadrantTrip
  refine answers_ite answers_self (answers_next fun h => inv_gateAdvance (inv_sageEvent ?_ ..))
  have v := inv_noteLevel (k := 4 * d.val + q.val) (inv_setTemp (n := 8 * d.val + q.val) (k := 11000) h)
  exact inv_power v v.doms

theorem execQuadrantOff_answers {d : Fin 48} {q : Fin 4} : Answers s (execQuadrantOff d q s) := by
  have off : ∀ z : Quads, Inv s → Inv { fieldDefect { kind := 6, die := d.val, quad := q.val } s with
      power := { (fieldDefect { kind := 6, die := d.val, quad := q.val } s).power with quads := z } } :=
    fun _ h => inv_power (inv_fieldDefect h) (inv_fieldDefect h).doms
  unfold execQuadrantOff
  refine answers_ite answers_self ?_
  dsimp only
  split
  · exact answers_next fun h => inv_modPart (inv_sageEvent (off _ h) ..) ..
  · exact answers_next fun h => inv_sageEvent (off _ h) ..

theorem execCoolantLow_answers {q : CoolantCause} : Answers s (execCoolantLow q s) :=
  answers_next fun h => inv_nodesOff (inv_sageEvent h.rest ..) _

theorem execSupplyFault_answers {q : SupplyCause} : Answers s (execSupplyFault q s) := by
  unfold execSupplyFault
  dsimp only
  split
  · exact answers_ite (answers_next fun h => Inv.rest (inv_foldl (inv_nodesOff (inv_sageEvent h ..) _) _ _
      fun _ _ v => inv_when v fun v => inv_modPort v ..)) (answers_next fun h => inv_sageEvent h ..)
  · exact answers_next fun h => inv_sageEvent h ..

/-! ### Operators -/

theorem redfish_answers {f : State → State} (h : Inv s → Inv (f s)) : Answers s (redfish f s) :=
  answers_ite (answers_next h) (answers_ite (answers_next fun h => inv_mgmtAnswer h _) answers_self)

theorem execPartitionSet_answers {ps : List PartDef} : Answers s (execPartitionSet ps force s) :=
  redfish_answers fun h => inv_ite (inv_mgmtAnswer h _) <| inv_ite (inv_mgmtAnswer (inv_applyPartitions h) _) <|
    inv_ite (inv_forceRequest h) (inv_mgmtAnswer h _)

theorem execCapoSettings_answers {q : CapoReq} : Answers s (execCapoSettings q s) :=
  redfish_answers fun h => by
    split
    · exact inv_mgmtAnswer h _
    · exact inv_mgmtAnswer (inv_ite (inv_power h h.doms) (inv_stopBallast (inv_power h h.doms))) _

theorem execRedfishPolicySet_answers {r : PolicyReq} {lock : Option Bool} : Answers s (execRedfishPolicySet p r lock s) :=
  redfish_answers fun h => inv_ite (inv_mgmtAnswer (inv_modPart (inv_applyPolicy h) ..) _) (inv_mgmtAnswer h _)

theorem execRedfishSelftest_answers {r : TestReq} : Answers s (execRedfishSelftest p r s) :=
  redfish_answers fun h => inv_ite (inv_mgmtAnswer h _) <| inv_ite
    (inv_ite (inv_mgmtAnswer (inv_newTicket h) _) (inv_mgmtAnswer h _)) (inv_mgmtAnswer (inv_newTicket h) _)

theorem execFirmwareUpdate_answers {l : List Byte} : Answers s (execFirmwareUpdate l s) :=
  redfish_answers fun h => inv_ite (inv_mgmtAnswer h _) (inv_mgmtAnswer h.rest _)

theorem execComputerSystemReset_answers : Answers s (execComputerSystemReset force s) :=
  redfish_answers fun h => inv_ite (inv_mgmtAnswer inv_deviceReset _) (inv_ite (inv_forceRequest h) (inv_mgmtAnswer h _))

theorem execCommitVersion_answers : Answers s (execCommitVersion s) :=
  redfish_answers fun h => inv_ite (inv_mgmtAnswer (inv_commitTo h) _) (inv_mgmtAnswer h _)

theorem execEnterRecovery_answers : Answers s (execEnterRecovery s) :=
  redfish_answers fun _ => inv_mgmtAnswer inv_resetToRecovery _

theorem execPrepareRemoval_answers : Answers s (execPrepareRemoval force s) :=
  redfish_answers fun h => inv_ite (inv_mgmtAnswer (inv_doRemoval h) _) (inv_ite (inv_forceRequest h) (inv_mgmtAnswer h _))

theorem execDevidCertWrite_answers {l : List Byte} : Answers s (execDevidCertWrite l s) :=
  redfish_answers fun h => inv_ite (inv_mgmtAnswer h.rest _) (inv_mgmtAnswer h _)

theorem execRecoveryImagePut_answers {l : List Byte} : Answers s (execRecoveryImagePut l s) :=
  answers_ite (answers_ite (answers_next fun _ => inv_installRecovery) (answers_next fun h => inv_mgmtAnswer h.rest _))
    answers_self

theorem execRecoveryStatusGet_answers : Answers s (execRecoveryStatusGet s) :=
  answers_ite (answers_next fun h => inv_mgmtAnswer h _) (answers_ite (answers_next fun h => inv_mgmtAnswer h _) answers_self)

/-! ### Pins and start-up -/

theorem execChPrsntLow_answers : Answers s (execChPrsntLow s) :=
  answers_ite answers_self (answers_next fun h => Inv.rest (inv_lifeBump h ..))

theorem execChPrsntHigh_answers : Answers s (execChPrsntHigh s) :=
  answers_ite (answers_next fun _ => inv_losePower) answers_self

theorem execAuxPowerStable_answers {f : FuseSense} : Answers s (execAuxPowerStable f s) :=
  answers_ite (answers_next fun h => inv_gateSettled (inv_bootRom h.rest)) answers_self

theorem execMainPowerEnable_answers {r : StartupResult} : Answers s (execMainPowerEnable r s) :=
  answers_ite (answers_next fun h => inv_releaseDevice <| inv_setWatts <| inv_gateSettled <|
    inv_startupColumns <| inv_startupTest <| inv_trainStacks h.rest) answers_self

theorem execEpoAssert_answers : Answers s (execEpoAssert s) := by
  unfold execEpoAssert
  refine answers_ite answers_self (answers_next fun h => inv_when (inv_when h.rest fun v => ?_) fun v => inv_sageEvent v ..)
  exact Inv.rest (inv_loseMain v)

theorem execFlowInterlockClose_answers : Answers s (execFlowInterlockClose s) :=
  answers_ite (answers_next fun h => h.rest) answers_self

theorem execFlowInterlockOpen_answers : Answers s (execFlowInterlockOpen s) :=
  answers_ite answers_self (answers_ite (answers_next fun h => inv_recordOpening (inv_loseMain h.rest))
    (answers_next fun h => h.rest))

theorem execSageLockstep_answers {q : LockstepCause} : Answers s (execSageLockstep q s) := by
  unfold execSageLockstep
  refine answers_ite answers_self ?_
  split
  · exact answers_next inv_lockstepFail
  · exact answers_next inv_lockstepFail
  · exact answers_next fun h => inv_sageEvent h ..

end Sys2Proof.Machine
end

/-! ## Every command, and the invariant of every step -/

section
namespace Sys2Proof.Machine

variable {s t : State} {i : TileId} {c : Instr}

/-- What a command answers, by the tile that it names. -/
def Completes (c : Instr) (s : State) : Prop :=
  match c.tile? with
  | some i => AnswersOn i s (exec c s)
  | none => Answers s (exec c s)

theorem exec_completes (c : Instr) (s : State) : Completes c s := by
  unfold Completes exec
  cases c with
  | next | setlc | loop | jump | delay | endTab | tabMove | semWaitGe | semAdd | semSub | semWaitGeSub | sem2Add
  | sem2Sub | arrLoad | arrLoadsc | arrSwap | mac | macHl | macLh | macHh | macP20 | macP11 | macP02 | macP21
  | macP12 | macP22 | arrDrain | mode | spLoad | loadm | spLoadsc | spSwap | mac24 | gload | beginStep | seg
  | spDrain | vmov | vadd | vsub | vmul | vmin | vmax | vabs | vneg | vcmpgt | vcmpeq | vand | vor | vxor | vshl
  | vshr | vrcp | vrsqrt | vexp2 | vlog2 | vrsum | vrmax | cvtW | cvtN | cvtNb | packScl | packMsk | cvtWb | cmp24p
  | cmp24f | cmpSeg | cmpFlush | cmpCount | cmpReset => exact tabCommand_answers
  | arrayContributionLand | drainFlit | mac24Land | segLand | vectorV6 | tabMoveLand | fallbackChunkLand =>
    exact landCommand_answers
  | nonTabWriteGrant | fillblockLand => exact grantWrite_answers
  | h2s | s2h | s2s | img | h2t | s2t | t2h | t2s | tcmd => exact streamEntry_answers
  | partitionQuery | policySet | submitList | eventRead | tileRead | spineRead | stallMap | sectionRead | diagRead
  | selftest | attest | ideKey | detach | attach | recBegin | recData | recCommit => exact mailCommand_answers
  | delayExpiry => exact execDelayExpiry_answers
  | fallbackFetch => exact execFallbackFetch_answers
  | fallbackChunkIssue => exact execFallbackChunkIssue_answers
  | sparseStepComplete => exact execSparseStepComplete_answers
  | extMark => exact execExtMark_answers
  | packetReadClaim => exact execPacketReadClaim_answers
  | packetReadGrant => exact execPacketReadGrant_answers
  | bulkSlotWrite => exact execBulkSlotWrite_answers
  | accumulateWriteArrival => exact execAccumulateWriteArrival_answers
  | cbIdleDrain => exact execCbIdleDrain_answers
  | cbDrain => exact execCbDrain_answers
  | wwrite => exact execWwrite_answers
  | mread => exact execMread_answers
  | mcmd => exact execMcmd_answers
  | resp => exact execResp_answers
  | cfgw => exact execCfgw_answers
  | queueFlitArrival => exact execQueueFlitArrival_answers
  | mergeQueueGrant => exact execMergeQueueGrant_answers
  | peerReset => exact execPeerReset_answers
  | scalarSignal => exact execScalarSignal_answers
  | scalarRegisterWrite => exact execScalarRegisterWrite_answers
  | stallTimeout => exact execStallTimeout_answers
  | managementTick => exact execManagementTick_answers
  | sectionDeadlock => exact execSectionDeadlock_answers
  | endedReduction => exact execEndedReduction_answers
  | haltWave => exact execHaltWave_answers
  | flitHop => exact execFlitHop_answers
  | course5Aged => exact execCourse5Aged_answers
  | hopCreditReturn => exact execHopCreditReturn_answers
  | windowTokenReturn => exact execWindowTokenReturn_answers
  | retryRequest => exact execRetryRequest_answers
  | linkFail => exact execLinkFail_answers
  | packetHop => exact execPacketHop_answers
  | wireSteer => exact execWireSteer_answers
  | cxlMemRead => exact answers_next inv_hostRead
  | cxlMemWrite => exact execCxlMemWrite_answers
  | dramReadReturn => exact execDramReadReturn_answers
  | mergeEntryExpiry => exact execMergeEntryExpiry_answers
  | refreshPhase => exact execRefreshPhase_answers
  | stackStreamStart => exact execStackStreamStart_answers
  | stackStreamPacket => exact execStackStreamPacket_answers
  | eventRecord => exact execEventRecord_answers
  | load => exact execLoad_answers
  | restore => exact execRestore_answers
  | finish => exact execFinish_answers
  | drainStart => exact execDrainStart_answers
  | drainSample => exact execDrainSample_answers
  | spillsComplete => exact execSpillsComplete_answers
  | checkpointCaptureComplete => exact execCheckpointCaptureComplete_answers
  | forcedPathInflightClear => exact execForcedPathInflightClear_answers
  | imageLoadComplete => exact execImageLoadComplete_answers
  | release => exact execRelease_answers
  | replayNextLoad => exact execReplayNextLoad_answers
  | tileFault => exact execTileFault_answers
  | repairHistoryWritten => exact execRepairHistoryWritten_answers
  | remapCommitted => exact execRemapCommitted_answers
  | selftestComplete => exact execSelftestComplete_answers
  | selftestOverdue => exact execSelftestOverdue_answers
  | spareTileTest => exact execSpareTileTest_answers
  | markedUnitRetest => exact execMarkedUnitRetest_answers
  | sensorCalibration => exact execSensorCalibration_answers
  | historyCounterWrite => exact execHistoryCounterWrite_answers
  | syslogSummary => exact execSyslogSummary_answers
  | reportLost => exact execReportLost_answers
  | detachTimeout => exact execDetachTimeout_answers
  | listStart => exact execListStart_answers
  | entryComplete => exact execEntryComplete_answers
  | confirmPoll => exact execConfirmPoll_answers
  | entryTimeout => exact execEntryTimeout_answers
  | arm => exact execArm_answers
  | disarm => exact execDisarm_answers
  | cxlCacheResponse => exact execCxlCacheResponse_answers
  | cxlCacheTimeout => exact execCxlCacheTimeout_answers
  | birsp => exact execBirsp_answers
  | hostSnoop => exact answers_next inv_hostSend
  | hdmDecoderCommit => exact execHdmDecoderCommit_answers
  | ideEnable => exact execIdeEnable_answers
  | ideIntegrityFail => exact answers_ite (answers_next inv_linkDown) answers_self
  | cdatRead => exact answers_next inv_hostSend
  | registerWrite => exact execRegisterWrite_answers
  | functionLevelReset => exact execFunctionLevelReset_answers
  | linkUp => exact execLinkUp_answers
  | hostLinkDown => exact answers_next inv_linkDown
  | linkDownTimeout => exact execLinkDownTimeout_answers
  | keyPairExpiry => exact execKeyPairExpiry_answers
  | partitionSet => exact execPartitionSet_answers
  | capoSettings => exact execCapoSettings_answers
  | redfishPolicySet => exact execRedfishPolicySet_answers
  | redfishSelftest => exact execRedfishSelftest_answers
  | firmwareUpdate => exact execFirmwareUpdate_answers
  | computerSystemReset => exact execComputerSystemReset_answers
  | commitVersion => exact execCommitVersion_answers
  | enterRecovery => exact execEnterRecovery_answers
  | prepareRemoval => exact execPrepareRemoval_answers
  | devidCertWrite => exact execDevidCertWrite_answers
  | recoveryImagePut => exact execRecoveryImagePut_answers
  | recoveryStatusGet => exact execRecoveryStatusGet_answers
  | chPrsntLow => exact execChPrsntLow_answers
  | chPrsntHigh => exact execChPrsntHigh_answers
  | auxPowerStable => exact execAuxPowerStable_answers
  | mainPowerEnable => exact execMainPowerEnable_answers
  | epoAssert => exact execEpoAssert_answers
  | flowInterlockClose => exact execFlowInterlockClose_answers
  | flowInterlockOpen => exact execFlowInterlockOpen_answers
  | coolantLow => exact execCoolantLow_answers
  | supplyFault => exact execSupplyFault_answers
  | thermalTrip => exact execThermalTrip_answers
  | quadrantTrip => exact execQuadrantTrip_answers
  | quadrantOff => exact execQuadrantOff_answers
  | droopTrip => exact execDroopTrip_answers
  | dividerRampStep => exact execDividerRampStep_answers
  | sageLockstep => exact execSageLockstep_answers
  | powerSwitchRamp => exact execPowerSwitchRamp_answers
  | bridgeWireTuning => exact execBridgeWireTuning_answers
  | stackFailure => exact execStackFailure_answers
  | ringFailure => exact answers_next fun h => inv_sageEvent h ..
  | unknownOpcode => exact answers_ite mailCommand_answers answers_self

theorem answersOn_exec (h : c.tile? = some i) : AnswersOn i s (exec c s) := by
  have v := exec_completes c s
  unfold Completes at v
  rwa [h] at v

theorem answers_exec (h : c.tile? = none) : Answers s (exec c s) := by
  have v := exec_completes c s
  unfold Completes at v
  rwa [h] at v

theorem Answers.inv {a : Out} (ha : Answers s a) (h : Inv s) (ht : a = .next t) : Inv t := by
  obtain ⟨u, rfl, hu⟩ := ha
  cases ht
  exact hu h

theorem AnswersOn.inv {a : Out} (ha : AnswersOn i s a) (h : Inv s) (ht : a = .next t) : Inv t := by
  obtain ⟨u, rfl, hu⟩ := ha
  split at ht
  · cases ht
    exact hu h
  · cases ht

/-- Every command keeps the invariant, whatever state it finds. -/
theorem exec_inv (h : Inv s) (ht : exec c s = .next t) : Inv t := by
  cases hc : c.tile? with
  | none => exact (answers_exec hc).inv h ht
  | some i => exact (answersOn_exec hc).inv h ht

end Sys2Proof.Machine

open Sys2Proof Sys2Proof.Machine

/-- Settles O3: with no command waiting only the cycle count moves, and every command keeps the invariant (exec_inv). -/
theorem stepKeepsInvariant : Obligations.StepKeepsInvariant := by
  intro s t h ht
  unfold step at ht
  split at ht
  · cases ht
    exact h.rest
  · exact exec_inv h.rest ht

/-- Settles O4: each command answers a next state, or the one of a command on a tile that does not exist (exec_completes). -/
theorem everyCommandAnswers : Obligations.EveryCommandAnswers := by
  intro c s
  split
  next i hc =>
    obtain ⟨t, ht, -⟩ := answersOn_exec (s := s) hc
    rw [ht]
    split
    · exact ⟨t, rfl⟩
    · rfl
  next hc =>
    obtain ⟨t, ht, -⟩ := answers_exec (s := s) hc
    exact ⟨t, ht⟩
end


/-! ## What a port answers (R13, R327, R329, R333, R334, R341, R342, R349, R350, R360) -/

section
namespace Sys2Proof.Machine

variable {s : State} {o : Fin 4} {m : MailCmd} {v : BitVec 64} {off : Nat}

/-! ### One port changes -/

/-- Only what a change makes of the port that is there matters. -/
theorem modPort_congr {n : Nat} {f g : Port → Port} (h : f (getPort s n) = g (getPort s n)) : modPort s n f = modPort s n g :=
  congrArg (fun q => { s with ports := mset {} s.ports n q }) h

theorem getPort_modPort_same {n : Nat} {f : Port → Port} (w : mwf {} s.ports = true) :
    getPort (modPort s n f) n = f (getPort s n) := mget_mmod w

theorem getPort_modPort_ne {n k : Nat} {f : Port → Port} (w : mwf {} s.ports = true) (h : k ≠ n) :
    getPort (modPort s n f) k = getPort s k := mget_mmod_ne w h

theorem hostSend_of_up {n : Nat} {x : HostOut} (h : (getPort s n).up = true) :
    hostSend n x s = modPort s n fun q => { q with out := if q.up then q.out ++ [x] else q.out } :=
  modPort_congr (by simp [h])

/-! ### Fields of a word -/

theorem bit_toNat {w : Nat} (v : BitVec w) (k : Nat) : bit v.toNat k = v.getLsbD k := by
  rw [bit, fld, BitVec.getLsbD, Nat.testBit_eq_decide_div_mod_eq, Nat.shiftRight_eq_div_pow, pow_one]

theorem ofNat_fld {w : Nat} (v : BitVec w) (lo n : Nat) : BitVec.ofNat n (fld v.toNat lo n) = (v >>> lo).setWidth n := by
  apply BitVec.eq_of_toNat_eq
  simp [fld]

theorem toNat_setWidth_eq_fld {w : Nat} (v : BitVec w) (n : Nat) : (v.setWidth n).toNat = fld v.toNat 0 n := by
  simp [fld]

/-! ### Commits of the HDM decoder and key sets (R330, R333, R334) -/

/-- The decoder takes a setting of R330. -/
theorem hdmSetting_iff {base size ways : Nat} :
    (match partOfPort s o with
      | some p => decide (size = hdmSize (getPart s p)) && decide (ways = 1) && decide (base % 0x10000000 = 0)
      | none => false) = true ↔
    (∃ p, partOfPort s o = some p ∧ size = hdmSize (getPart s p)) ∧ ways = 1 ∧ base % 2 ^ 28 = 0 := by
  cases partOfPort s o with
  | none => simp
  | some p => simp [and_assoc]

theorem exec_hdmDecoderCommit {base size ways : Nat} (h : (getPort s o).up = true) :
    exec (.hdmDecoderCommit o base size ways) s = .next (modPort s o fun q =>
      if (∃ p, partOfPort s o = some p ∧ size = hdmSize (getPart s p)) ∧ ways = 1 ∧ base % 2 ^ 28 = 0 then
        { q with hdmBase := base, hdmSize := size, committed := true, notCommitted := false }
      else { q with committed := false, notCommitted := true }) := by
  show execHdmDecoderCommit o base size ways s = _
  simp only [execHdmDecoderCommit, h, Bool.not_true, Bool.false_eq_true, if_false]
  refine congrArg _ (modPort_congr ?_)
  exact if_congr hdmSetting_iff rfl rfl

theorem exec_ideEnable_refused {k : Fin 2} (h : (getPort s o).up = false ∨ mget [] (getPort s o).keys k = []) :
    exec (.ideEnable o k) s = .next s := by
  refine if_neg ?_
  rintro ⟨hu, hk⟩
  rcases h with h | h
  · simp [h] at hu
  · exact hk h

theorem exec_ideEnable {k : Fin 2} (hu : (getPort s o).up = true) (hk : mget [] (getPort s o).keys k ≠ []) :
    exec (.ideEnable o k) s = .next (modPort s o fun q => { q with ide := true, ideSet := k }) :=
  if_pos ⟨hu, hk⟩

/-! ### CDAT (R329) -/

theorem portCdat_of_part {n p : Nat} (h : partOfPort s n = some p) :
    let band := 100000 / 2 ^ ((getPort s n).rate + if (getPort s n).x8 then 1 else 0)
    portCdat s n = { size := hdmSize (getPart s p), specificPurpose := true, readLatency := 450, writeLatency := 400
                     readBandwidth := band, writeBandwidth := band } := by
  simp [portCdat, portSize, portBandwidth, b2n, h]

/-! ### Register writes, by address (R13, R341, R342, R360) -/

theorem exec_registerWrite_eq (hu : (getPort s o).up = true) (ha : off % 8 = 0) : exec (.registerWrite o off v) s =
    if off < 0x10000 then .next (modPort s o fun q => { q with regs := mset 0 q.regs off v })
    else if 0x18000 ≤ off ∧ off < 0x18200 then .next (modPort s o (writeMsix (off - 0x18000) v))
    else if off = 0x10000 then if (getPort s o).go then .next s else .next (writeCmd o v.toNat s)
    else if 0x11000 ≤ off ∧ off < 0x12000 then
      if (getPort s o).go then .next s
      else .next (modPort s o fun q => { q with req := putBytes q.req (off - 0x11000) (bytesLE v.toNat 8) })
    else .next s :=
  if_neg (by simp [hu, ha])

theorem exec_registerWrite_kept (hu : (getPort s o).up = true) (ha : off % 8 = 0)
    (h : off < 0x10000 ∨ (0x18000 ≤ off ∧ off < 0x18200 ∧ off % 16 = 0)) :
    exec (.registerWrite o off v) s = .next (modPort s o fun q => { q with regs := mset 0 q.regs off v }) := by
  rw [exec_registerWrite_eq hu ha]
  rcases h with h | ⟨hl, hh, hm⟩
  · rw [if_pos h]
  · rw [if_neg (by omega), if_pos ⟨hl, hh⟩]
    refine congrArg _ (modPort_congr ?_)
    rw [writeMsix, if_pos (by omega), Nat.add_sub_cancel' hl]

theorem exec_registerWrite_ignored (hu : (getPort s o).up = true) (ha : off % 8 = 0)
    (h : (0x10000 ≤ off ∧ off < 0x12000 ∧ (getPort s o).go = true) ∨ (0x10008 ≤ off ∧ off < 0x11000) ∨
      (0x12000 ≤ off ∧ off < 0x18000) ∨ 0x18200 ≤ off) : exec (.registerWrite o off v) s = .next s := by
  rw [exec_registerWrite_eq hu ha, if_neg (by omega), if_neg (by omega)]
  rcases h with ⟨-, -, hg⟩ | h
  · simp [hg]
  · rw [if_neg (by omega), if_neg (by omega)]

theorem exec_registerWrite_cmd (hu : (getPort s o).up = true) (hg : (getPort s o).go = false) :
    exec (.registerWrite o 0x10000 v) s = .next (writeCmd o v.toNat s) := by
  simp [exec_registerWrite_eq hu, hg]

theorem exec_registerWrite_req (hu : (getPort s o).up = true) (ha : off % 8 = 0) (hg : (getPort s o).go = false)
    (hl : 0x11000 ≤ off) (hh : off < 0x12000) : exec (.registerWrite o off v) s =
    .next (modPort s o fun q => { q with req := putBytes q.req (off - 0x11000) (bytesLE v.toNat 8) }) := by
  rw [exec_registerWrite_eq hu ha, if_neg (by omega), if_neg (by omega), if_neg (by omega), if_pos ⟨hl, hh⟩, hg]
  rfl

/-! ### Vector Control (R360) -/

section
variable {n : Nat} {q : Port}

/-- The port with the lower half of Vector Control of a vector kept. -/
def keepControl (n : Nat) (v : BitVec 64) (q : Port) : Port :=
  { q with regs := mset 0 q.regs (0x18008 + 16 * n) (v &&& 0xFFFFFFFF#64) }

theorem exec_registerWrite_control (hu : (getPort s o).up = true) (hn : n < 32) :
    exec (.registerWrite o (0x18008 + 16 * n) v) s = .next (modPort s o (writeMsix (8 + 16 * n) v)) := by
  rw [exec_registerWrite_eq hu (by omega), if_neg (by omega), if_pos (by omega),
    show 0x18008 + 16 * n - 0x18000 = 8 + 16 * n by omega]

theorem writeMsix_control : writeMsix (8 + 16 * n) v q =
    let b := BitVec.ofNat 32 (2 ^ n)
    let q := keepControl n v q
    if v.getLsbD 32 then { q with msixMask := q.msixMask ||| b }
    else
      let q := { q with msixMask := q.msixMask &&& ~~~b }
      if q.msixPend.getLsbD n then putVector n { q with msixPend := q.msixPend &&& ~~~b } else q := by
  have hm : ¬ (8 + 16 * n) % 16 = 0 := by omega
  have hn : (8 + 16 * n) / 16 = n := by omega
  have hr : 0x18000 + (8 + 16 * n) = 0x18008 + 16 * n := by omega
  simp only [writeMsix, hm, hn, hr, bit_toNat, if_false, keepControl]
  rfl

/-- A vector whose mask bit is clear is sent at once. -/
theorem putVector_of_unmasked (h : q.msixMask.getLsbD n = false) : putVector n q = { q with out := q.out ++ [.vector n] } := by
  simp [putVector, vecOut, vecPend, bit_toNat, h]

theorem getLsbD_clearBit (x : BitVec 32) (hn : n < 32) : (x &&& ~~~BitVec.ofNat 32 (2 ^ n)).getLsbD n = false := by
  rw [BitVec.getLsbD_and, BitVec.getLsbD_not, BitVec.getLsbD_ofNat, Nat.testBit_two_pow_self]
  simp [hn]

theorem writeMsix_mask (h : v.getLsbD 32 = true) : writeMsix (8 + 16 * n) v q =
    let q := keepControl n v q
    { q with msixMask := q.msixMask ||| BitVec.ofNat 32 (2 ^ n) } := by
  rw [writeMsix_control]
  exact if_pos h

theorem writeMsix_unmask (h : v.getLsbD 32 = false) (hp : q.msixPend.getLsbD n = false) : writeMsix (8 + 16 * n) v q =
    let q := keepControl n v q
    { q with msixMask := q.msixMask &&& ~~~BitVec.ofNat 32 (2 ^ n) } := by
  rw [writeMsix_control]
  simp only [h, keepControl, hp, Bool.false_eq_true, if_false]

theorem writeMsix_unmask_pending (hn : n < 32) (h : v.getLsbD 32 = false) (hp : q.msixPend.getLsbD n = true) :
    writeMsix (8 + 16 * n) v q =
    let b := BitVec.ofNat 32 (2 ^ n)
    let q := keepControl n v q
    { q with msixMask := q.msixMask &&& ~~~b, msixPend := q.msixPend &&& ~~~b, out := q.out ++ [.vector n] } := by
  rw [writeMsix_control]
  simp only [h, keepControl, hp, Bool.false_eq_true, if_false, if_true]
  exact putVector_of_unmasked (getLsbD_clearBit _ hn)

end

/-! ### SGM_CMD (R341, R342, R344) -/

/-- The port with a command's word in SGM_CMD, GO being 1. -/
def cmdStarted (op : Nat) (m : MailCmd) (q : Port) : Port :=
  { q with opcode := BitVec.ofNat 16 op, len := BitVec.ofNat 13 m.len, irq := m.irq, go := true }

/-- The command of a word written to SGM_CMD. -/
def cmdOfWord (o : Fin 4) (v : BitVec 64) : MailCmd :=
  { port := o, len := fld v.toNat 16 13, irq := v.getLsbD 29, req := [] }

theorem writeCmd_of_go_clear (hr : (getPort s o).reading = false) (hv : v.getLsbD 63 = false) :
    writeCmd o v.toNat s = modPort s o fun q =>
      { q with opcode := v.setWidth 16, len := (v >>> 16).setWidth 13, irq := v.getLsbD 29, go := false } := by
  simp only [writeCmd, bit_toNat, hv, ofNat_fld, BitVec.ushiftRight_zero, Bool.not_false, true_or, if_true, Bool.false_and]
  exact modPort_congr (by simp [hr])

theorem writeCmd_of_list (hv : v.getLsbD 63 = true) (hop : v.setWidth 16 = 0x10#16) :
    writeCmd o v.toNat s = modPort s o fun q =>
      { q with opcode := 0x10, len := (v >>> 16).setWidth 13, irq := v.getLsbD 29, go := true, reading := true } := by
  have hf : fld v.toNat 0 16 = 0x10 := by rw [← toNat_setWidth_eq_fld, hop]; rfl
  simp only [writeCmd, bit_toNat, hv, hf, ofNat_fld, decide_true, Bool.and_self, or_true, if_true]
  rfl

/-- A served command runs from the port's registers alone. -/
theorem goMail_of_serves {op : Nat} {host : Option (List Unit512)} (h : mailServes s = true) :
    goMail op m host s = runMail m.port host s := if_pos h

theorem writeCmd_of_serves (hr : (getPort s o).reading = false) (hv : v.getLsbD 63 = true)
    (hop : fld v.toNat 0 16 ≠ 0x10) (hs : mailServes s = true) : writeCmd o v.toNat s =
      runMail o none (modPort s o (cmdStarted (fld v.toNat 0 16) (cmdOfWord o v))) := by
  simp only [writeCmd, bit_toNat, hv, hop, Bool.not_true, Bool.false_eq_true, or_self, if_false]
  refine (goMail_of_serves (by exact hs)).trans (congrArg (runMail o none) ?_)
  exact modPort_congr (by simp [cmdStarted, cmdOfWord, hr])

theorem mailCommand_of_serves {op : Nat} (hu : (getPort s m.port).up = true) (hg : (getPort s m.port).go = false)
    (hr : (getPort s m.port).reading = false) (hq : m.req = []) (hs : mailServes s = true) :
    mailCommand op m none s = .next (runMail m.port none (modPort s m.port (cmdStarted op m))) := by
  simp only [mailCommand, hu, hg, hr, Bool.not_true, Bool.false_eq_true, or_self, if_false]
  refine congrArg _ ((goMail_of_serves (by exact hs)).trans (congrArg (runMail m.port none) ?_))
  exact modPort_congr (by simp [cmdStarted, hq, putRequest])

/-- A word that starts a command other than SUBMIT_LIST does what the command of its opcode does. -/
theorem exec_registerWrite_eq_mailCommand (hu : (getPort s o).up = true) (hg : (getPort s o).go = false)
    (hr : (getPort s o).reading = false) (hv : v.getLsbD 63 = true) (hop : fld v.toNat 0 16 ≠ 0x10)
    (hs : mailServes s = true) : exec (.registerWrite o 0x10000 v) s =
      mailCommand (fld v.toNat 0 16) (cmdOfWord o v) none s := by
  rw [exec_registerWrite_cmd hu hg, writeCmd_of_serves hr hv hop hs]
  exact (mailCommand_of_serves (m := cmdOfWord o v) hu hg hr rfl hs).symm

/-- Each command of Tables 12.9 and 14.6 is the mailbox command of its opcode. -/
theorem exec_mailRow {r : (MailCmd → Instr) × Nat} (h : r ∈ mailRows none) : exec (r.1 m) s = mailCommand r.2 m none s := by
  simp only [mailRows, List.mem_cons, List.not_mem_nil, or_false] at h
  rcases h with rfl | rfl | rfl | rfl | rfl | rfl | rfl | rfl | rfl | rfl | rfl | rfl | rfl | rfl | rfl | rfl | rfl <;> rfl

theorem mem_mailOpcodes {op : Nat} (h : op ∈ mailOpcodes) : op ∈ (mailRows none).map (·.2) := by
  revert op
  decide

theorem opcodeStrange_of_no_row {n op : Nat} (h : op ∉ (mailRows none).map (·.2)) : opcodeStrange s n op = true := by
  have hm : op ∉ mailOpcodes := fun v => h (mem_mailOpcodes v)
  have hr : op ∉ recOpcodes := by
    intro v
    revert h
    fin_cases v <;> decide
  have ha : op ≠ 0x01 ∧ op ≠ 0x40 := ⟨by rintro rfl; exact h (by decide), by rintro rfl; exact h (by decide)⟩
  unfold opcodeStrange opcodeKnown
  split <;> simp [hm, hr, ha]

theorem exec_unknownOpcode_of_no_row {op : BitVec 16} (h : op.toNat ∉ (mailRows none).map (·.2)) :
    exec (.unknownOpcode m op) s = mailCommand op.toNat m none s :=
  if_pos (opcodeStrange_of_no_row h)

/-! ### SGM_REQ (R341) -/

section
variable {bs new : List Byte} {ofs i j : Nat}

theorem getD_append_zeros {n : Nat} : (bs ++ List.replicate n 0#8).getD j 0 = bs.getD j 0 := by
  simp only [List.getD_eq_getElem?_getD, List.getElem?_append, List.getElem?_replicate]
  split_ifs with h1 h2
  · rfl
  · simp [List.getElem?_eq_none (Nat.le_of_not_lt h1)]
  · simp [List.getElem?_eq_none (Nat.le_of_not_lt h1)]

theorem getD_putBytes_inside (h : i < new.length) : (putBytes bs ofs new).getD (ofs + i) 0 = new.getD i 0 := by
  simp only [putBytes, List.getD_eq_getElem?_getD]
  rw [List.append_assoc, List.getElem?_append_right (by simp), List.getElem?_append_left (by simp; omega)]
  congr 2
  simp
  omega

theorem getD_putBytes_outside (h : j < ofs ∨ ofs + new.length ≤ j) : (putBytes bs ofs new).getD j 0 = bs.getD j 0 := by
  rw [← getD_append_zeros (bs := bs) (n := ofs + new.length - bs.length)]
  simp only [putBytes, List.getD_eq_getElem?_getD]
  congr 1
  rcases h with h | h
  · rw [List.append_assoc, List.getElem?_append_left (by simp; omega), List.getElem?_take_of_lt h]
  · rw [List.getElem?_append_right (by simp; omega), List.getElem?_drop]
    congr 1
    simp
    omega

end

theorem length_bytesLE (w n : Nat) : (bytesLE w n).length = n := by simp [bytesLE]

theorem getD_bytesLE {w n i : Nat} (h : i < n) : (bytesLE w n).getD i 0 = BitVec.ofNat 8 (elem w 8 i) := by
  simp [bytesLE, elem, h]

/-- The eight bytes at an offset of SGM_REQ are those of the word; nothing else of the device changes. -/
theorem registerWrite_req_bytes (w : mwf {} s.ports = true) (hu : (getPort s o).up = true) (ha : off % 8 = 0)
    (hg : (getPort s o).go = false) (hl : 0x11000 ≤ off) (hh : off < 0x12000) :
    ∃ s', exec (.registerWrite o off v) s = .next s' ∧ s' = { s with ports := s'.ports } ∧
      (∀ k, k ≠ o.val → getPort s' k = getPort s k) ∧
      getPort s' o = { getPort s o with req := (getPort s' o).req } ∧
      (∀ i < 8, (getPort s' o).req.getD (off - 0x11000 + i) 0 = BitVec.ofNat 8 (elem v.toNat 8 i)) ∧
      ∀ j, j < off - 0x11000 ∨ off - 0x11000 + 8 ≤ j → (getPort s' o).req.getD j 0 = (getPort s o).req.getD j 0 := by
  refine ⟨_, exec_registerWrite_req hu ha hg hl hh, rfl, fun k hk => getPort_modPort_ne w hk, ?_⟩
  have hq : getPort (modPort s o fun q => { q with req := putBytes q.req (off - 0x11000) (bytesLE v.toNat 8) }) o =
      { getPort s o with req := putBytes (getPort s o).req (off - 0x11000) (bytesLE v.toNat 8) } :=
    getPort_modPort_same w
  rw [hq]
  refine ⟨rfl, fun i hi => ?_, fun j hj => ?_⟩
  · exact (getD_putBytes_inside (by rwa [length_bytesLE])).trans (getD_bytesLE hi)
  · exact getD_putBytes_outside (by rwa [length_bytesLE])

/-! ### Key pairs (R349) -/

theorem exec_keyPairExpiry {k due : Nat} (h : (getPort s o).ek = some (k, due)) :
    exec (.keyPairExpiry o) s = .next { s with
      cycle := max s.cycle due, ports := mmod {} s.ports o fun q => { q with ek := none } } := by
  show execKeyPairExpiry o s = _
  rw [execKeyPairExpiry, h]
  simp [advanceTo, modPort]

end Sys2Proof.Machine

open Sys2Proof Sys2Proof.Machine

/-- Settles O53, a lemma for each command and each range of addresses. -/
theorem portCommands : Obligations.PortCommands := by
  intro s o q set
  refine ⟨fun a hu => congrArg _ (hostSend_of_up hu), fun k h => exec_ideEnable_refused h,
    fun base size ways hu => exec_hdmDecoderCommit hu, fun k hu hk => exec_ideEnable hu hk, fun p _ hp => ?_,
    fun off v hu ha => ⟨exec_registerWrite_kept hu ha, fun n hn hoff => ?_, fun hoff hg hr => ?_,
      fun hl hh hg w => registerWrite_req_bytes w hu ha hg hl hh, exec_registerWrite_ignored hu ha⟩,
    fun k due h => exec_keyPairExpiry h⟩
  case refine_1 =>
    show Host.Outcome.next (hostSend o (.cdat (portCdat s o)) s) = _
    rw [portCdat_of_part hp]
    rfl
  case refine_2 =>
    subst hoff
    rw [exec_registerWrite_control hu hn]
    refine ⟨fun h => ?_, fun h hp => ?_, fun h hp => ?_⟩
    · exact congrArg _ (modPort_congr (writeMsix_mask h))
    · exact congrArg _ (modPort_congr (writeMsix_unmask h hp))
    · exact congrArg _ (modPort_congr (writeMsix_unmask_pending hn h hp))
  case refine_3 =>
    subst hoff
    refine ⟨fun hv => ?_, fun hv hop => ?_, fun hv hs => ⟨fun r hrow hne hop => ?_, fun hno => ?_⟩⟩
    · rw [exec_registerWrite_cmd hu hg, writeCmd_of_go_clear hr hv]
      rfl
    · rw [exec_registerWrite_cmd hu hg, writeCmd_of_list hv hop]
      rfl
    · rw [exec_mailRow hrow, ← hop]
      exact exec_registerWrite_eq_mailCommand hu hg hr hv (hop ▸ hne) hs
    · have hne : fld v.toNat 0 16 ≠ 0x10 := fun h => hno (by rw [h]; decide)
      rw [exec_registerWrite_eq_mailCommand hu hg hr hv hne hs, ← toNat_setWidth_eq_fld]
      exact (exec_unknownOpcode_of_no_row (by rwa [toNat_setWidth_eq_fld])).symm
end

/-! ## What comes due at a tile, and its tab unit (R25, R28, R32) -/

section
namespace Sys2Proof.Machine

/-- The tab unit stands as it was, or it has halted. -/
def TabOrHalted (t t' : Tile) : Prop := t'.tab = t.tab ∨ t'.tab = { t.tab with st := .halted, delaying := false }

theorem TabOrHalted.refl (t : Tile) : TabOrHalted t t := .inl rfl

theorem TabOrHalted.trans {t t' t'' : Tile} (h : TabOrHalted t t') (h' : TabOrHalted t' t'') : TabOrHalted t t'' := by
  unfold TabOrHalted at *
  rcases h with h | h <;> rw [h] at h'
  · exact h'
  · exact .inr (h'.elim id id)

variable {core x y now : Nat} {t : Tile}

theorem haltIfRunning_tabOrHalted {c : EvCode} {a b : Nat} : TabOrHalted t (haltIfRunning core c a b t) := by
  unfold haltIfRunning
  split
  · exact .inr rfl
  · exact .inl rfl

theorem remoteAdd_tabOrHalted {id k : Nat} : TabOrHalted t (remoteAdd core id k t) := by
  unfold remoteAdd
  extract_lets sem cleared put
  split
  · exact .inl rfl
  · exact TabOrHalted.trans (.inl rfl) haltIfRunning_tabOrHalted

theorem advanceAcnt_tabOrHalted {i k : Nat} : TabOrHalted t (advanceAcnt core i k t) := by
  unfold advanceAcnt
  extract_lets a put
  split
  · split
    · exact haltIfRunning_tabOrHalted
    · exact .inl rfl
  · dsimp only
    split
    · exact .inl rfl
    · exact TabOrHalted.trans (.inl rfl) remoteAdd_tabOrHalted

theorem applyEnd_tabOrHalted {e : CycleEnd} : TabOrHalted t (applyEnd e t) := by
  unfold applyEnd
  dsimp only
  split <;> split
  · exact TabOrHalted.trans (.inl rfl) advanceAcnt_tabOrHalted
  · exact advanceAcnt_tabOrHalted
  · exact .inl rfl
  · exact .refl t

theorem settleEnds_tabOrHalted : TabOrHalted t (settleEnds now t) := by
  have fold : ∀ (l : List CycleEnd) (q : Tile), TabOrHalted q (l.foldl (fun t e => applyEnd e t) q) := by
    intro l
    induction l with
    | nil => exact .refl
    | cons e l ih => exact fun q => applyEnd_tabOrHalted.trans (ih _)
  exact TabOrHalted.trans (.inl rfl) (fold ..)

theorem settleStep_tabOrHalted : TabOrHalted t (settleStep now t) := by
  have done : ∀ c d p, TabOrHalted t (completeStep c d p t) := by
    intro c d p
    unfold completeStep
    refine TabOrHalted.trans (.inl ?_) remoteAdd_tabOrHalted
    split
    · exact bump_tab ..
    · rfl
  unfold settleStep
  split
  · exact .refl t
  · split
    · split
      · exact done ..
      · exact .refl t
    · exact .refl t

theorem settle_tabOrHalted : TabOrHalted t (settle core x y now t) :=
  settleEnds_tabOrHalted.trans (TabOrHalted.trans (.inl (settleFly_tab ..)) settleStep_tabOrHalted)

/-- A tile that runs at the start of its cycle met no halt: its tab unit is as it was. -/
theorem atStart_tab_of_running {s : State} {t : TileId} (h : (atStart s t).tab.st = .running) :
    (atStart s t).tab = (tileOf s t).tab := by
  rcases settle_tabOrHalted with hs | hs
  · exact hs
  · rw [atStart, hs] at h
    cases h

end Sys2Proof.Machine
end

/-! ## The device after a firing, and the control operations (R24, R26, R31, R278) -/

section
namespace Sys2Proof.Machine

/-! ### The device after a firing -/

variable {s : State} {t : TileId} {u : Upset} {e : TabEntry} {sel : TabEntry → Bool}

/-- Tiles that agree but for the tokens owed to them. -/
theorem eq_outst_of_proj {a b : Tile}
    (h : ∀ (α : Type) (p : Tile → α), (∀ t o, p { t with fret := { t.fret with outst := o } } = p t) → p a = p b) :
    a = { b with fret := { b.fret with outst := a.fret.outst } } := by
  have hab := h Tile (fun t => { t with fret := { t.fret with outst := [] } }) fun _ _ => rfl
  exact congrArg (fun q : Tile => { q with fret := { q.fret with outst := a.fret.outst } }) hab

/-- A tab command whose entry fires: the tile stands as the fired tile does, every other tile as it stood, each but for the
tokens owed to it. -/
theorem tabCommand_fires_outst (h : Fires s t u e) (hs : sel e = true) :
    ∃ s' o, tabCommand sel t u s = .next s' ∧ s' = { s with tiles := s'.tiles, cycle := startCore s t } ∧
      tileOf s' t = { firedTile s t u e with fret := { (firedTile s t u e).fret with outst := o } } ∧
      ∀ x y, tileKey x y ≠ tileKey t.x t.y →
        ∃ o, getTile s' x y = { getTile s x y with fret := { (getTile s x y).fret with outst := o } } := by
  obtain ⟨s', hn, honly, -, htile, hother⟩ := tabCommand_fires_tile h hs
  exact ⟨s', _, hn, honly, eq_outst_of_proj htile, fun x y hk => ⟨_, eq_outst_of_proj (hother x y hk)⟩⟩

/-! ### Control (Table 1.3) -/

/-- Control writes PC, STATE, the loop counters, DELAY, the END cycle and TAB_PLAN; the rest of the tab unit stands. -/
theorem applyCtl_tab_frame (q : Tile) (e : TabEntry) : (applyCtl q e).tab = { q.tab with
    pc := (applyCtl q e).tab.pc, st := (applyCtl q e).tab.st, lc := (applyCtl q e).tab.lc
    delaying := (applyCtl q e).tab.delaying, delayLeft := (applyCtl q e).tab.delayLeft
    endCycle := (applyCtl q e).tab.endCycle, plan := (applyCtl q e).tab.plan } := by
  unfold applyCtl
  dsimp only
  split
  case h_2 => split <;> rfl
  case h_4 => split <;> rfl
  all_goals rfl

theorem ofNat_pc_succ (pc : BitVec 10) : BitVec.ofNat 10 (pc.toNat + 1) = pc + 1 := by
  apply BitVec.eq_of_toNat_eq
  simp

variable {q : Tile}

theorem applyCtl_next (h : eCtl e = 0) : (applyCtl q e).tab = { q.tab with pc := q.tab.pc + 1 } := by
  simp [applyCtl, h, ofNat_pc_succ]

theorem applyCtl_setlc (h : eCtl e = 1) : (applyCtl q e).tab = { q.tab with
    pc := q.tab.pc + 1
    lc := mset 0 q.tab.lc (eLcsel e) (BitVec.ofNat 17 (if eCimm e = 0 then 65536 else eCimm e)) } := by
  simp [applyCtl, h, ofNat_pc_succ]

/-- LOOP with its counter at 0 falls through. -/
theorem applyCtl_loop_zero (h : eCtl e = 2) (hl : lcVal q e = 0) :
    (applyCtl q e).tab = { q.tab with pc := q.tab.pc + 1 } := by
  simp [applyCtl, h, hl, ofNat_pc_succ]

theorem applyCtl_loop (h : eCtl e = 2) (hl : lcVal q e ≠ 0) : (applyCtl q e).tab = { q.tab with
    pc := if lcVal q e = 1 then q.tab.pc + 1 else BitVec.ofNat 10 (eTarget e)
    lc := mset 0 q.tab.lc (eLcsel e) (BitVec.ofNat 17 (lcVal q e - 1)) } := by
  simp only [applyCtl, h, hl, if_false]
  split <;> simp [ofNat_pc_succ]

theorem applyCtl_jump (h : eCtl e = 3) : (applyCtl q e).tab = { q.tab with pc := BitVec.ofNat 10 (eTarget e) } := by
  simp [applyCtl, h]

theorem applyCtl_delay_zero (h : eCtl e = 4) (hc : eCimm e = 0) :
    (applyCtl q e).tab = { q.tab with pc := q.tab.pc + 1 } := by
  simp [applyCtl, h, hc, ofNat_pc_succ]

theorem applyCtl_delay (h : eCtl e = 4) (hc : eCimm e ≠ 0) :
    (applyCtl q e).tab = { q.tab with delaying := true, delayLeft := eCimm e } := by
  simp [applyCtl, h, hc]

theorem applyCtl_end (h : eCtl e = 5) : (applyCtl q e).tab = { q.tab with
    st := .ended, endCycle := q.tab.cycle - 1
    plan := planCompare { q with tab := { q.tab with endCycle := q.tab.cycle - 1 } } } := by
  simp only [applyCtl, h]
  rfl

theorem packFields_one_testBit (l : List (Nat × Nat)) : (packFields ((1, 1) :: l)).testBit 0 = true := by
  rw [Nat.testBit_zero, packFields, Nat.shiftLeft_eq, decide_eq_true_eq]
  omega

/-- TAB_PLAN after a comparison has DONE set, or is SATSKIP alone. -/
theorem planCompare_done (q : Tile) : (planCompare q).getLsbD 0 = true ∨ planCompare q = 0x20 := by
  unfold planCompare
  extract_lets f i s
  dsimp only
  split
  · exact .inr rfl
  · left
    rw [BitVec.getLsbD_ofNat, packFields_one_testBit]
    rfl

end Sys2Proof.Machine
end

/-! ## Firing counts, control flow and the end of a DELAY (R21-R44) -/

section
namespace Sys2Proof.Machine

variable {s : State} {t : TileId} {u : Upset} {e : TabEntry} {sel : TabEntry → Bool}

/-! ### The tab unit after a firing -/

/-- The tile that control finds after the effects of an entry: its cycle is counted and its watchdog reset; PC, STATE, the
loop counters and DELAY are those of the start of the cycle. -/
structure Counted (s : State) (t : TileId) (q : Tile) : Prop where
  pc : q.tab.pc = (atStart s t).tab.pc
  lc : q.tab.lc = (atStart s t).tab.lc
  st : q.tab.st = (atStart s t).tab.st
  delaying : q.tab.delaying = (atStart s t).tab.delaying
  cycle : q.tab.cycle = (atStart s t).tab.cycle + 1
  tc : q.tab.tc = (tileOf s t).tab.tc + 1
  nextCore : q.tab.nextCore = startCore s t + (if (envOf s t).stretched then 2 else 1)
  wdCount : q.tab.wdCount = 0
  wdTripped : q.tab.wdTripped = false
  wdProgress : q.tab.wdProgress = true

/-- A fired tile is control run on a tile whose cycle is counted. -/
theorem firedTile_counted (s : State) (t : TileId) (u : Upset) (e : TabEntry) :
    ∃ q, firedTile s t u e = applyCtl q e ∧ Counted s t q := by
  obtain ⟨q, hq, hc⟩ := tabCore_fireTile (envOf s t) u e (atStart s t)
  have field : ∀ {α : Type} (p : TabUnit → α), p (tabCore q) = p _ := fun p => congrArg p hc
  have htc : (atStart s t).tab.tc = (tileOf s t).tab.tc := by rw [atStart_tab]
  exact ⟨q, hq, ⟨field (·.pc), field (·.lc), field (·.st), field (·.delaying), field (·.cycle),
    htc ▸ field (·.tc), field (·.nextCore), field (·.wdCount), field (·.wdTripped), field (·.wdProgress)⟩⟩

/-- A tile whose entry fires was past its DELAY. -/
theorem Fires.delaying (h : Fires s t u e) : (atStart s t).tab.delaying = false := by
  have hi := h.issues
  simp only [issuing, Bool.and_eq_true, Bool.not_eq_true'] at hi
  rw [atStart_tab_of_running h.on.running]
  exact hi.2

/-- The tab unit after a firing command is what control leaves of a counted one. -/
theorem tabCommand_fires_counted (h : Fires s t u e) (hs : sel e = true) :
    ∃ s' q, tabCommand sel t u s = .next s' ∧ (tileOf s' t).tab = (applyCtl q e).tab ∧ Counted s t q := by
  obtain ⟨s', o, hn, -, htile, -⟩ := tabCommand_fires_outst (sel := sel) h hs
  obtain ⟨q, hq, hc⟩ := firedTile_counted s t u e
  exact ⟨s', q, hn, by rw [htile, hq], hc⟩

/-! ### The control operations -/

theorem eTarget_lt (e : TabEntry) : eTarget e < 2 ^ 10 := Nat.mod_lt _ (by decide)

/-- The count that SETLC loads fits its 17 bits. -/
theorem setlc_toNat (e : TabEntry) :
    (BitVec.ofNat 17 (if eCimm e = 0 then 65536 else eCimm e)).toNat = if eCimm e = 0 then 65536 else eCimm e := by
  have : eCimm e < 2 ^ 16 := Nat.mod_lt _ (by decide)
  rw [BitVec.toNat_ofNat, Nat.mod_eq_of_lt]
  split <;> omega

/-- LOOP as Table 1.3 states it: a counter at 0 counts as one that has reached it. -/
theorem applyCtl_loop_spec {q : Tile} (h : eCtl e = 2) (w : mwf 0 q.tab.lc = true) :
    let l := (mget 0 q.tab.lc (eLcsel e)).toNat
    (mget 0 (applyCtl q e).tab.lc (eLcsel e)).toNat = l - 1 ∧
    (applyCtl q e).tab.pc = (if l ≤ 1 then q.tab.pc + 1 else BitVec.ofNat 10 (eTarget e)) ∧
    ∀ k, k ≠ eLcsel e → mget 0 (applyCtl q e).tab.lc k = mget 0 q.tab.lc k := by
  intro l
  by_cases hl : lcVal q e = 0
  · have h0 : l = 0 := hl
    rw [applyCtl_loop_zero h hl, h0]
    exact ⟨h0, rfl, fun _ _ => rfl⟩
  · have hlt : l < 2 ^ 17 := BitVec.isLt _
    rw [applyCtl_loop h hl]
    refine ⟨?_, ?_, fun k hk => mget_mset_ne w hk⟩
    · rw [mget_mset w, BitVec.toNat_ofNat]
      exact Nat.mod_eq_of_lt (by show l - 1 < _; omega)
    · have h0 : l ≠ 0 := hl
      show (if l = 1 then _ else _) = _
      by_cases h1 : l = 1
      · rw [if_pos h1, if_pos (by omega)]
      · rw [if_neg h1, if_neg (by omega)]

theorem controlOperations : ControlOperations := by
  intro s t u e h w pre n
  have run : ∀ k, eCtl e = k → ∃ s' q, tabCommand (fun e => decide (eCtl e = k)) t u s = .next s' ∧
      (tileOf s' t).tab = (applyCtl q e).tab ∧ Counted s t q :=
    fun k hk => tabCommand_fires_counted h (decide_eq_true hk)
  refine ⟨fun hk => ?_, fun hk => ?_, fun hk => ?_, fun hk => ?_, fun hk => ?_, fun hk => ?_⟩ <;>
    obtain ⟨s', q, hn, htab, hc⟩ := run _ hk <;>
    refine ⟨s', hn, ?_⟩ <;> rw [htab]
  case refine_1 =>
    rw [applyCtl_next hk]
    exact ⟨congrArg (· + 1) hc.pc, hc.lc, hc.st.trans h.on.running, hc.delaying.trans h.delaying⟩
  case refine_2 =>
    rw [applyCtl_setlc hk, hc.pc, hc.lc]
    exact ⟨rfl, by rw [mget_mset w, setlc_toNat], fun k hk => mget_mset_ne w hk⟩
  case refine_3 =>
    have := applyCtl_loop_spec hk (hc.lc ▸ w)
    rwa [hc.pc, hc.lc] at this
  case refine_4 =>
    rw [applyCtl_jump hk]
    exact ⟨by rw [BitVec.toNat_ofNat, Nat.mod_eq_of_lt (eTarget_lt e)], hc.lc⟩
  case refine_5 =>
    by_cases h0 : eCimm e = 0
    · rw [applyCtl_delay_zero hk h0, if_pos h0]
      exact ⟨hc.lc, congrArg (· + 1) hc.pc, hc.delaying.trans h.delaying⟩
    · rw [applyCtl_delay hk h0, if_neg h0]
      exact ⟨hc.lc, hc.pc, rfl, rfl⟩
  case refine_6 =>
    rw [applyCtl_end hk, hc.cycle]
    exact ⟨rfl, add_sub_cancel_right .., planCompare_done _, hc.pc⟩

/-! ### The end of a DELAY (R31) -/

/-- Without stretched spans the idle cycles run off in one stretch. -/
theorem runIdle_nil {limit core left : Nat} (h : left ≠ 0) (hl : core + left ≤ limit) :
    runIdle [] limit 2 core left 0 = (0, 0, core + left) := by
  have hn : min left (limit - core) = left := by omega
  simp [runIdle, h, show ¬ limit ≤ core by omega, hn]

theorem ctrVal_bump {core n : Nat} {c : TileCtr} {q : Tile} (w : mwf 0 q.ctr = true) :
    ctrVal (bump core c n q) c = min (ctrVal q c + n) ctrMax := by
  rw [ctrVal, bump_ctr, mget_mset w]

theorem ctrVal_bump_ne {core n : Nat} {c c' : TileCtr} {q : Tile} (w : mwf 0 q.ctr = true)
    (h : ctrOffset c' ≠ ctrOffset c) : ctrVal (bump core c n q) c' = ctrVal q c' := by
  rw [ctrVal, bump_ctr, mget_mset_ne w h, ctrVal]

theorem ctrVal_congr {a b : Tile} {c : TileCtr} (h : a.ctr = b.ctr) : ctrVal a c = ctrVal b c := by rw [ctrVal, h, ctrVal]

theorem bump_wf {core n : Nat} {c : TileCtr} {q : Tile} (w : mwf 0 q.ctr = true) : mwf 0 (bump core c n q).ctr = true := by
  rw [bump_ctr]
  exact mwf_mset w

/-- What idle cycles without a stretched one count: themselves, no slip, and the cycles of the engines' clocks (R35, R39). -/
def countIdle (core n on son : Nat) (q : Tile) : Tile :=
  bump core .idle n (bump core .slipTotal 0 (bump core (.slip 6) 0 (bump core .arrayOn on (bump core .sparseOn son q))))

theorem countIdle_ctr {core n on son : Nat} {q : Tile} (tb : TabUnit) (w : mwf 0 q.ctr = true) :
    ctrVal { countIdle core n on son q with tab := tb } .idle = min (ctrVal q .idle + n) ctrMax ∧
    ctrVal { countIdle core n on son q with tab := tb } .slipTotal = min (ctrVal q .slipTotal) ctrMax := by
  have hc : ∀ c, ctrVal { countIdle core n on son q with tab := tb } c = ctrVal (countIdle core n on son q) c :=
    fun c => ctrVal_congr rfl
  have w2 := bump_wf (core := core) (n := on) (c := .arrayOn) (bump_wf (core := core) (n := son) (c := .sparseOn) w)
  have w3 := bump_wf (core := core) (n := 0) (c := .slip 6) w2
  constructor
  · rw [hc, countIdle, ctrVal_bump (bump_wf w3), ctrVal_bump_ne w3 (by decide), ctrVal_bump_ne w2 (by decide),
      ctrVal_bump_ne (bump_wf w) (by decide), ctrVal_bump_ne w (by decide)]
  · rw [hc, countIdle, ctrVal_bump_ne (bump_wf w3) (by decide), ctrVal_bump w3, ctrVal_bump_ne w2 (by decide),
      ctrVal_bump_ne (bump_wf w) (by decide), ctrVal_bump_ne w (by decide), Nat.add_zero]

/-- A reading that looks at no counter and no event. -/
theorem bump_proj {α : Sort*} (p : Tile → α) (hp : ∀ q c v, p { q with ctr := c, ev := v } = p q) {core : Nat}
    {q : Tile} (c : TileCtr) (n : Nat) : p (bump core c n q) = p q := by
  unfold bump
  dsimp only
  split
  · exact hp q _ _
  · exact hp q _ q.ev

theorem countIdle_proj {α : Sort*} (p : Tile → α) (hp : ∀ q c v, p { q with ctr := c, ev := v } = p q)
    {core n on son : Nat} {q : Tile} : p (countIdle core n on son q) = p q := by
  simp only [countIdle, bump_proj p hp]

/-- The tile once a DELAY has run out among no stretched cycles. -/
def delayEnd (q : Tile) : Tile := idleUntil [] (q.tab.nextCore + 2 * q.tab.delayLeft + 2) q

/-- A DELAY that runs out among no stretched cycles: what it leaves of the tab unit, of the counts and of the rest. -/
theorem delayEnd_eq {q : Tile} (h : q.tab.delayLeft ≠ 0) :
    ∃ core on son tb, delayEnd q = { countIdle core q.tab.delayLeft on son q with tab := tb } ∧
      tb.delaying = false ∧ tb.delayLeft = 0 ∧ tb.pc = q.tab.pc + 1 ∧
      tb.cycle = q.tab.cycle + BitVec.ofNat 64 q.tab.delayLeft ∧
      tb.nextCore = q.tab.nextCore + q.tab.delayLeft := by
  have hl : q.tab.nextCore + q.tab.delayLeft ≤ q.tab.nextCore + 2 * q.tab.delayLeft + 2 := by omega
  simp only [delayEnd, idleUntil, List.length_nil, Nat.mul_zero, Nat.zero_add, runIdle_nil h hl, Nat.sub_zero,
    Nat.add_zero]
  exact ⟨_, _, _, _, rfl, by simp⟩

theorem tileOf_setTile {c : Nat} {q : Tile} (w : mwf {} s.tiles = true) :
    tileOf (setTile (advanceTo s c) t.x t.y q) t = q := getTile_setTile (s := advanceTo s c) _ _ _ w

theorem exec_delayExpiry (ht : tileExists s t = true) (hst : (tileOf s t).tab.st = .running)
    (hd : (tileOf s t).tab.delaying = true) (hsp : spansOf s (tilePlace s t.x t.y).1 (tilePlace s t.x t.y).2 = []) :
    exec (.delayExpiry t) s = .next
      (setTile (advanceTo s ((delayEnd (tileOf s t)).tab.nextCore - 1)) t.x t.y (delayEnd (tileOf s t))) := by
  show execDelayExpiry t s = _
  unfold execDelayExpiry onTile
  rw [if_pos ht]
  dsimp only
  rw [if_pos ⟨hst, hd⟩, hsp]
  rfl

theorem delayRunsOut : DelayRunsOut := by
  intro s t ht w hst hd h0 wc hsp
  refine ⟨_, exec_delayExpiry ht hst hd hsp, ?_⟩
  rw [tileOf_setTile w]
  obtain ⟨core, on, son, tb, hidle, hdel, hleft, hpc, hcyc, hnext⟩ := delayEnd_eq h0
  generalize tileOf s t = pre at *
  have keep : ∀ {α : Type} (p : Tile → α), (∀ q c v b, p { q with ctr := c, ev := v, tab := b } = p q) →
      p { countIdle core pre.tab.delayLeft on son pre with tab := tb } = p pre :=
    fun p hp => (hp _ _ _ tb).trans (countIdle_proj p fun q c v => hp q c v q.tab)
  obtain ⟨hi, hs⟩ := countIdle_ctr (core := core) (n := pre.tab.delayLeft) (on := on) (son := son) tb wc
  rw [hidle]
  exact ⟨hdel, hleft, hpc, hcyc, hnext, hi, hs, keep (·.mu) fun _ _ _ _ => rfl, keep (·.fret) fun _ _ _ _ => rfl,
    keep (·.arr) fun _ _ _ _ => rfl, keep (·.sp) fun _ _ _ _ => rfl, keep (·.fly) fun _ _ _ _ => rfl⟩

end Sys2Proof.Machine

open Sys2Proof Sys2Proof.Machine

/-- Settles O10: an equation of control for each operation, and the idle cycles of a DELAY in one stretch. -/
theorem controlFlow : Obligations.ControlFlow := ⟨controlOperations, delayRunsOut⟩

/-- Settles O5: control leaves the counts of a counted tile, and the tokens given back are all that other tiles see. -/
theorem tabEntryFires : Obligations.TabEntryFires := by
  intro row hr s t u e h he hm
  obtain ⟨s', o, hn, honly, htile, hother⟩ := tabCommand_fires_outst (sel := row.2) h he
  obtain ⟨q, hq, hc⟩ := firedTile_counted s t u e
  have htab : (tileOf s' t).tab = (applyCtl q e).tab := by rw [htile, hq]
  rw [applyCtl_tab_frame] at htab
  refine ⟨s', (exec_tabRows row hr t u s).trans hn, ?_, ?_, ?_, ?_, ?_, ?_, ?_, honly, hother⟩
  · rw [htile]
    exact fireTile_count ⟨hm, rfl⟩ ..
  all_goals rw [htab]
  · exact hc.cycle
  · exact hc.tc
  · exact hc.nextCore
  · exact hc.wdCount
  · exact hc.wdTripped
  · exact hc.wdProgress
end

/-! ## Semaphores and ports of a firing entry (R23, R26, R28, R155, R156) -/

section
namespace Sys2Proof.Machine

variable {s : State} {t : TileId} {u : Upset} {e : TabEntry} {sel : TabEntry → Bool} {env : TileEnv} {q : Tile}

/-! ### The memory unit through a firing -/

theorem mu_off : OffUnits fun t : Tile => t.mu := ⟨fun _ _ => rfl, fun _ _ _ _ _ _ => rfl, fun _ _ => rfl⟩

theorem srxValid_off : OffUnits fun t : Tile => t.tab.srxValid :=
  ⟨fun _ _ => rfl, fun _ _ _ _ _ _ => rfl, fun _ _ => rfl⟩

@[simp] theorem bump_mu (core : Nat) (c : TileCtr) (n : Nat) (q : Tile) : (bump core c n q).mu = q.mu := mu_off.bump ..

/-- END closes the open queues and keeps their flits. -/
theorem closedQueues_flits {m : SMap Queue} (w : mwf {} m = true) (l : List Nat) (k : Nat) :
    (mget {} (l.foldl (fun m k => mmod {} m k fun q => if q.st = .open_ then { q with st := .closed } else q) m) k).flits =
      (mget {} m k).flits := by
  induction l generalizing m with
  | nil => rfl
  | cons j l ih =>
    rw [List.foldl_cons, ih (mwf_mmod w)]
    by_cases hk : k = j
    · subst hk
      rw [mget_mmod w]
      split <;> rfl
    · rw [mget_mmod_ne w hk]

/-- Control leaves the memory unit but for the states of the queues. -/
theorem applyCtl_mu (q : Tile) (e : TabEntry) : ∃ m, (applyCtl q e).mu = { q.mu with queues := m } ∧
    (mwf {} q.mu.queues = true → ∀ k, (mget {} m k).flits = (mget {} q.mu.queues k).flits) := by
  unfold applyCtl
  dsimp only
  split
  case h_2 => split <;> exact ⟨_, rfl, fun _ _ => rfl⟩
  case h_4 => split <;> exact ⟨_, rfl, fun _ _ => rfl⟩
  case h_5 => exact ⟨_, rfl, fun w => closedQueues_flits w _⟩
  all_goals exact ⟨_, rfl, fun _ _ => rfl⟩

theorem applyCtl_sems (q : Tile) (e : TabEntry) : (applyCtl q e).mu.sems = q.mu.sems := by
  obtain ⟨m, hm, -⟩ := applyCtl_mu q e
  rw [hm]

/-! ### Pops (R23) -/

theorem mem_popList {n : Nat} : n ∈ popList e ↔ (eSrca e = n ∧ ePopa e = true) ∨ (eSrcb e = n ∧ ePopb e = true) := by
  unfold popList
  by_cases hab : eSrca e = eSrcb e <;> cases ha : ePopa e <;> cases hb : ePopb e <;> simp [hab, eq_comm]

/-- A source that both operands name is popped once. -/
theorem nodup_popList (e : TabEntry) : (popList e).Nodup := by
  unfold popList
  by_cases hab : eSrca e = eSrcb e <;> cases ha : ePopa e <;> cases hb : ePopb e <;> simp [hab]

variable {free : Nat}

theorem popSrc_mu (free : Nat) (q : Tile) (n : Nat) :
    (popSrc free q n).mu = { q.mu with queues := (popSrc free q n).mu.queues } := by
  unfold popSrc
  split
  · rfl
  · split <;> rfl

theorem popSrc_queues {n : Nat} (h : n ≥ 8) : (popSrc free q n).mu.queues =
    mmod {} q.mu.queues (n - 8) fun x => { x with flits := x.flits.tail, popAt := free } := by
  rw [popSrc, if_pos h]

theorem popSrc_queues_of_lt {n : Nat} (h : ¬ n ≥ 8) : (popSrc free q n).mu.queues = q.mu.queues := by
  rw [popSrc, if_neg h]
  split <;> rfl

theorem popSrc_queues_wf (n : Nat) (w : mwf {} q.mu.queues = true) : mwf {} (popSrc free q n).mu.queues = true := by
  by_cases h8 : n ≥ 8
  · rw [popSrc_queues h8]
    exact mwf_mmod w
  · rwa [popSrc_queues_of_lt h8]

theorem popSrc_flits (n k : Nat) (w : mwf {} q.mu.queues = true) :
    (mget {} (popSrc free q n).mu.queues k).flits =
      if n = 8 + k then (mget {} q.mu.queues k).flits.tail else (mget {} q.mu.queues k).flits := by
  by_cases h8 : n ≥ 8
  · rw [popSrc_queues h8]
    by_cases hk : n = 8 + k
    · rw [if_pos hk, show n - 8 = k by omega, mget_mmod w]
    · rw [if_neg hk, mget_mmod_ne w (by omega)]
  · rw [popSrc_queues_of_lt h8, if_neg (by omega)]

theorem popSrc_srxValid (n : Nat) : (popSrc free q n).tab.srxValid = (q.tab.srxValid && !decide (n = 2)) := by
  unfold popSrc
  by_cases h8 : n ≥ 8
  · simp [h8, show n ≠ 2 by omega]
  · by_cases h2 : n = 2 <;> simp [h8, h2]

theorem pops_mu (free : Nat) (l : List Nat) (q : Tile) :
    (l.foldl (popSrc free) q).mu = { q.mu with queues := (l.foldl (popSrc free) q).mu.queues } := by
  induction l generalizing q with
  | nil => rfl
  | cons n l ih =>
    rw [List.foldl_cons, ih, popSrc_mu]

theorem pops_queues_wf (l : List Nat) (w : mwf {} q.mu.queues = true) :
    mwf {} (l.foldl (popSrc free) q).mu.queues = true := by
  induction l generalizing q with
  | nil => exact w
  | cons n l ih => exact ih (popSrc_queues_wf n w)

theorem pops_flits {l : List Nat} (k : Nat) (hl : l.Nodup) (w : mwf {} q.mu.queues = true) :
    (mget {} (l.foldl (popSrc free) q).mu.queues k).flits =
      if 8 + k ∈ l then (mget {} q.mu.queues k).flits.tail else (mget {} q.mu.queues k).flits := by
  induction l generalizing q with
  | nil => simp
  | cons n l ih =>
    obtain ⟨hn, hl⟩ := List.nodup_cons.mp hl
    rw [List.foldl_cons, ih hl (popSrc_queues_wf n w), popSrc_flits n k w]
    by_cases hk : n = 8 + k
    · subst hk
      simp [hn]
    · simp [hk, Ne.symm hk]

theorem pops_srxValid (l : List Nat) :
    (l.foldl (popSrc free) q).tab.srxValid = (q.tab.srxValid && !decide (2 ∈ l)) := by
  induction l generalizing q with
  | nil => simp
  | cons n l ih =>
    rw [List.foldl_cons, ih, popSrc_srxValid]
    by_cases h2 : n = 2 <;> simp [h2, eq_comm]

/-! ### What follows the unit -/

variable {slots : List Nat} {g : AddrGen}

theorem afterUnit_ag0 : (afterUnit env e slots g q).mu.ag0 = agStep q.mu.ag0 (eRdop e) := by
  show agStep (((popList e).foldl (popSrc _) (applyTags q e slots)).mu.ag0) (eRdop e) = _
  rw [pops_mu]
  rfl

theorem afterUnit_ag1 : (afterUnit env e slots g q).mu.ag1 = g := rfl

theorem afterUnit_slots : (afterUnit env e slots g q).mu.slots = (applyTags q e slots).mu.slots := by
  show ((popList e).foldl (popSrc _) (applyTags q e slots)).mu.slots = _
  rw [pops_mu]

theorem afterUnit_queues_wf (w : mwf {} q.mu.queues = true) : mwf {} (afterUnit env e slots g q).mu.queues = true :=
  pops_queues_wf (q := applyTags q e slots) _ w

theorem afterUnit_flits (k : Nat) (w : mwf {} q.mu.queues = true) :
    (mget {} (afterUnit env e slots g q).mu.queues k).flits =
      if (eSrca e = 8 + k ∧ ePopa e) ∨ (eSrcb e = 8 + k ∧ ePopb e)
        then (mget {} q.mu.queues k).flits.tail else (mget {} q.mu.queues k).flits := by
  simp only [← mem_popList]
  exact pops_flits (q := applyTags q e slots) k (nodup_popList e) w

theorem afterUnit_srxValid : (afterUnit env e slots g q).tab.srxValid =
    (q.tab.srxValid && !((eSrca e = 2 && ePopa e) || (eSrcb e = 2 && ePopb e))) := by
  have hm : decide (2 ∈ popList e) = ((eSrca e = 2 && ePopa e) || (eSrcb e = 2 && ePopb e)) := by
    rw [Bool.eq_iff_iff]
    simp [mem_popList]
  rw [← hm]
  exact pops_srxValid (q := applyTags q e slots) (popList e)

/-- The tags after an entry that writes no slot: a read with RDTAG 2 empties its own. -/
theorem applyTags_full (i : Nat) (w : mwf {} q.mu.slots = true) :
    (mget {} (applyTags q e []).mu.slots i).full =
      ((mget {} q.mu.slots i).full && !(eRdop e != 0 && eRdtag e == 2 && i == readSlot q e)) := by
  have hm : (applyTags q e []).mu.slots = if eRdop e ≠ 0 ∧ eRdtag e = 2
      then mmod {} q.mu.slots (readSlot q e) (fun o => { o with full := false }) else q.mu.slots := by
    simp only [applyTags, List.foldl_nil, ite_self]
  rw [hm]
  by_cases hr : eRdop e ≠ 0 ∧ eRdtag e = 2
  · rw [if_pos hr]
    by_cases hi : i = readSlot q e
    · rw [hi, mget_mmod w]
      simp [hr]
    · rw [mget_mmod_ne w hi]
      simp [hi]
  · rw [if_neg hr]
    by_cases h0 : eRdop e = 0
    · simp [h0]
    · simp [show eRdtag e ≠ 2 from fun h2 => hr ⟨h0, h2⟩]

/-! ### From the start of the cycle to the unit -/

/-- An upset poisons a slot at most. -/
theorem upsetTile_slots (env : TileEnv) (u : Upset) (e : TabEntry) (q : Tile) (w : mwf {} q.mu.slots = true) :
    mwf {} (upsetTile env u e q).mu.slots = true ∧
      ∀ i, (mget {} (upsetTile env u e q).mu.slots i).full = (mget {} q.mu.slots i).full := by
  have hs : mwf {} (spadUpset env.core u.spad (readSlot q e) q).mu.slots = true ∧
      ∀ i, (mget {} (spadUpset env.core u.spad (readSlot q e) q).mu.slots i).full = (mget {} q.mu.slots i).full := by
    cases u.spad with
    | clean => exact ⟨w, fun _ => rfl⟩
    | single => exact ⟨w, fun _ => rfl⟩
    | double =>
      have hd : (spadUpset env.core .double (readSlot q e) q).mu.slots =
        mmod {} q.mu.slots (readSlot q e) fun o => { o with poison := true } := rfl
      rw [hd]
      refine ⟨mwf_mmod w, fun i => ?_⟩
      by_cases hi : i = readSlot q e
      · rw [hi, mget_mmod w]
      · rw [mget_mmod_ne w hi]
  have hm : (upsetTile env u e q).mu.slots =
      if eRdop e ≠ 0 then (spadUpset env.core u.spad (readSlot q e) q).mu.slots else q.mu.slots := by
    unfold upsetTile
    split_ifs <;> rfl
  rw [hm]
  split
  · exact hs
  · exact ⟨w, fun _ => rfl⟩

/-- The effects of an entry, from the tile its unit leaves: the memory unit there is that of the start of the cycle but for
the poison of a slot. -/
theorem fireEffects_afterUnit (env : TileEnv) (u : Upset) (e : TabEntry) (a b : Opd) (q : Tile) :
    ∃ r, fireEffects env u e a b q = afterUnit env e (unitSlots env e a b q) (unitTargets env e a b q).2 r ∧
      r.mu = { q.mu with slots := (upsetTile env u e q).mu.slots } ∧ r.tab.srxValid = q.tab.srxValid := by
  have hmu : (upsetTile env u e q).mu = { q.mu with slots := (upsetTile env u e q).mu.slots } :=
    have := upsetTile_proj (fun t => { t.mu with slots := [] }) (fun _ _ => rfl) (fun _ _ => rfl) env u e q
    congrArg (fun m : MemUnit => { m with slots := (upsetTile env u e q).mu.slots }) this
  refine ⟨unitFire env e a b (vecResult env e a b (upsetTile env u e q)) (unitSlots env e a b (upsetTile env u e q))
    (creditTile e (upsetTile env u e q)), ?_, (mu_off.unitFire ..).trans hmu, (srxValid_off.unitFire ..).trans ?_⟩
  · rw [← unitSlots_upset env u, ← unitTargets_upset env u]
    rfl
  · exact congrArg TabUnit.srxValid (upsetTile_tab env u e q)

/-! ### The fired tile -/

theorem readSlot_congr {p : Tile} (h : p.mu.ag0 = q.mu.ag0) : readSlot p e = readSlot q e := by
  rw [readSlot, h, readSlot]

/-- A fired tile is control run on a tile with the memory unit and the scalar register that the entry's effects leave. -/
theorem fireTile_effects (env : TileEnv) (u : Upset) (e : TabEntry) (q : Tile) :
    ∃ p a b, fireTile env u e q = applyCtl p e ∧ p.mu = (fireEffects env u e a b q).mu ∧
      p.tab.srxValid = (fireEffects env u e a b q).tab.srxValid :=
  ⟨_, _, _, rfl, by simp [countCycle]; rfl, by simp [countCycle]⟩

/-- The memory unit of a tile whose entry has fired (R23, R26, R156). -/
theorem fireTile_ports (env : TileEnv) (u : Upset) (e : TabEntry) (q : Tile) (wq : mwf {} q.mu.queues = true)
    (ws : mwf {} q.mu.slots = true) :
    (∀ k, (mget {} (fireTile env u e q).mu.queues k).flits =
      if (eSrca e = 8 + k ∧ ePopa e) ∨ (eSrcb e = 8 + k ∧ ePopb e)
        then (mget {} q.mu.queues k).flits.tail else (mget {} q.mu.queues k).flits) ∧
    (fireTile env u e q).tab.srxValid =
      (q.tab.srxValid && !((eSrca e = 2 && ePopa e) || (eSrcb e = 2 && ePopb e))) ∧
    (fireTile env u e q).mu.ag0 = agStep q.mu.ag0 (eRdop e) ∧
    (dstMu e = false → (fireTile env u e q).mu.ag1 = q.mu.ag1 ∧
      ∀ i, (mget {} (fireTile env u e q).mu.slots i).full =
        ((mget {} q.mu.slots i).full && !(eRdop e != 0 && eRdtag e == 2 && i == readSlot q e))) := by
  obtain ⟨p, a, b, hp, hpm, hpv⟩ := fireTile_effects env u e q
  obtain ⟨r, hr, hmu, hv⟩ := fireEffects_afterUnit env u e a b q
  obtain ⟨hws, hfull⟩ := upsetTile_slots env u e q ws
  have hrq : r.mu.queues = q.mu.queues := by rw [hmu]
  have hrg : r.mu.ag0 = q.mu.ag0 := by rw [hmu]
  have hrs : r.mu.slots = (upsetTile env u e q).mu.slots := by rw [hmu]
  rw [hr] at hpm hpv
  have hpq : mwf {} p.mu.queues = true := by
    rw [hpm]
    exact afterUnit_queues_wf (hrq ▸ wq)
  obtain ⟨m, hm, hfl⟩ := applyCtl_mu p e
  rw [hp, hm]
  refine ⟨fun k => ?_, ?_, ?_, fun hd => ⟨?_, fun i => ?_⟩⟩
  · rw [hfl hpq, hpm, afterUnit_flits k (hrq ▸ wq), hrq]
  · rw [applyCtl_tab_frame]
    exact hpv.trans (by rw [afterUnit_srxValid, hv])
  · exact (congrArg MemUnit.ag0 hpm).trans (by rw [afterUnit_ag0, hrg])
  · refine (congrArg MemUnit.ag1 hpm).trans (afterUnit_ag1.trans ?_)
    simp [unitTargets, writeTargets, hd]
  · have hs : unitSlots env e a b q = [] := by simp [unitSlots, unitTargets, writeTargets, hd]
    show (mget {} p.mu.slots i).full = _
    rw [hpm, afterUnit_slots, hs, applyTags_full i (hrs ▸ hws), hrs, hfull, readSlot_congr hrg]

/-! ### Semaphores (R28) -/

theorem fireTile_sems (env : TileEnv) (u : Upset) (e : TabEntry) (q : Tile) :
    (fireTile env u e q).mu.sems = semsAfter e q.mu.sems := by
  obtain ⟨p, a, b, hp, hpm, -⟩ := fireTile_effects env u e q
  rw [hp, applyCtl_sems, hpm]
  exact tileSems_fireEffects env u e a b q

/-- One addition or subtraction of an entry: a semaphore, what is added, what is taken. -/
def semPut (m : SMap Sem) (d : Nat × Nat × Nat) : SMap Sem :=
  mmod {} m d.1 fun x => { x with val := BitVec.ofNat 16 (x.val.toNat + d.2.1 - d.2.2) }

theorem semsAfter_eq_foldl (e : TabEntry) (m : SMap Sem) : semsAfter e m = (semDelta e).foldl semPut m := rfl

variable {m : SMap Sem} {d : Nat × Nat × Nat} {l : List (Nat × Nat × Nat)}

theorem semPut_wf (w : mwf {} m = true) : mwf {} (semPut m d) = true := mwf_mmod w

theorem mget_foldl_semPut_ne {i : Nat} (w : mwf {} m = true) (h : ∀ d ∈ l, d.1 ≠ i) :
    mget {} (l.foldl semPut m) i = mget {} m i := by
  induction l generalizing m with
  | nil => rfl
  | cons c l ih =>
    obtain ⟨hc, hl⟩ := List.forall_mem_cons.mp h
    rw [List.foldl_cons, ih (semPut_wf w) hl]
    exact mget_mmod_ne w hc.symm

theorem mget_foldl_semPut (w : mwf {} m = true) (hl : (l.map (·.1)).Nodup) (h : d ∈ l) :
    mget {} (l.foldl semPut m) d.1 = { mget {} m d.1 with
      val := BitVec.ofNat 16 ((mget {} m d.1).val.toNat + d.2.1 - d.2.2) } := by
  induction l generalizing m with
  | nil => cases h
  | cons c l ih =>
    obtain ⟨hc, hl⟩ := List.nodup_cons.mp hl
    have out : ∀ b ∈ l, b.1 ≠ c.1 := fun b hb hbc => hc (List.mem_map.mpr ⟨b, hb, hbc⟩)
    rw [List.foldl_cons]
    rcases List.mem_cons.mp h with rfl | h
    · rw [mget_foldl_semPut_ne (semPut_wf w) out]
      exact mget_mmod w
    · rw [ih (semPut_wf w) hl h, semPut, mget_mmod_ne w (out d h)]

theorem cap_foldl_semPut (w : mwf {} m = true) (i : Nat) :
    (mget {} (l.foldl semPut m) i).cap = (mget {} m i).cap := by
  induction l generalizing m with
  | nil => rfl
  | cons c l ih =>
    rw [List.foldl_cons, ih (semPut_wf w), semPut]
    by_cases hi : i = c.1
    · rw [hi, mget_mmod w]
    · rw [mget_mmod_ne w hi]

/-- R22: one entry does not name one semaphore twice. -/
theorem semid_ne_of_formed {pc : Nat} (h : malformed e pc = false) (h1 : eSemop e ≠ 0) (h2 : eSem2op e ≠ 0) :
    eSemid e ≠ eSem2id e := by
  intro he
  have hm : malformed e pc = true := by simp [malformed, malformedBase, h1, h2, he]
  rw [h] at hm
  cases hm

theorem mem_semDelta (h : d ∈ semDelta e) :
    (d.1 = eSemid e ∧ eSemop e ≠ 0) ∨ (d.1 = eSem2id e ∧ eSem2op e ≠ 0) := by
  unfold semDelta at h
  rcases List.mem_append.mp h with h | h <;> split at h <;> simp_all

theorem semDelta_nodup {pc : Nat} (h : malformed e pc = false) : ((semDelta e).map (·.1)).Nodup := by
  have hne := semid_ne_of_formed h
  unfold semDelta
  split <;> split <;> simp_all

/-- A firing entry's operations neither underflow nor overflow. -/
theorem semFault_none (h : semFault q e = none) (hd : d ∈ semDelta e) :
    d.2.2 ≤ (mget {} q.mu.sems d.1).val.toNat ∧
      (d.2.1 ≠ 0 → (mget {} q.mu.sems d.1).val.toNat + d.2.1 - d.2.2 ≤ (mget {} q.mu.sems d.1).cap.toNat) := by
  obtain ⟨i, a, k⟩ := d
  have hf := List.findSome?_eq_none_iff.mp h _ hd
  dsimp only at hf ⊢
  split at hf
  · cases hf
  · split at hf
    · cases hf
    · omega

/-- The sum of an operation is exact. -/
theorem sem_exact {pc : Nat} (hm : malformed e pc = false) (hf : semFault q e = none) (w : mwf {} q.mu.sems = true)
    (hd : d ∈ semDelta e) :
    (mget {} (semsAfter e q.mu.sems) d.1).val.toNat + d.2.2 = (mget {} q.mu.sems d.1).val.toNat + d.2.1 ∧
      (d.2.1 ≠ 0 → (mget {} (semsAfter e q.mu.sems) d.1).val.toNat ≤ (mget {} q.mu.sems d.1).cap.toNat) := by
  obtain ⟨hlo, hhi⟩ := semFault_none hf hd
  have hval := (mget {} q.mu.sems d.1).val.isLt
  have hcap := (mget {} q.mu.sems d.1).cap.isLt
  rw [semsAfter_eq_foldl, mget_foldl_semPut w (semDelta_nodup hm) hd, BitVec.toNat_ofNat, Nat.mod_eq_of_lt (by omega)]
  omega

theorem eq_none_of_ite {α : Type*} {p : Prop} [Decidable p] {a x : Option α} (h : (if p then a else x) = none)
    (ha : a ≠ none) : ¬ p ∧ x = none := by
  split at h
  next hp => exact absurd h ha
  next hp => exact ⟨hp, h⟩

/-- A wait fires only at a value of at least SEMVAL. -/
theorem semval_le_of_guard (h : guardSlip env q e = none) (hw : eSemop e = 1 ∨ eSemop e = 4) :
    eSemval e ≤ (mget {} q.mu.sems (eSemid e)).val.toNat := by
  obtain ⟨-, clocked⟩ := eq_none_of_ite h nofun
  obtain ⟨-, unmasked⟩ := eq_none_of_ite clocked nofun
  obtain ⟨-, sourced⟩ := eq_none_of_ite unmasked (by split <;> nofun)
  obtain ⟨hsem, -⟩ := eq_none_of_ite sourced nofun
  exact not_lt.mp fun hlt => hsem ⟨hw, hlt⟩

/-! ### Commands on semaphores -/

/-- The semaphores after a command whose entry fires. -/
theorem tabCommand_fires_sems (h : Fires s t u e) (hs : sel e = true) (w : mwf {} (atStart s t).mu.sems = true) :
    ∃ s', tabCommand sel t u s = .next s' ∧ (tileOf s' t).mu.sems = semsAfter e (atStart s t).mu.sems ∧
      (∀ i, (mget {} (semsAfter e (atStart s t).mu.sems) i).cap = (mget {} (atStart s t).mu.sems i).cap) ∧
      ∀ i, ¬ (i = eSemid e ∧ eSemop e ≠ 0) → ¬ (i = eSem2id e ∧ eSem2op e ≠ 0) →
        mget {} (semsAfter e (atStart s t).mu.sems) i = mget {} (atStart s t).mu.sems i := by
  obtain ⟨s', o, hn, -, htile, -⟩ := tabCommand_fires_outst (sel := sel) h hs
  refine ⟨s', hn, ?_, cap_foldl_semPut w, fun i h1 h2 => mget_foldl_semPut_ne w fun d hd hi => ?_⟩
  · rw [htile]
    exact fireTile_sems ..
  · rcases mem_semDelta hd with hd | hd
    · exact h1 (hi ▸ hd)
    · exact h2 (hi ▸ hd)

/-- A wait without subtraction changes nothing at its semaphore. -/
theorem semid_untouched_of_wait {pc : Nat} (hm : malformed e pc = false) (h : eSemop e = 1) :
    ∀ d ∈ semDelta e, d.1 ≠ eSemid e := by
  intro d hd he
  have h2 : d.1 = eSem2id e ∧ eSem2op e ≠ 0 := by
    simp only [semDelta, h, List.nil_append] at hd
    split at hd <;> simp_all
  exact semid_ne_of_formed hm (by omega) h2.2 (he.symm.trans h2.1)

end Sys2Proof.Machine

open Sys2Proof Sys2Proof.Machine

/-- Settles O6: the semaphores after a firing are those of its own additions and subtractions, each exact (sem_exact). -/
theorem semaphoreOperations : Obligations.SemaphoreOperations := by
  intro s t u e h w old ends
  have on := h.on
  have sum : ∀ d ∈ semDelta e, _ := fun d hd => sem_exact on.formed on.sems w hd
  have run := fun k (hk : eSemop e = k) =>
    tabCommand_fires_sems (sel := fun e => decide (eSemop e = k)) h (decide_eq_true hk) w
  have run2 := fun k (hk : eSem2op e = k) =>
    tabCommand_fires_sems (sel := fun e => decide (eSem2op e = k)) h (decide_eq_true hk) w
  refine ⟨fun hk => ?_, fun hk => ?_, fun hk => ?_, fun hk => ?_, fun hk => ?_, fun hk => ?_⟩
  case refine_1 =>
    obtain ⟨s', hn, hsem, hframe⟩ := run _ hk
    have hkeep := mget_foldl_semPut_ne w (semid_untouched_of_wait on.formed hk)
    exact ⟨s', hn, hsem ▸ ⟨⟨semval_le_of_guard on.guard (.inl hk), congrArg Sem.val hkeep⟩, hframe⟩⟩
  case refine_2 =>
    obtain ⟨s', hn, hsem, hframe⟩ := run _ hk
    exact ⟨s', hn, hsem ▸ ⟨sum (eSemid e, eSemval e, 0) (by simp [semDelta, hk]), hframe⟩⟩
  case refine_3 =>
    obtain ⟨s', hn, hsem, hframe⟩ := run _ hk
    exact ⟨s', hn, hsem ▸ ⟨(sum (eSemid e, 0, eSemval e) (by simp [semDelta, hk])).1, hframe⟩⟩
  case refine_4 =>
    obtain ⟨s', hn, hsem, hframe⟩ := run _ hk
    exact ⟨s', hn, hsem ▸ ⟨(sum (eSemid e, 0, eSemval e) (by simp [semDelta, hk])).1, hframe⟩⟩
  case refine_5 =>
    obtain ⟨s', hn, hsem, hframe⟩ := run2 _ hk
    exact ⟨s', hn, hsem ▸ ⟨(sum (eSem2id e, eSem2val e, 0) (by simp [semDelta, hk])).1, hframe⟩⟩
  case refine_6 =>
    obtain ⟨s', hn, hsem, hframe⟩ := run2 _ hk
    exact ⟨s', hn, hsem ▸ ⟨(sum (eSem2id e, 0, eSem2val e) (by simp [semDelta, hk])).1, hframe⟩⟩

/-- Settles O7: the memory unit of a fired tile (fireTile_ports), for every row of the tab family. -/
theorem firingReadsAndPops : Obligations.FiringReadsAndPops := by
  intro row hr s t u e h he wq ws
  obtain ⟨s', o, hn, -, htile, -⟩ := tabCommand_fires_outst (sel := row.2) h he
  obtain ⟨hflits, hsrx, hag0, hrest⟩ := fireTile_ports (envOf s t) u e (atStart s t) wq ws
  refine ⟨s', (exec_tabRows row hr t u s).trans hn, ?_⟩
  rw [htile]
  exact ⟨fun k _ => hflits k, hsrx, hag0, hrest⟩
end

/-! ## Faults at an entry, and moves (R22, R25, R26, R28, R29, R302) -/

section
namespace Sys2Proof.Machine

variable {s : State} {t : TileId} {u : Upset} {e : TabEntry} {sel : TabEntry → Bool}

/-! ### A tile cycle that meets a fault -/

theorem fire_of_semFault {env : TileEnv} {q : Tile} {c : EvCode} {id : Nat} (hs : semFault q e = some (c, id)) :
    fire env u e q = haltWith env.core c id q.tab.pc.toNat q := by
  unfold fire
  dsimp only
  rw [hs]

theorem fire_of_unitFault {env : TileEnv} {q : Tile} {c : EvCode} (hs : semFault q e = none)
    (hu : unitFault q e (upsetOpd u (eSrcb e) (readSrc q e (eSrcb e))) = some c) :
    fire env u e q = haltWith env.core c 0 q.tab.pc.toNat q := by
  unfold fire
  dsimp only
  rw [hs]
  dsimp only
  rw [hu]

/-- The entry meets a fault in the tile's next cycle, in the order of the checks: parity, form, then for an entry that would
fire its semaphores and its unit (R22, R28, R29, R302). -/
inductive EntryFault (s : State) (t : TileId) (u : Upset) (e : TabEntry) : EvCode → Nat → Prop
  | parity : u.parity = true → EntryFault s t u e .tabParity 0
  | form : u.parity = false → malformed e (atStart s t).tab.pc.toNat = true → EntryFault s t u e .tabMalformed 0
  | sem {c : EvCode} {id : Nat} : u.parity = false → malformed e (atStart s t).tab.pc.toNat = false →
      guardSlip (envOf s t) (atStart s t) e = none → semFault (atStart s t) e = some (c, id) → EntryFault s t u e c id
  | unit {c : EvCode} : u.parity = false → malformed e (atStart s t).tab.pc.toNat = false →
      guardSlip (envOf s t) (atStart s t) e = none → semFault (atStart s t) e = none →
      unitFault (atStart s t) e (operandB s t u e) = some c → EntryFault s t u e c 0

variable {c : EvCode} {sub : Nat}

theorem EntryFault.not_fires (f : EntryFault s t u e c sub) (hi : Issues s t e) :
    tabFires (envOf s t) u (tileOf s t) = false := by
  refine Bool.eq_false_iff.mpr fun hf => ?_
  have on := Fires.on ⟨hi, hf⟩
  cases f with
  | parity hp => simp [on.parity] at hp
  | form _ hm => simp [on.formed] at hm
  | sem _ _ _ hs => simp [on.sems] at hs
  | unit _ _ _ _ hu => exact Option.some_ne_none _ (hu.symm.trans on.unit)

theorem tabCycle_fault (f : EntryFault s t u e c sub) (hi : Issues s t e) (hr : (atStart s t).tab.st = .running) :
    tabCycle (envOf s t) u (tileOf s t) = haltWith (startCore s t) c sub (atStart s t).tab.pc.toNat (atStart s t) := by
  have he : curEntry (atStart s t) = e := (curEntry_atStart s t).trans hi.entry
  have hp : settle (envOf s t).core (envOf s t).x (envOf s t).y (tileOf s t).tab.tc (tileOf s t) = atStart s t := rfl
  unfold tabCycle
  dsimp only
  rw [hp, he, if_neg (not_not.mpr hr)]
  cases f with
  | parity hp => rw [if_pos hp]; rfl
  | form hp hm => rw [if_neg (by simp [hp]), if_pos hm]; rfl
  | sem hp hm hg hs =>
    rw [if_neg (by simp [hp]), if_neg (by simp [hm]), hg]
    exact fire_of_semFault hs
  | unit hp hm hg hs hu =>
    rw [if_neg (by simp [hp]), if_neg (by simp [hm]), hg]
    exact fire_of_unitFault hs hu

/-- A tab command whose entry meets a fault: the tile halts, and nothing pops. -/
theorem tabCommand_fault (f : EntryFault s t u e c sub) (hi : Issues s t e) (hs : sel e = true)
    (hr : (atStart s t).tab.st = .running) :
    ∃ s', tabCommand sel t u s = .next s' ∧
      tileOf s' t = haltWith (startCore s t) c sub (atStart s t).tab.pc.toNat (atStart s t) := by
  refine ⟨setTile (advanceTo s (startCore s t)) t.x t.y (tabCycle (envOf s t) u (tileOf s t)), ?_, ?_⟩
  · have hf := f.not_fires hi
    obtain ⟨htile, -, hiss, hent⟩ := hi
    unfold tabCommand onTile
    rw [if_pos htile]
    have hsel : (issuing (tileOf s t) && (sel (curEntry (tileOf s t)) ||
        malformed (curEntry (tileOf s t)) (tileOf s t).tab.pc.toNat)) = true := by simp [hiss, hent, hs]
    show Host.Outcome.next (if _ then _ else _) = _
    rw [if_pos hsel]
    show Host.Outcome.next (releaseAll _ (if tabFires (envOf s t) u (tileOf s t) then _ else []) _) = _
    rw [hf]
    rfl
  · rw [tileOf_setTile hi.maps, tabCycle_fault f hi hr]

end Sys2Proof.Machine

open Sys2Proof Sys2Proof.Machine

/-- Settles O9: each clause is a fault in the order of the checks, and a fault halts the tile as haltWith does. -/
theorem entryFaultHalts : Obligations.EntryFaultHalts := by
  intro row hrow s t u e hi he hr pre b halts reaches
  have halt : ∀ {c sub}, EntryFault s t u e c sub → halts c sub := by
    intro c sub f
    obtain ⟨s', hn, htile⟩ := tabCommand_fault (sel := row.2) f hi he hr
    refine ⟨s', (exec_tabRows row hrow t u s).trans hn, ?_⟩
    rw [htile]
    exact ⟨rfl, rfl, rfl, rfl, rfl, rfl, rfl, rfl, rfl, rfl⟩
  refine ⟨fun hp => halt (.parity hp), fun hp hm => halt (.form hp hm),
    fun c id ⟨hp, hm, hg⟩ hs => halt (.sem hp hm hg hs),
    fun ⟨hp, hm, hg⟩ hs hk hf => halt (.unit hp hm hg hs ?_),
    fun ⟨hp, hm, hg⟩ hs hk hf => halt (.unit hp hm hg hs ?_),
    fun ⟨hp, hm, hg⟩ hs hk hf => halt (.unit hp hm hg hs ?_)⟩
  · simp [unitFault, hk, show arrayFault (atStart s t).arr e = true from hf]
  · simp [unitFault, hk, show sparseFault (atStart s t).sp e (operandB s t u e) = true from hf]
  · simp [unitFault, hk, show vecFault (atStart s t).vfire e = true from hf]
end

/-! ## Moves and landings (R25, R26, R60) -/

section
namespace Sys2Proof.Machine

variable {s : State} {t : TileId} {u : Upset} {e : TabEntry} {sel : TabEntry → Bool}

/-! ### A move -/

/-- The slot a move writes is the one its write port names, before the port steps. -/
theorem unitSlots_head_of_move {env : TileEnv} {a b : Opd} {q : Tile} (h : eUnit e = 0) :
    (unitSlots env e a b q).head? = if dstMu e then some (agAddr q.mu.ag1 (eWrop e)) else none := by
  cases hd : dstMu e <;> simp [unitSlots, unitTargets, writeTargets, h, hd]

/-- What a move sends. -/
def moveEmit (s : State) (t : TileId) (u : Upset) (e : TabEntry) : Emit :=
  let o := if eSrca e ≠ 0 then operandA s t u e else operandB s t u e
  { slot := if dstMu e then some (agAddr (atStart s t).mu.ag1 (eWrop e)) else none
    chan := if dstNet e then some (eOutch e) else none
    scalar := decide (eDst e = 4), data := o.data, poison := o.poison, last := eLastm e }

theorem firedTile_move (h : eUnit e = 0) (hd : eDst e ≠ 0) :
    units (firedTile s t u e) = units { atStart s t with
      fly := addFlight (atStart s t).fly ⟨(atStart s t).tab.tc + 1, .move (moveEmit s t u e)⟩ } := by
  rw [firedTile, units_fireTile]
  dsimp only
  obtain ⟨harr, hsp, hvf, hvs, hfly⟩ := units_of (unitStart_units (envOf s t) u e (atStart s t))
  rw [unitFire, if_pos h, fireMove, if_neg hd]
  simp only [units, harr, hsp, hvf, hvs, hfly, unitStart_tab, unitSlots_head_of_move h]
  rfl

theorem tabMoves : TabMoves := by
  intro s t u e h hu hd
  obtain ⟨s', o, hn, -, htile, -⟩ :=
    tabCommand_fires_outst (sel := fun e => decide (eUnit e = 0 ∧ eDst e ≠ 0)) h (decide_eq_true ⟨hu, hd⟩)
  obtain ⟨harr, hsp, hvf, -, hfly⟩ := units_of (firedTile_move (s := s) (t := t) (u := u) hu hd)
  refine ⟨s', hn, ?_⟩
  rw [htile]
  exact ⟨hfly, harr, hsp, hvf⟩

/-! ### A landing in a slot -/

theorem tileOf_modTile {c : Nat} {f : Tile → Tile} (w : mwf {} s.tiles = true) :
    tileOf (modTile (advanceTo s c) t.x t.y f) t = f (tileOf s t) := getTile_modTile (s := advanceTo s c) _ _ _ w

/-- The landing of the first work in flight, in the cycle of an issuing tile that it is due in. -/
theorem landCommand_head {k : FlyWork → Bool} {f : Flight} {rest : List Flight} {mism : Nat}
    (ht : tileExists s t = true) (hf : (tileOf s t).fly = f :: rest)
    (hk : k f.work = true) (hv : f.vis ≤ (tileOf s t).tab.tc) :
    landCommand k t mism s = .next (modTile (advanceTo s (landCore s (tileOf s t) f)) t.x t.y fun q =>
      landFlight (landCore s (tileOf s t) f) t.x t.y f mism { q with fly := rest }) := by
  have htake : takeFlight k (getTile s t.x t.y).fly = some (f, rest) := by
    show takeFlight k (tileOf s t).fly = _
    rw [hf, takeFlight, if_pos hk]
  unfold landCommand onTile
  rw [if_pos ht]
  dsimp only
  rw [htake]
  dsimp only
  rw [if_pos (by simp [show f.vis ≤ (getTile s t.x t.y).tab.tc from hv])]

/-- A result whose one destination is a slot. -/
theorem landEmit_slot {core x y vis i : Nat} {em : Emit} {q : Tile} (hs : em.slot = some i) (hc : em.chan = none)
    (hsc : em.scalar = false) : landEmit core x y vis em q = { q with mu := { q.mu with
      slots := mmod {} q.mu.slots i fun o => { o with data := em.data, poison := em.poison }
      wUsed := max q.mu.wUsed (vis + 1) } } := by
  simp [landEmit, hs, hc, hsc]

/-- Work of a tab entry that is one result for a slot lands there. -/
theorem landCommand_slot {k : FlyWork → Bool} {vis i : Nat} {em : Emit} {w : FlyWork} {rest : List Flight}
    (ht : tileExists s t = true) (wm : mwf {} s.tiles = true) (hv : vis ≤ (tileOf s t).tab.tc) (hs : em.slot = some i)
    (hc : em.chan = none) (hsc : em.scalar = false) (ws : mwf {} (tileOf s t).mu.slots = true)
    (hf : (tileOf s t).fly = ⟨vis, w⟩ :: rest) (hk : k w = true)
    (hw : ∀ core x y q, landFlight core x y ⟨vis, w⟩ 0 q = landEmit core x y vis em q) :
    ∃ s', landCommand k t 0 s = .next s' ∧
      let old := (tileOf s t).mu.slots
      let new := (tileOf s' t).mu.slots
      (mget {} new i).data = em.data ∧ (mget {} new i).poison = em.poison ∧
      (mget {} new i).full = (mget {} old i).full ∧ (∀ k, k ≠ i → mget {} new k = mget {} old k) ∧
      (tileOf s' t).fly = rest ∧ (tileOf s' t).fret = (tileOf s t).fret ∧ (tileOf s' t).arr = (tileOf s t).arr ∧
      (tileOf s' t).sp = (tileOf s t).sp ∧ (tileOf s' t).tab = (tileOf s t).tab := by
  refine ⟨_, landCommand_head ht hf hk hv, ?_⟩
  rw [tileOf_modTile wm]
  simp only [hw, landEmit_slot hs hc hsc, mget_mmod ws, true_and, and_true]
  exact fun j hj => mget_mmod_ne ws hj

theorem unitsLandInSlots : UnitsLandInSlots := by
  intro s t vis i em rest ht wm _ hv hs hc hsc ws lands
  exact ⟨fun hf => landCommand_slot ht wm hv hs hc hsc ws hf rfl fun _ _ _ _ => rfl,
    fun sp hf => landCommand_slot ht wm hv hs hc hsc ws hf rfl fun _ _ _ _ => rfl⟩

end Sys2Proof.Machine

open Sys2Proof Sys2Proof.Machine

/-- Settles O16: the work a move puts in flight, and the landing of one result in its slot. -/
theorem movesAndLandings : Obligations.MovesAndLandings := ⟨tabMoves, unitsLandInSlots⟩
end

/-! ## The fallback engine, and the end of a sparse step (R28, R136, R137) -/

section
namespace Sys2Proof.Machine

variable {s : State} {t : TileId} {p : SpStep}

/-! ### An effect from outside the tab on a tile that issues -/

/-- Closing a tile's cycle moves the start of its next one at most. -/
theorem closeCycle_eq (core : Nat) (q : Tile) :
    ∃ n, closeCycle core q = { q with tab := { q.tab with nextCore := n } } := by
  unfold closeCycle
  split
  · exact ⟨_, rfl⟩
  · exact ⟨q.tab.nextCore, rfl⟩

theorem tileOf_outside {f : Nat → Tile → Tile} (w : mwf {} s.tiles = true) :
    tileOf (outside t f s) t = f s.cycle (closeCycle s.cycle (tileOf s t)) := getTile_modTile _ _ _ w

theorem tileTime_of_issuing {core : Nat} {q : Tile} (h : issuing q = true) : tileTime core q = q.tab.tc - 1 := by
  rw [tileTime, if_pos h]

/-- The cycle in progress of an issuing tile is the same once its cycle is closed. -/
theorem tileTime_closeCycle {core c : Nat} {q : Tile} (h : issuing q = true) :
    tileTime core (closeCycle c q) = q.tab.tc - 1 := by
  obtain ⟨n, hn⟩ := closeCycle_eq c q
  rw [hn]
  exact tileTime_of_issuing (q := { q with tab := { q.tab with nextCore := n } }) h

theorem fallbackStep_of_open {q : Tile} (h : q.sp.step = some p) (hf : p.fallback = true) : fallbackStep q = some p := by
  rw [fallbackStep, h]
  exact if_pos hf

/-! ### Fetch (R136, R160) -/

theorem exec_fallbackFetch (ht : tileExists s t = true) (hi : issuing (tileOf s t) = true)
    (hp : (tileOf s t).sp.step = some p) (hf : p.fallback = true) (hn : p.fetched < stepSlots p) (hb : p.buf.length < 2)
    (hr : (tileOf s t).mu.reads = []) (hu : (tileOf s t).mu.rUsed ≤ (tileOf s t).tab.tc - 1)
    (hg : p.begun < (tileOf s t).tab.tc - 1) (hc : readClaimed (tileOf s t) ((tileOf s t).tab.tc - 1) = false) (e : Ecc) :
    exec (.fallbackFetch t e) s = .next (outside t (fun c q => fetchSlot c e p q) s) := by
  show execFallbackFetch t e s = _
  have hstep : fallbackStep (getTile s t.x t.y) = some p := fallbackStep_of_open hp hf
  have htime : tileTime s.cycle (getTile s t.x t.y) = (tileOf s t).tab.tc - 1 := tileTime_of_issuing hi
  unfold execFallbackFetch onTile
  rw [if_pos ht]
  dsimp only
  rw [hstep]
  dsimp only
  have hfree : readClaimed (getTile s t.x t.y) ((tileOf s t).tab.tc - 1) = false := hc
  rw [if_pos ⟨hn, hb, hr⟩, if_pos hi, htime, if_pos ⟨hu, hg, by simp [hfree]⟩]

/-- A fetch without an upset. -/
theorem fetchSlot_clean {core now : Nat} {q : Tile} (h : tileTime core q = now) :
    fetchSlot core .clean p q = { q with
      sp := { q.sp with step := some { p with
        fetched := p.fetched + 1
        buf := p.buf ++ [((mget {} q.mu.slots (p.dbase + p.fetched)).data,
          (mget {} q.mu.slots (p.dbase + p.fetched)).poison, now)] } }
      mu := { q.mu with rUsed := now + 1 } } := by
  simp [fetchSlot, spadUpset, h]

/-! ### Issue of a chunk (R136) -/

theorem chunkFrom_le {d : Unit512} {b : Bool} {f now : Nat} {rest : List (Unit512 × Bool × Nat)}
    (hb : p.buf = (d, b, f) :: rest) (hf : f < now)
    (ha : (if p.issued = 0 then p.begun + 1 else p.lastChunk + 1) ≤ now) : chunkFrom p ≤ now := by
  rw [chunkFrom, hb]
  exact max_le ha hf

theorem exec_fallbackChunkIssue (ht : tileExists s t = true) (hi : issuing (tileOf s t) = true)
    (hp : (tileOf s t).sp.step = some p) (hf : p.fallback = true) (hn : p.issued < stepChunks p) (hb : p.buf ≠ [])
    (hfrom : chunkFrom p ≤ (tileOf s t).tab.tc - 1) (hm : (tileOf s t).sp.mac24At ≤ (tileOf s t).tab.tc - 1)
    (hmask : (tileEnv s t.x t.y s.cycle).mask = true) (hstr : (tileEnv s t.x t.y s.cycle).stretched = false) :
    exec (.fallbackChunkIssue t) s = .next (outside t (fun c q => issueChunk c p q) s) := by
  show execFallbackChunkIssue t s = _
  have hstep : fallbackStep (getTile s t.x t.y) = some p := fallbackStep_of_open hp hf
  have hi' : issuing (getTile s t.x t.y) = true := hi
  have htime : tileTime s.cycle (getTile s t.x t.y) = (tileOf s t).tab.tc - 1 := tileTime_of_issuing hi
  unfold execFallbackChunkIssue onTile
  rw [if_pos ht]
  dsimp only
  rw [hstep]
  dsimp only
  rw [if_pos ⟨hn, hb⟩]
  simp only [hi', if_true, htime]
  rw [if_pos ⟨hfrom, hm, hmask, by simp [hstr]⟩]

/-- The step after its next chunk has issued in a tile cycle: a slot whose last chunk it was leaves the buffer. -/
def chunkStep (p : SpStep) (now : Nat) : SpStep :=
  { p with issued := p.issued + 1, lastChunk := now
           buf := if (p.issued + 1) % chunksPerSlot p.fmt = 0 then p.buf.tail else p.buf }

theorem issueChunk_eq {core now : Nat} {q : Tile} {d : Unit512} {b : Bool} {f : Nat}
    {rest : List (Unit512 × Bool × Nat)} (h : tileTime core q = now) (hb : p.buf = (d, b, f) :: rest) :
    issueChunk core p q = fireSegFx core .chunk (chunkIssue q.sp p p.issued d b) (now + 40)
      { q with sp := { q.sp with step := some (chunkStep p now) } } := by
  simp [issueChunk, hb, h, chunkStep]

/-- An issue of the sparse engine adds its flight and leaves the open step and the accumulators. -/
theorem fireSegFx_units (core : Nat) (k : IssueKind) (fx : SegFx) (vis : Nat) (q : Tile) :
    (fireSegFx core k fx vis q).fly = addFlight q.fly ⟨vis, .issue k fx.rows⟩ ∧
      (fireSegFx core k fx vis q).sp.step = q.sp.step ∧ (fireSegFx core k fx vis q).sp.acc = q.sp.acc := by
  have hu : ∀ r : Tile, units (match fx.skipped with
      | (j, i) :: _ => tileEvent core .indexBounds j i r
      | [] => r) = units r := by
    intro r
    split <;> rfl
  have hb : units (bump core .spIssue 1 (bump core .spPairs fx.pairs (bump core .spBounds fx.skipped.length
      (bump core .spZgate fx.gated q)))) = units q := by simp only [units_bump]
  obtain ⟨-, hsp, -, -, hfly⟩ := units_of ((hu _).trans hb)
  exact ⟨congrArg (addFlight · _) hfly, (congrArg SparseUnit.step hsp :), (congrArg SparseUnit.acc hsp :)⟩

theorem fallbackEngine : FallbackEngine := by
  intro s t p ht w hi hp hf pre q
  have htime : tileTime s.cycle (closeCycle s.cycle pre) = q := tileTime_closeCycle hi
  obtain ⟨n, hclosed⟩ := closeCycle_eq s.cycle pre
  refine ⟨fun hn hb hr hu hg hc => ⟨_, exec_fallbackFetch ht hi hp hf hn hb hr hu hg hc .clean, ?_⟩,
    fun d b f rest hb hfq hn ha hm hmask hstr =>
      ⟨_, exec_fallbackChunkIssue ht hi hp hf hn (by simp [hb]) (chunkFrom_le hb hfq ha) hm hmask hstr, ?_⟩⟩ <;>
    rw [tileOf_outside w]
  · rw [fetchSlot_clean htime, hclosed]
    exact ⟨rfl, rfl, rfl, rfl⟩
  · rw [issueChunk_eq htime hb, hclosed]
    obtain ⟨hfly, hstep, hacc⟩ := fireSegFx_units s.cycle .chunk (chunkIssue pre.sp p p.issued d b) (q + 40)
      { pre with tab := { pre.tab with nextCore := n }, sp := { pre.sp with step := some (chunkStep p q) } }
    exact ⟨hstep.trans (by simp only [chunkStep, hb, List.tail_cons]), hfly, mu_off.fireSegFx .., hacc⟩

/-! ### Completion (R137, R28) -/

theorem endCore_of_le {q : Tile} {c : Nat} (h : c ≤ q.tab.tc) : endCore q c = q.tab.lastCore := if_pos h

/-- The first remote addition of a cycle, within the capacity. -/
theorem remoteAdd_within {core id k : Nat} {q : Tile} (hat : (mget {} q.mu.sems id).at_ ≠ core + 1)
    (hcap : (mget {} q.mu.sems id).val.toNat + k ≤ (mget {} q.mu.sems id).cap.toNat) :
    remoteAdd core id k q = { q with mu := { q.mu with sems := mset {} q.mu.sems id { mget {} q.mu.sems id with
      val := BitVec.ofNat 16 ((mget {} q.mu.sems id).val.toNat + k), at_ := core + 1, added := k, refused := 0 } } } := by
  unfold remoteAdd
  dsimp only
  rw [if_neg hat, if_pos ⟨rfl, hcap⟩, Nat.zero_add]

/-- A step that completes closes and adds 1 to its semaphore; the cycles it counts touch no unit. -/
theorem completeStep_eq (core d : Nat) (p : SpStep) (q : Tile) :
    ∃ r, completeStep core d p q = remoteAdd core p.semid 1 r ∧ r.mu = q.mu ∧
      units r = units { q with sp := { q.sp with step := none } } := by
  refine ⟨_, rfl, ?_, ?_⟩ <;> dsimp only <;> split
  · exact bump_mu ..
  · rfl
  · exact units_bump ..
  · rfl

theorem exec_sparseStepComplete {d : Nat} (ht : tileExists s t = true) (hi : issuing (tileOf s t) = true)
    (hp : (tileOf s t).sp.step = some p) (hd : stepDone p = some d) (hle : d ≤ (tileOf s t).tab.tc) :
    exec (.sparseStepComplete t) s =
      .next (modTile s t.x t.y (completeStep (tileOf s t).tab.lastCore d p)) := by
  show execSparseStepComplete t s = _
  have hp' : (getTile s t.x t.y).sp.step = some p := hp
  have hi' : issuing (getTile s t.x t.y) = true := hi
  have hle' : d ≤ (getTile s t.x t.y).tab.tc := hle
  unfold execSparseStepComplete onTile
  rw [if_pos ht]
  dsimp only
  rw [hp']
  dsimp only
  rw [hd]
  dsimp only
  rw [if_pos hi', if_pos hle', endCore_of_le hle']

theorem sparseStepCompletes : SparseStepCompletes := by
  intro s t p d ht w hi hp hd hle sem ws hat hcap
  refine ⟨_, exec_sparseStepComplete ht hi hp hd hle, ?_⟩
  rw [tileOf, getTile_modTile _ _ _ w]
  obtain ⟨r, hr, hmu, hunits⟩ := completeStep_eq (tileOf s t).tab.lastCore d p (tileOf s t)
  obtain ⟨harr, hsp, -, -, hfly⟩ := units_of hunits
  rw [hr, remoteAdd_within (hmu ▸ hat) (hmu ▸ hcap), hmu]
  refine ⟨(congrArg SparseUnit.step hsp :), ?_, fun i hne => mget_mset_ne ws hne, (congrArg SparseUnit.acc hsp :), rfl,
    hfly, harr⟩
  have hlt := sem.cap.isLt
  dsimp only
  rw [mget_mset ws, BitVec.toNat_ofNat, Nat.mod_eq_of_lt (show sem.val.toNat + 1 < 2 ^ 16 by omega)]

end Sys2Proof.Machine

open Sys2Proof Sys2Proof.Machine

/-- Settles O20: the engine's two commands on an issuing tile, and the completion of a step that is due. -/
theorem fallbackAndCompletion : Obligations.FallbackAndCompletion := ⟨fallbackEngine, sparseStepCompletes⟩
end

/-! ## Refusals, stalls and the halt wave (R32, R178, R180, R182, R219) -/

section
namespace Sys2Proof.Machine

variable {s : State} {t : TileId} {q : Tile} {spans : List (Nat × Nat)} {core : Nat}

/-! ### A halt, by the state of the tile -/

theorem haltTile_running (h : q.tab.st = .running) (hd : q.tab.delaying = false) :
    haltTile spans core q = { q with tab := { q.tab with
      st := .halted, delaying := false, delayLeft := 0, nextCore := max q.tab.nextCore core } } := by
  simp [haltTile, h, hd]

theorem haltTile_loaded (h : q.tab.st = .loaded) :
    haltTile spans core q = { q with tab := { q.tab with st := .halted } } := by
  simp [haltTile, h]

theorem haltTile_stopped (h : q.tab.st = .ended ∨ q.tab.st = .halted) : haltTile spans core q = q := by
  rcases h with h | h <;> simp [haltTile, h]

/-- A halt of a tile that is not delaying changes only its tab unit, and there neither PC nor the count of cycles. -/
theorem haltTile_frame (hd : q.tab.delaying = false) :
    ∃ tb, haltTile spans core q = { q with tab := tb } ∧ tb.pc = q.tab.pc ∧ tb.cycle = q.tab.cycle := by
  cases h : q.tab.st with
  | running => exact ⟨_, haltTile_running h hd, rfl, rfl⟩
  | loaded => exact ⟨_, haltTile_loaded h, rfl, rfl⟩
  | ended => exact ⟨q.tab, haltTile_stopped (.inl h), rfl, rfl⟩
  | halted => exact ⟨q.tab, haltTile_stopped (.inr h), rfl, rfl⟩

/-! ### A refusal that reaches its writer (R178) -/

/-- The writer once the refusal of a flit has reached it in a device cycle, no other being on its way. -/
def refused (spans : List (Nat × Nat)) (core x y k ch : Nat) (q : Tile) : Tile :=
  let r := { q with fret := { q.fret with refusals := [] } }
  if r.tab.st = .halted then bump core .qLate 1 r
  else tileEvent core .peerReset k (packFields [(x, 10), (y, 9), (ch, 3)]) (haltTile spans core r)

theorem exec_peerReset {x y k ch due : Nat} (ht : tileExists s t = true)
    (h : (tileOf s t).fret.refusals = [(x, y, k, ch, due)]) :
    exec (.peerReset t) s = .next (modTile (advanceTo s (max s.cycle due)) t.x t.y
      (refused (spansOf s (tilePlace s t.x t.y).1 (tilePlace s t.x t.y).2) (max s.cycle due) x y k ch)) := by
  have h' : (getTile s t.x t.y).fret.refusals = [(x, y, k, ch, due)] := h
  show execPeerReset t s = _
  unfold execPeerReset onTile
  rw [if_pos ht]
  dsimp only
  rw [h']
  rfl

variable {x y k ch : Nat}

theorem refused_halted (h : q.tab.st = .halted) :
    refused spans core x y k ch q = bump core .qLate 1 { q with fret := { q.fret with refusals := [] } } := if_pos h

theorem refused_of_not_halted (h : q.tab.st ≠ .halted) :
    refused spans core x y k ch q = tileEvent core .peerReset k (packFields [(x, 10), (y, 9), (ch, 3)])
      (haltTile spans core { q with fret := { q.fret with refusals := [] } }) := if_neg h

theorem refused_running (h : q.tab.st = .running) (hd : q.tab.delaying = false) :
    refused spans core x y k ch q = tileEvent core .peerReset k (packFields [(x, 10), (y, 9), (ch, 3)]) { q with
      fret := { q.fret with refusals := [] }
      tab := { q.tab with st := .halted, delaying := false, delayLeft := 0, nextCore := max q.tab.nextCore core } } := by
  have hr := haltTile_running (spans := spans) (core := core) (q := { q with fret := { q.fret with refusals := [] } }) h hd
  rw [refused_of_not_halted (by rw [h]; decide), hr]

theorem refused_frame (hd : q.tab.delaying = false) :
    (refused spans core x y k ch q).fret.refusals = [] ∧ (refused spans core x y k ch q).tab.pc = q.tab.pc ∧
      (refused spans core x y k ch q).mu = q.mu ∧ (refused spans core x y k ch q).arr = q.arr := by
  by_cases h : q.tab.st = .halted
  · rw [refused_halted h]
    exact ⟨bump_proj (·.fret.refusals) (fun _ _ _ => rfl) .., bump_proj (·.tab.pc) (fun _ _ _ => rfl) ..,
      bump_proj (·.mu) (fun _ _ _ => rfl) .., bump_proj (·.arr) (fun _ _ _ => rfl) ..⟩
  · obtain ⟨tb, hq, hpc, -⟩ := haltTile_frame (spans := spans) (core := core)
      (q := { q with fret := { q.fret with refusals := [] } }) hd
    rw [refused_of_not_halted h, hq]
    exact ⟨rfl, hpc, rfl, rfl⟩

theorem exec_stallTimeout (ht : tileExists s t = true)
    (h : 2 ^ (tileOf s t).tab.wdLimit.toNat ≤ (tileOf s t).tab.wdCount) (hf : (tileOf s t).tab.wdTripped = false) :
    exec (.stallTimeout t) s = .next (modTile s t.x t.y fun q =>
      tileEvent s.cycle .stallTimeout q.tab.lastCause.toNat q.tab.pc.toNat
        { q with tab := { q.tab with wdTripped := true } }) := by
  show execStallTimeout t s = _
  unfold execStallTimeout onTile
  rw [if_pos ht]
  exact congrArg Host.Outcome.next (if_pos ⟨h, hf⟩)

theorem refusalsAndStalls : RefusalsAndStalls := by
  intro s t ⟨ht, w⟩ pre
  refine ⟨fun x y q ch due hr wc hd => ⟨_, exec_peerReset ht hr, ?_, ?_⟩, fun hc hf => exec_stallTimeout ht hc hf⟩
  · show max s.cycle (max s.cycle due) = _
    omega
  · rw [tileOf_modTile w]
    obtain ⟨href, hpc, hmu, harr⟩ := refused_frame (spans := spansOf s (tilePlace s t.x t.y).1 (tilePlace s t.x t.y).2)
      (core := max s.cycle due) (x := x) (y := y) (k := q) (ch := ch) hd
    refine ⟨href, hpc, hmu, harr, fun hst => ?_, fun hst => ?_⟩
    · rw [refused_halted hst]
      exact ⟨bump_tab .., ctrVal_bump (q := { pre with fret := { pre.fret with refusals := [] } }) wc⟩
    · rw [refused_running hst hd]
      exact ⟨rfl, rfl⟩

/-! ### The halt wave (R32, R182, R219) -/

theorem waveAt_tiles (p x y c : Nat) (s : State) : (waveAt p x y c s).tiles = (haltAt x y c s).tiles := by
  unfold waveAt
  dsimp only
  split <;> rfl

theorem waveAt_cycle (p x y c : Nat) (s : State) : (waveAt p x y c s).cycle = s.cycle := by
  unfold waveAt
  dsimp only
  split <;> rfl

/-- The wave of a SECTION_DEADLOCK takes the record of this tile: it ran with its PROGRESS clear (R182). -/
def WaveMaps (p x y : Nat) (s : State) : Prop :=
  (getPart s p).mapping = true ∧ (tileNow s x y).tab.st = .running ∧ (tileNow s x y).tab.wdLast = false

theorem waveAt_of_not_maps {p c : Nat} (h : ¬ WaveMaps p x y s) : waveAt p x y c s = haltAt x y c s := if_neg h

theorem waveAt_of_maps {p c : Nat} (h : WaveMaps p x y s) :
    waveAt p x y c s = keepStall p x y (stallRecord x y (tileNow s x y)) (haltAt x y c s) := if_pos h

theorem keepStall_parts (p x y : Nat) (r : BitVec 256) (s : State) :
    (keepStall p x y r s).parts = mmod {} s.parts p fun q => { q with
      stallMap := mset 0 (getPart s p).stallMap (8192 * (tileDie s x y - 6 * (getPart s p).lo) + recIndex s x y) r } := rfl

/-- A stall record stands in its partition's map at the tile's place; no other partition is touched. -/
theorem keepStall_part {p : Nat} {r : BitVec 256} (wp : mwf {} s.parts = true)
    (wm : mwf 0 (getPart s p).stallMap = true) :
    mget 0 (getPart (keepStall p x y r s) p).stallMap (8192 * (tileDie s x y - 6 * (getPart s p).lo) + recIndex s x y) =
        r ∧
      (getPart (keepStall p x y r s) p).st = (getPart s p).st ∧
      ∀ k, k ≠ p → getPart (keepStall p x y r s) k = getPart s k := by
  simp only [getPart, keepStall_parts, mget_mmod wp]
  exact ⟨mget_mset wm, trivial, fun k hk => mget_mmod_ne wp hk⟩

theorem exec_haltWave {p w : Nat} (ht : tileExists s t = true) (hp : partOfTile s t.x = some p)
    (hw : (getPart s p).wave = some w) :
    let c := max s.cycle (w + min (fromNorth s t.x t.y) (fromSouth s t.x t.y))
    exec (.haltWave t) s = .next (waveAt p t.x t.y c (advanceTo s c)) := by
  show execHaltWave t s = _
  unfold execHaltWave onTile
  rw [if_pos ht]
  dsimp only
  rw [hp]
  simp only [Option.bind_some, hw, Option.map_some]

theorem haltWaveReaches : HaltWaveReaches := by
  intro s t p w ⟨ht, wt⟩ hp hw
  refine ⟨_, exec_haltWave ht hp hw, ?_⟩
  set c := max s.cycle (w + min (fromNorth s t.x t.y) (fromSouth s t.x t.y)) with hc
  intro pre post
  have hcyc : (waveAt p t.x t.y c (advanceTo s c)).cycle = c := by
    rw [waveAt_cycle, advanceTo_cycle]
    omega
  have htile : ∀ x y, getTile (waveAt p t.x t.y c (advanceTo s c)) x y = getTile (haltAt t.x t.y c (advanceTo s c)) x y :=
    fun x y => by rw [getTile, waveAt_tiles, getTile]
  have hpost : post = haltTile (spansOf s (tilePlace s t.x t.y).1 (tilePlace s t.x t.y).2) c pre :=
    (htile t.x t.y).trans (tileOf_modTile wt)
  refine ⟨hcyc, fun hst => ?_, fun hst => hpost.trans (haltTile_stopped hst),
    fun x y hk => (htile x y).trans (getTile_modTile_ne (s := advanceTo s c) _ wt hk), ?_⟩
  · rw [hpost]
    rcases hst with ⟨hst, hd⟩ | hst
    · rw [haltTile_running hst hd]
      exact ⟨rfl, rfl, rfl, rfl, rfl, rfl, rfl, rfl, rfl⟩
    · rw [haltTile_loaded hst]
      exact ⟨rfl, rfl, rfl, rfl, rfl, rfl, rfl, rfl, rfl⟩
  · rw [hcyc]
    refine ⟨fun (hm : ¬ WaveMaps p t.x t.y (advanceTo s c)) => ?_,
      fun (hm : WaveMaps p t.x t.y (advanceTo s c)) wp wm => ?_⟩
    · rw [waveAt_of_not_maps hm]
      exact ⟨rfl, rfl⟩
    · rw [waveAt_of_maps hm]
      exact keepStall_part (s := haltAt t.x t.y c (advanceTo s c)) wp wm

end Sys2Proof.Machine

open Sys2Proof Sys2Proof.Machine

/-- Settles O31: what a halt does to a tile in each state, and the one record that a wave keeps. -/
theorem stallsAndHaltWaves : Obligations.StallsAndHaltWaves := ⟨refusalsAndStalls, haltWaveReaches⟩
end

/-! ## Columns of integer products (R64, R66) -/

section
namespace Sys2Proof.Machine

/-- A product of weight exponent 0, by its sign and magnitude. -/
def unitProd (p : Bool × Nat) : Prod := .fin p.1 p.2 0

/-- The integer that a sign and a magnitude stand for. -/
def signedMag (p : Bool × Nat) : Int := if p.1 then -(p.2 : Int) else p.2

/-- The sign and magnitude of a product of two integers. -/
def intPair (v w : Int) : Bool × Nat := (decide (v < 0) != decide (w < 0), v.natAbs * w.natAbs)

theorem signedMag_intPair (v w : Int) : signedMag (intPair v w) = v * w := by
  simp only [signedMag, intPair, Nat.cast_mul, Int.natCast_natAbs]
  by_cases hv : v < 0 <;> by_cases hw : w < 0 <;> simp only [hv, hw, decide_true, decide_false]
  · simp [abs_of_neg hv, abs_of_neg hw]
  · simp [abs_of_neg hv, abs_of_nonneg (not_lt.mp hw)]
  · simp [abs_of_nonneg (not_lt.mp hv), abs_of_neg hw]
  · simp [abs_of_nonneg (not_lt.mp hv), abs_of_nonneg (not_lt.mp hw)]

/-- The integer of a code (R80). -/
def codeInt (f c : Nat) : Int := sext (fld c 0 (fmtBits f)) (fmtBits f)

/-- Two codes of an integer format multiply to the product of their integers. -/
theorem mkProd_int {f : Nat} (hf : isInt f = true) (a b : Nat) :
    mkProd .whole .whole (decodeElem f a) (decodeElem f b) = unitProd (intPair (codeInt f a) (codeInt f b)) := by
  rw [decodeElem, decodeElem, if_pos hf, if_pos hf]
  rfl

variable {l : List (Bool × Nat)}

theorem bigExp_unitProd (l : List (Bool × Nat)) :
    bigExp (l.map unitProd) = if ∀ p ∈ l, p.2 = 0 then none else some 0 := by
  induction l with
  | nil => rfl
  | cons p l ih =>
    simp only [List.map_cons, unitProd, bigExp, ih, List.forall_mem_cons]
    by_cases hp : p.2 = 0
    · simp only [hp, true_and, if_true]
    · simp only [hp, false_and, if_false]
      split <;> simp_all

/-- Aligned three bits below their weight, magnitudes of weight exponent 0 lose nothing. -/
theorem alignedSum_unitProd (l : List (Bool × Nat)) :
    alignedSum (-3) (l.map unitProd) = 8 * (l.map signedMag).sum := by
  induction l with
  | nil => rfl
  | cons p l ih =>
    rw [List.map_cons, unitProd, alignedSum, ih, List.map_cons, List.sum_cons, mul_add, signedMag]
    congr 1
    cases p.1 <;> simp [Nat.shiftLeft_eq, mul_comm]

theorem sum_signedMag_of_zero (h : ∀ p ∈ l, p.2 = 0) : (l.map signedMag).sum = 0 :=
  List.sum_eq_zero fun x hx => by
    obtain ⟨p, hp, rfl⟩ := List.mem_map.mp hx
    simp [signedMag, h p hp]

theorem columnValue_unitProd (l : List (Bool × Nat)) : columnValue (some 0) (l.map unitProd) =
    if ∀ p ∈ l, p.2 = 0 then .fin false 0 0 else ofInt (8 * (l.map signedMag).sum) (-3) := by
  have hnan : ((l.map unitProd).any fun p => decide (p = .nan)) = false := by simp [unitProd]
  have hinf : ∀ b, ((l.map unitProd).any fun p => decide (p = .inf b)) = false := by simp [unitProd]
  unfold columnValue
  rw [hnan, hinf, hinf, bigExp_unitProd, ← alignedSum_unitProd]
  by_cases h : ∀ p ∈ l, p.2 = 0
  · rw [if_pos h, if_pos h]
    simp
  · rw [if_neg h, if_neg h]
    simp

/-- The integer that an INT32 row takes from a column value. -/
def valInt (v : Val) : Int :=
  match v with
  | .fin n m e => let i : Int := (m : Int) * 2 ^ e.toNat / 2 ^ (-e).toNat; if n then -i else i
  | _ => 0

theorem accAdd_int (z : Bool) (old : Nat) (v : Val) :
    let t := (if z then 0 else sext old 32) + valInt v
    accAdd true z old v = (toTwos (satInt t 32) 32, decide (satInt t 32 ≠ t)) := by
  cases z
  · rfl
  · rw [if_pos rfl, zero_add]
    rfl

/-- The three bits of alignment fall away exactly. -/
theorem valInt_ofInt_eighths (n : Int) : valInt (ofInt (8 * n) (-3)) = n := by
  have hmag : ((8 * n).natAbs : Int) = |n| * 8 := by rw [Int.natCast_natAbs, abs_mul, mul_comm]; rfl
  simp only [valInt, ofInt, hmag]
  rw [show (-3 : Int).toNat = 0 from rfl, show (-(-3 : Int)).toNat = 3 from rfl, pow_zero, mul_one]
  rw [show (2 : Int) ^ 3 = 8 from rfl, Int.mul_ediv_cancel _ (by decide)]
  by_cases hn : n < 0
  · rw [if_pos (decide_eq_true (by omega)), abs_of_neg hn, neg_neg]
  · rw [if_neg (by rw [decide_eq_true_eq]; omega), abs_of_nonneg (not_lt.mp hn)]

theorem valInt_columnValue (l : List (Bool × Nat)) :
    valInt (columnValue (some 0) (l.map unitProd)) = (l.map signedMag).sum := by
  rw [columnValue_unitProd]
  split
  next h => rw [sum_signedMag_of_zero h]; rfl
  next => exact valInt_ofInt_eighths _

/-- A saturated sum differs from the sum exactly when the sum leaves the range. -/
theorem satInt_32_ne_iff (t : Int) : satInt t 32 ≠ t ↔ t < -(2 ^ 31) ∨ 2 ^ 31 - 1 < t := by
  unfold satInt
  norm_num
  omega

end Sys2Proof.Machine

open Sys2Proof Sys2Proof.Machine

/-- Settles O13: integer products all have weight exponent 0, so the alignment of R64 drops no bit of them. -/
theorem integerColumnsExact : Obligations.IntegerColumnsExact := by
  intro f hf z old l b sum total
  have hint : isInt f = true := by rcases hf with rfl | rfl <;> rfl
  have hprods : (l.map fun p => mkProd .whole .whole (decodeElem f p.1) (decodeElem f p.2)) =
      (l.map fun p => intPair (codeInt f p.1) (codeInt f p.2)).map unitProd := by
    rw [List.map_map]
    exact List.map_congr_left fun p _ => mkProd_int hint p.1 p.2
  have hsum : ((l.map fun p => intPair (codeInt f p.1) (codeInt f p.2)).map signedMag).sum = sum := by
    rw [List.map_map]
    exact congrArg List.sum (List.map_congr_left fun p _ => signedMag_intPair _ _)
  rw [hprods, accAdd_int, valInt_columnValue, hsum]
  exact Prod.ext rfl (decide_eq_decide.mpr (satInt_32_ne_iff total))
end


/-! ## Fields of a number, and a map written key by key (R12, R76) -/

section
namespace Sys2Proof.Machine

theorem testBit_fld (w lo n j : Nat) : (fld w lo n).testBit j = (decide (j < n) && w.testBit (lo + j)) := by
  rw [fld, Nat.testBit_mod_two_pow, Nat.testBit_shiftRight]

theorem fld_lt (w lo n : Nat) : fld w lo n < 2 ^ n := Nat.mod_lt _ (Nat.two_pow_pos n)

/-- A field fits a word at least as wide. -/
theorem toNat_ofNat_fld {w n : Nat} (v lo : Nat) (h : n ≤ w) : (BitVec.ofNat w (fld v lo n)).toNat = fld v lo n := by
  rw [BitVec.toNat_ofNat]
  exact Nat.mod_eq_of_lt ((fld_lt ..).trans_le (Nat.pow_le_pow_right two_pos h))

/-- The bits of a number with a field replaced: those of the new value in the field, the old ones elsewhere. -/
theorem testBit_setFld (w lo n v j : Nat) :
    (setFld w lo n v).testBit j = if lo ≤ j ∧ j < lo + n then v.testBit (j - lo) else w.testBit j := by
  have low : w % 2 ^ lo < 2 ^ lo := Nat.mod_lt _ (Nat.two_pow_pos lo)
  have mid : v % 2 ^ n < 2 ^ n := Nat.mod_lt _ (Nat.two_pow_pos n)
  have hsum : setFld w lo n v = 2 ^ lo * (2 ^ n * (w >>> (lo + n)) + v % 2 ^ n) + w % 2 ^ lo := by
    simp only [setFld, Nat.shiftLeft_eq, pow_add]
    ring
  rw [hsum, Nat.testBit_two_pow_mul_add _ low, Nat.testBit_two_pow_mul_add _ mid]
  by_cases h1 : j < lo
  · rw [if_pos h1, if_neg (by omega), Nat.testBit_mod_two_pow, decide_eq_true h1, Bool.true_and]
  · rw [if_neg h1]
    by_cases h2 : j - lo < n
    · rw [if_pos h2, if_pos (by omega), Nat.testBit_mod_two_pow, decide_eq_true h2, Bool.true_and]
    · rw [if_neg h2, if_neg (by omega), Nat.testBit_shiftRight]
      congr 1
      omega

/-- Byte k of a number whose bytes p to p + n - 1 are replaced. -/
theorem elem_setFld (w p n v k : Nat) :
    elem (setFld w (8 * p) (8 * n) v) 8 k = if p ≤ k ∧ k < p + n then elem v 8 (k - p) else elem w 8 k := by
  apply Nat.eq_of_testBit_eq
  intro j
  by_cases hj : j < 8
  · split
    next h =>
      rw [elem, elem, testBit_fld, testBit_fld, testBit_setFld, if_pos (by omega)]
      congr 2
      omega
    next h => rw [elem, elem, testBit_fld, testBit_fld, testBit_setFld, if_neg (by omega)]
  · have out : ∀ d i, (elem d 8 i).testBit j = false := fun d i => by simp [elem, testBit_fld, hj]
    split <;> simp only [out]

/-- A byte below the width of a word is not cut off. -/
theorem elem_toNat_ofNat {w : Nat} (v k : Nat) (h : 8 * k + 8 ≤ w) : elem (BitVec.ofNat w v).toNat 8 k = elem v 8 k := by
  apply Nat.eq_of_testBit_eq
  intro j
  rw [elem, elem, testBit_fld, testBit_fld, BitVec.toNat_ofNat, Nat.testBit_mod_two_pow]
  by_cases hj : j < 8
  · simp [show 8 * k + j < w by omega]
  · simp [hj]

/-- A map after writes whose values depend on the key alone. -/
theorem mget_msetAll_map {α : Type} [DecidableEq α] {d : α} {m : SMap α} (f : Nat → α) (l : List Nat) (k : Nat)
    (w : mwf d m = true) : mget d (msetAll d m (l.map fun i => (i, f i))) k = if k ∈ l then f k else mget d m k := by
  induction l generalizing m with
  | nil => rfl
  | cons i l ih =>
    rw [List.map_cons, msetAll, ih (mwf_mset w)]
    by_cases hk : k ∈ l
    · simp [hk]
    · by_cases hi : k = i
      · simp [hi, mget_mset w]
      · simp [hk, hi, mget_mset_ne w hi]

end Sys2Proof.Machine
end


/-! ## What an array entry leaves of the units (R48-R63) -/

section
namespace Sys2Proof.Machine

variable {s : State} {t : TileId} {u : Upset} {e : TabEntry} {a b : Opd} {v : ArrayUnit} {n : Nat}

/-! ### An array entry at fire, by its kind (Table 2.2) -/

/-- A bank load at fire: the shadow bank and the load pointers. -/
def loadShadow (v : ArrayUnit) (e : TabEntry) (b : Opd) : ArrayUnit :=
  let l := bankLoad v.mode.toNat (eCufmt e) (eG e) v.lrow v.lpart v.shadow b
  { v with shadow := l.1, lrow := l.2.1, lpart := l.2.2 }

/-- The array an issue multiplies with: after its swap, if it swaps. -/
def swapped (v : ArrayUnit) (e : TabEntry) : ArrayUnit :=
  if eFlag2 e then { swapBanks v v.orient with ap := 0 } else v

/-- The array once an issue has stepped AP. -/
def apStepped (v : ArrayUnit) (n : Nat) : ArrayUnit :=
  { v with ap := (v.ap + 1) % arrDepth v.mode.toNat, busyTo := max v.busyTo (n + arrLatency v.mode.toNat) }

/-- The row a DRAIN reads. -/
def drainRow (v : ArrayUnit) (e : TabEntry) : Nat := if eFlag2 e then 0 else v.dp

/-- The array after a DRAIN. -/
def drained (v : ArrayUnit) (e : TabEntry) (n : Nat) : ArrayUnit :=
  { v with
    dp := (drainRow v e + 1) % arrDepth v.mode.toNat
    acc := if eFlag3 e then mset {} v.acc (drainRow v e) {} else v.acc
    vaccp := 0, busyTo := max v.busyTo (n + 1 + arrCols v.mode.toNat / 16) }

theorem arrayFire_load (h : eKind e = 1) : arrayFire v e a b n = { u := loadShadow v e b } := by
  simp only [arrayFire, h, if_true, loadShadow]

theorem arrayFire_loadsc (h : eKind e = 2) : arrayFire v e a b n = { u := arrayLoadsc v e b } := by
  simp [arrayFire, h]

theorem arrayFire_swap (h : eKind e = 3) : arrayFire v e a b n = { u := swapBanks v (bit (eCuflag e) 0) } := by
  simp [arrayFire, h]

theorem arrayFire_mac (h : isMacKind (eKind e) = true) : arrayFire v e a b n =
    { u := if eSrcb e = 0 then apStepped (swapped v e) n else loadShadow (apStepped (swapped v e) n) e b
      issue := some (arrayIssue (swapped v e) e a).1, gated := (arrayIssue (swapped v e) e a).2 } := by
  have hmode : (swapped v e).mode = v.mode := by unfold swapped; split <;> rfl
  have hk : eKind e ≠ 1 ∧ eKind e ≠ 2 ∧ eKind e ≠ 3 := by
    refine ⟨?_, ?_, ?_⟩ <;> intro hk <;> simp [isMacKind, hk] at h
  simp only [arrayFire, hk, h, if_false, if_true, ← hmode]
  rfl

theorem arrayFire_drain (h : eKind e = 14) :
    arrayFire v e a b n = { u := drained v e n, drain := some (mget {} v.acc (drainRow v e)) } := by
  simp only [arrayFire, h]
  rfl

theorem arrayFire_mode (h : eKind e = 15) :
    arrayFire v e a b n = { u := { mode := BitVec.ofNat 2 (eFlagLow e), busyTo := n + 1 }, discard := true } := by
  simp [arrayFire, h, isMacKind]

/-! ### The work in flight after an array entry -/

/-- The flights of a DRAIN: a unit of the row in each cycle from the next one on. -/
def drainFlights (e : TabEntry) (slots : List Nat) (n mode : Nat) (r : AccRow) : List Flight :=
  (drainUnits mode r).zipIdx.map fun p =>
    ⟨n + 1 + p.2, .drain false (mkEmit e slots[p.2]? p.1 r.poison (decide (p.2 + 1 = (drainUnits mode r).length)))⟩

/-- The work in flight after an array entry. -/
def arrayFlights (e : TabEntry) (slots : List Nat) (n mode : Nat) (fx : ArrayFx) (l : List Flight) : List Flight :=
  let l := if fx.discard then
      l.filter fun f => match f.work with
        | .issue .arr _ => false
        | _ => true
    else l
  let l := match fx.issue with
    | some r => addFlight l { vis := n + arrLatency mode, work := .issue .arr [r] }
    | none => l
  match fx.drain with
  | some r => (drainFlights e slots n mode r).foldl addFlight l
  | none => l

theorem units_fireArray (env : TileEnv) (e : TabEntry) (a b : Opd) (slots : List Nat) (q : Tile) :
    units (fireArray env e a b slots q) =
      let fx := arrayFire q.arr e a b q.tab.tc
      (fx.u, q.sp, q.vfire, q.vshow, arrayFlights e slots q.tab.tc q.arr.mode.toNat fx q.fly) := by
  have hb : ∀ c n (p : Tile), (bump env.core c n p).arr = p.arr ∧ (bump env.core c n p).sp = p.sp ∧
      (bump env.core c n p).vfire = p.vfire ∧ (bump env.core c n p).vshow = p.vshow ∧
      (bump env.core c n p).fly = p.fly := fun c n p => units_of (units_bump ..)
  unfold fireArray arrayFlights
  dsimp only
  generalize arrayFire q.arr e a b q.tab.tc = fx
  cases fx.discard <;> cases fx.issue <;> cases fx.drain <;> simp [units, hb, drainFlights] <;> rfl

/-- The discarded work is every issue of the array, and nothing else. -/
theorem mem_arrayFlights_discard {slots : List Nat} {mode : Nat} {w : ArrayUnit} {l : List Flight} {f : Flight} :
    f ∈ arrayFlights e slots n mode { u := w, discard := true } l ↔
      f ∈ l ∧ ∀ rows, f.work ≠ .issue .arr rows := by
  show f ∈ l.filter _ ↔ _
  rw [List.mem_filter]
  refine and_congr_right fun _ => ?_
  split
  next rows h => simp [h]
  next h => exact ⟨fun _ => h, fun _ => rfl⟩

/-! ### A firing array command -/

/-- A command of the dense array whose entry fires: the units are those arrayFire leaves, and the memory unit is that of the
fired tile. -/
theorem tabCommand_fires_array {k : Nat} (h : Fires s t u e) (hu : eUnit e = 1) (hk : eKind e = k) :
    ∃ s', tabCommand (fun e => decide (eUnit e = 1 ∧ eKind e = k)) t u s = .next s' ∧
      let pre := atStart s t
      let a := operandA s t u e
      let b := operandB s t u e
      let fx := arrayFire pre.arr e a b pre.tab.tc
      (tileOf s' t).arr = fx.u ∧ (tileOf s' t).sp = pre.sp ∧ (tileOf s' t).vfire = pre.vfire ∧
      (tileOf s' t).fly = arrayFlights e (unitSlots (envOf s t) e a b pre) pre.tab.tc pre.arr.mode.toNat fx pre.fly ∧
      (tileOf s' t).mu = (firedTile s t u e).mu := by
  obtain ⟨s', o, hn, -, htile, -⟩ :=
    tabCommand_fires_outst (sel := fun e => decide (eUnit e = 1 ∧ eKind e = k)) h (decide_eq_true ⟨hu, hk⟩)
  have hunits : units (tileOf s' t) = units (fireArray (envOf s t) e (operandA s t u e) (operandB s t u e)
      (unitSlots (envOf s t) e (operandA s t u e) (operandB s t u e) (atStart s t))
      (unitStart (envOf s t) u e (atStart s t))) := by
    have hf : units (tileOf s' t) = units (firedTile s t u e) := by rw [htile]; rfl
    rw [hf, firedTile, units_fireTile]
    dsimp only
    rw [unitFire, if_neg (by simp [hu]), if_pos hu]
    rfl
  rw [units_fireArray, unitStart_tab] at hunits
  obtain ⟨harr, hsp, hvf, hvs, hfly⟩ := units_of (unitStart_units (envOf s t) u e (atStart s t))
  simp only [harr, hsp, hvf, hvs, hfly, units, Prod.mk.injEq] at hunits
  obtain ⟨harr', hsp', hvf', -, hfly'⟩ := hunits
  exact ⟨s', hn, harr', hsp', hvf', hfly', by rw [htile]⟩

end Sys2Proof.Machine
end

/-! ## DRAIN of the dense array (R60, R156) -/

section
namespace Sys2Proof.Machine

variable {s : State} {t : TileId} {u : Upset} {e : TabEntry} {a b : Opd} {env : TileEnv} {q : Tile} {g : AddrGen}
  {mode m n : Nat}

/-! ### The slots of a DRAIN -/

theorem repeat_succ_inner {α : Type*} (f : α → α) (n : Nat) (x : α) :
    Nat.repeat f (n + 1) x = Nat.repeat f n (f x) := by
  induction n with
  | zero => rfl
  | succ n ih =>
    show f (Nat.repeat f (n + 1) x) = f (Nat.repeat f n (f x))
    rw [ih]

theorem agRun_snd (g : AddrGen) (n : Nat) : (agRun g n).2 = Nat.repeat (agStep · 1) n g := by
  induction n generalizing g with
  | zero => rfl
  | succ n ih => rw [repeat_succ_inner, ← ih]; rfl

theorem getElem?_agRun (h : m < n) : (agRun g n).1[m]? = some (Nat.repeat (agStep · 1) m g).cur.toNat := by
  induction n generalizing g m with
  | zero => omega
  | succ n ih =>
    cases m with
    | zero => rfl
    | succ m =>
      rw [repeat_succ_inner]
      exact ih (by omega)

/-- A row is one unit of 16 columns in mode 0 alone. -/
theorem arrCols_div_eq_one_iff (mode : Nat) : arrCols mode / 16 = 1 ↔ ¬ arrCols mode > 16 := by
  match mode with
  | 0 | 1 | 2 => decide
  | mode + 3 =>
    have h16 : arrCols (mode + 3) = 16 := rfl
    rw [h16]
    decide

/-- The slot of unit m of a DRAIN that writes the scratchpad. -/
def drainSlot (g : AddrGen) (e : TabEntry) (mode m : Nat) : Nat :=
  if arrCols mode / 16 = 1 then agAddr g (eWrop e) else (Nat.repeat (agStep · 1) m g).cur.toNat

theorem writeTargets_array (hu : eUnit e = 1) (hd : dstMu e = true) :
    writeTargets q e none =
      if arrCols q.arr.mode.toNat / 16 = 1 then ([agAddr q.mu.ag1 (eWrop e)], agStep q.mu.ag1 (eWrop e))
      else agRun q.mu.ag1 (arrCols q.arr.mode.toNat / 16) := by
  simp only [writeTargets, hd, hu, arrCols_div_eq_one_iff]
  by_cases hc : arrCols q.arr.mode.toNat > 16 <;> simp [hc]

/-- Unit m of a DRAIN writes the slot its generator gives it, or none. -/
theorem getElem?_unitSlots_array (hu : eUnit e = 1) (hm : m < arrCols q.arr.mode.toNat / 16) :
    (unitSlots env e a b q)[m]? = if dstMu e then some (drainSlot q.mu.ag1 e q.arr.mode.toNat m) else none := by
  have hs : unitSlots env e a b q = (writeTargets q e none).1 := by simp [unitSlots, unitTargets, hu]
  rw [hs]
  cases hd : dstMu e
  · simp [writeTargets, hd]
  · rw [writeTargets_array hu hd, drainSlot]
    by_cases h1 : arrCols q.arr.mode.toNat / 16 = 1
    · have h0 : m = 0 := by omega
      simp [h1, h0]
    · simp only [if_neg h1, if_true]
      exact getElem?_agRun hm

theorem fireTile_ag1_array (hu : eUnit e = 1) : (fireTile env u e q).mu.ag1 =
    if dstMu e then (if arrCols q.arr.mode.toNat / 16 = 1 then agStep q.mu.ag1 (eWrop e)
      else Nat.repeat (agStep · 1) (arrCols q.arr.mode.toNat / 16) q.mu.ag1) else q.mu.ag1 := by
  obtain ⟨p, a, b, hp, hpm, -⟩ := fireTile_effects env u e q
  obtain ⟨r, hr, -, -⟩ := fireEffects_afterUnit env u e a b q
  obtain ⟨queues, hctl, -⟩ := applyCtl_mu p e
  have ht : unitTargets env e a b q = writeTargets q e none := by simp [unitTargets, hu]
  rw [hp, hctl, hpm, hr, ht]
  show (writeTargets q e none).2 = _
  cases hd : dstMu e
  · simp [writeTargets, hd]
  · rw [writeTargets_array hu hd, if_pos rfl]
    split
    · rfl
    · exact agRun_snd ..

/-! ### The flights of a DRAIN -/

theorem length_drainUnits (mode : Nat) (r : AccRow) : (drainUnits mode r).length = arrCols mode / 16 := by
  simp [drainUnits]

theorem length_drainFlights (e : TabEntry) (slots : List Nat) (n mode : Nat) (r : AccRow) :
    (drainFlights e slots n mode r).length = arrCols mode / 16 := by simp [drainFlights, length_drainUnits]

/-- Unit m of a DRAIN (R60). -/
theorem getElem?_drainFlights {slots : List Nat} {r : AccRow} (hm : m < arrCols mode / 16) :
    (drainFlights e slots n mode r)[m]? = some ⟨n + 1 + m, .drain false
      (mkEmit e slots[m]? (BitVec.ofNat 512 (fld r.bits.toNat (512 * m) 512)) r.poison
        (decide (m + 1 = arrCols mode / 16)))⟩ := by
  have hd : (drainUnits mode r)[m]? = some (BitVec.ofNat 512 (fld r.bits.toNat (512 * m) 512)) := by
    simp [drainUnits, hm]
  simp [drainFlights, List.getElem?_zipIdx, hd, length_drainUnits]

theorem mget_drained {v : ArrayUnit} (w : mwf {} v.acc = true) (n r : Nat) :
    mget {} (drained v e n).acc r = if r = drainRow v e ∧ eFlag3 e then {} else mget {} v.acc r := by
  have hacc : (drained v e n).acc = if eFlag3 e then mset {} v.acc (drainRow v e) {} else v.acc := rfl
  rw [hacc]
  cases h3 : eFlag3 e
  · rw [if_neg Bool.false_ne_true, if_neg fun h => Bool.false_ne_true h.2]
  · rw [if_pos rfl]
    by_cases hr : r = drainRow v e
    · rw [if_pos ⟨hr, rfl⟩, hr, mget_mset w]
    · rw [if_neg fun h => hr h.1, mget_mset_ne w hr]

end Sys2Proof.Machine

open Sys2Proof Sys2Proof.Machine

/-- Settles O14: the flights of a DRAIN by index (getElem?_drainFlights), their slots by the write generator. -/
theorem arrayDrain : Obligations.ArrayDrain := by
  intro s t u e h hu hk w
  obtain ⟨s', hn, harr, hsp, hvf, hfly, hmu⟩ := tabCommand_fires_array h hu hk
  rw [arrayFire_drain hk] at harr hfly
  refine ⟨s', hn, ⟨_, length_drainFlights .., hfly, fun m hm => ⟨_, getElem?_drainFlights hm, ?_⟩⟩, fun r => ?_, ?_,
    hsp, hvf, ?_⟩
  · exact ⟨toNat_ofNat_fld _ _ le_rfl, rfl, rfl, rfl, rfl, getElem?_unitSlots_array hu hm⟩
  · rw [harr]
    exact mget_drained w _ r
  · rw [harr]
    rfl
  · rw [hmu]
    exact fireTile_ag1_array hu
end

/-! ## Loads of the banks, swaps and modes (R53, R55, R57, R63) -/

section
namespace Sys2Proof.Machine

variable {s : State} {t : TileId} {u : Upset} {e : TabEntry} {b : Opd} {mode f g lrow lpart : Nat} {bk : Bank}

/-! ### A load of a row or a part of a row (R53) -/

/-- The bits a load leaves in its row. -/
def loadedRow (mode f g lpart old : Nat) (b : Opd) : Nat :=
  let rb := rowBytes mode f
  if rb ≤ 64 then fld b.data.toNat (8 * rb * (if rb ≤ 32 then g else 0)) (8 * rb)
  else setFld old (8 * (64 * lpart)) (8 * min 64 (rb - 64 * lpart)) b.data.toNat

/-- The bank a load writes its row into: the first load of a bank gives it its format, validity and unity scales. -/
def openedBank (f lrow lpart : Nat) (bk : Bank) (b : Opd) : Bank :=
  let bk := if lrow = 0 ∧ lpart = 0 then
      { bk with fmt := BitVec.ofNat 4 f, valid := true, poison := false, scales := [] } else bk
  { bk with poison := bk.poison || b.poison }

theorem openedBank_first (h : lrow = 0 ∧ lpart = 0) : openedBank f lrow lpart bk b =
    { bk with fmt := BitVec.ofNat 4 f, valid := true, poison := b.poison, scales := [] } := by
  simp [openedBank, h]

theorem openedBank_later (h : ¬ (lrow = 0 ∧ lpart = 0)) :
    openedBank f lrow lpart bk b = { bk with poison := bk.poison || b.poison } := by
  rw [openedBank, if_neg h]

theorem openedBank_rows : (openedBank f lrow lpart bk b).rows = bk.rows := by
  unfold openedBank
  split <;> rfl

theorem bankLoad_eq (mode f g lrow lpart : Nat) (bk : Bank) (b : Opd) : bankLoad mode f g lrow lpart bk b =
    ({ openedBank f lrow lpart bk b with
        rows := mset 0 bk.rows lrow (BitVec.ofNat 2048 (loadedRow mode f g lpart (mget 0 bk.rows lrow).toNat b)) },
      if rowBytes mode f ≤ max 64 (64 * lpart + 64) then ((lrow + 1) % arrRows mode, 0) else (lrow, lpart + 1)) := by
  rw [← openedBank_rows (f := f) (lrow := lrow) (lpart := lpart) (b := b)]
  unfold bankLoad openedBank
  dsimp only
  generalize (if lrow = 0 ∧ lpart = 0 then _ else bk) = bk
  by_cases h32 : rowBytes mode f ≤ 32
  · have h64 : rowBytes mode f ≤ 64 := by omega
    have hlast : rowBytes mode f ≤ 64 * lpart + 64 := by omega
    simp [loadedRow, h32, h64, hlast]
  · by_cases h64 : rowBytes mode f ≤ 64
    · have hlast : rowBytes mode f ≤ 64 * lpart + 64 := by omega
      simp [loadedRow, h32, h64, hlast]
    · simp only [loadedRow, h32, h64, le_max_iff, false_or, if_false, ← mul_assoc, mul_add]
      split <;> simp_all

/-- A row of at most 64 bytes fits its bank row. -/
theorem toNat_loadedRow_short {old : Nat} (h : rowBytes mode f ≤ 64) :
    (BitVec.ofNat 2048 (loadedRow mode f g lpart old b)).toNat =
      fld b.data.toNat (8 * rowBytes mode f * (if rowBytes mode f ≤ 32 then g else 0)) (8 * rowBytes mode f) := by
  rw [loadedRow, if_pos h, toNat_ofNat_fld _ _ (by omega)]

/-- A part of a longer row replaces its own bytes. -/
theorem elem_loadedRow_long {old k : Nat} (h : 64 < rowBytes mode f) (hk : k < 256) :
    elem (BitVec.ofNat 2048 (loadedRow mode f g lpart old b)).toNat 8 k =
      if 64 * lpart ≤ k ∧ k < 64 * lpart + min 64 (rowBytes mode f - 64 * lpart)
        then elem b.data.toNat 8 (k - 64 * lpart) else elem old 8 k := by
  rw [elem_toNat_ofNat _ _ (by omega), loadedRow, if_neg (by omega), elem_setFld]

/-- A load at fire, by the fields of the array it writes. -/
theorem loadShadow_eq (v : ArrayUnit) (e : TabEntry) (b : Opd) :
    let r := loadShadow v e b
    r = { v with shadow := r.shadow, lrow := r.lrow, lpart := r.lpart } ∧
    r.shadow = { openedBank (eCufmt e) v.lrow v.lpart v.shadow b with rows := r.shadow.rows } ∧
    r.shadow.rows = mset 0 v.shadow.rows v.lrow (BitVec.ofNat 2048
      (loadedRow v.mode.toNat (eCufmt e) (eG e) v.lpart (mget 0 v.shadow.rows v.lrow).toNat b)) ∧
    (if rowBytes v.mode.toNat (eCufmt e) ≤ max 64 (64 * v.lpart + 64)
      then r.lrow = (v.lrow + 1) % arrRows v.mode.toNat ∧ r.lpart = 0 else r.lrow = v.lrow ∧ r.lpart = v.lpart + 1) := by
  rw [loadShadow, bankLoad_eq]
  refine ⟨rfl, rfl, rfl, ?_⟩
  split <;> exact ⟨rfl, rfl⟩

theorem eCufmt_lt (e : TabEntry) : eCufmt e < 2 ^ 4 := Nat.mod_lt _ (by decide)

/-! ### Column scales and streaming scales (R57) -/

theorem arrayLoadsc_streaming {v : ArrayUnit} (h : bit (eCuflag e) 0 = true) :
    (∀ f < 4, (mget 127 (arrayLoadsc v e b).ascl f).toNat = elem b.data.toNat 8 (f / 2 ^ eG e)) ∧
      arrayLoadsc v e b = { v with ascl := (arrayLoadsc v e b).ascl, scPoison := b.poison } := by
  simp only [arrayLoadsc, h, if_true, and_true]
  intro f hf
  rw [mget_msetAll_map _ _ _ mwf_nil, if_pos (List.mem_range.mpr hf)]
  exact toNat_ofNat_fld _ _ le_rfl

theorem arrayLoadsc_columns {v : ArrayUnit} (h : bit (eCuflag e) 0 = false) :
    (∀ c < arrCols v.mode.toNat, (mget 127 (arrayLoadsc v e b).shadow.scales c).toNat = elem b.data.toNat 8 c) ∧
      arrayLoadsc v e b = { v with shadow := { v.shadow with
        scales := (arrayLoadsc v e b).shadow.scales, poison := v.shadow.poison || b.poison } } := by
  simp only [arrayLoadsc, h, Bool.false_eq_true, if_false, and_true]
  intro c hc
  rw [mget_msetAll_map _ _ _ mwf_nil, if_pos (List.mem_range.mpr hc)]
  exact toNat_ofNat_fld _ _ le_rfl

end Sys2Proof.Machine

open Sys2Proof Sys2Proof.Machine

/-- Settles O11: each operation is its equation of arrayFire, and a load is that of its row (bankLoad_eq). -/
theorem arrayBankOperations : Obligations.ArrayBankOperations := by
  intro s t u e h hu a b mode ends
  refine ⟨fun hk w => ?_, fun hk => ?_, fun hk => ?_, fun hk => ?_⟩
  case refine_1 =>
    obtain ⟨s', hn, harr, hsp, hvf, hfly, -⟩ := tabCommand_fires_array h hu hk
    rw [arrayFire_load hk] at harr hfly
    refine ⟨s', hn, ?_, hsp, hvf, hfly⟩
    rw [harr]
    obtain ⟨hframe, hbank, hrows, hnext⟩ := loadShadow_eq a e b
    generalize loadShadow a e b = r at hframe hbank hrows hnext ⊢
    refine ⟨hframe, fun hrb => ?_, fun hrb k hk => ?_, ?_, ?_, fun k hk => ?_⟩
    · simp only [hrows, mget_mset w]
      exact toNat_loadedRow_short hrb
    · simp only [hrows, mget_mset w]
      exact elem_loadedRow_long hrb hk
    · exact hnext
    · split
      next h0 =>
        rw [hbank, openedBank_first h0]
        exact ⟨BitVec.toNat_ofNat .. ▸ Nat.mod_eq_of_lt (eCufmt_lt e), rfl, rfl, rfl⟩
      next h0 =>
        rw [hbank, openedBank_later h0]
        exact ⟨rfl, rfl, rfl, rfl⟩
    · simp only [hrows, mget_mset_ne w hk]
  case refine_2 =>
    obtain ⟨s', hn, harr, hsp, hvf, hfly, -⟩ := tabCommand_fires_array h hu hk
    rw [arrayFire_loadsc hk] at harr hfly
    refine ⟨s', hn, ?_, hsp, hvf, hfly⟩
    rw [harr]
    split
    next h0 => exact arrayLoadsc_streaming h0
    next h0 => exact arrayLoadsc_columns (Bool.not_eq_true _ ▸ h0)
  case refine_3 =>
    obtain ⟨s', hn, harr, hsp, hvf, hfly, -⟩ := tabCommand_fires_array h hu hk
    rw [arrayFire_swap hk] at harr hfly
    exact ⟨s', hn, harr, hsp, hvf, hfly⟩
  case refine_4 =>
    obtain ⟨s', hn, harr, hsp, hvf, hfly, -⟩ := tabCommand_fires_array h hu hk
    rw [arrayFire_mode hk] at harr hfly
    refine ⟨s', hn, harr, fun f hf => ?_, fun f hf hw => ?_, hsp, hvf⟩ <;> rw [hfly] at *
    · exact (mem_arrayFlights_discard.mp hf).2
    · exact mem_arrayFlights_discard.mpr ⟨hf, hw⟩
end

/-! ## Issues of the dense array (R45, R55, R58, R59, R61, R64, R67, R71) -/

section
namespace Sys2Proof.Machine

variable {e : TabEntry} {a b : Opd} {v : ArrayUnit} {n : Nat}

/-! ### The array an issue multiplies with -/

theorem swapped_active : (swapped v e).active = if eFlag2 e then v.shadow else v.active := by
  unfold swapped
  split <;> rfl

theorem swapped_shadow : (swapped v e).shadow = if eFlag2 e then v.active else v.shadow := by
  unfold swapped
  split <;> rfl

theorem swapped_ap : (swapped v e).ap = if eFlag2 e then 0 else v.ap := by
  unfold swapped
  split <;> rfl

/-- A swap leaves the mode, the orientation, the streaming scales and the accumulator. -/
theorem swapped_frame : (swapped v e).mode = v.mode ∧ (swapped v e).orient = v.orient ∧ (swapped v e).ascl = v.ascl ∧
    (swapped v e).scPoison = v.scPoison ∧ (swapped v e).acc = v.acc := by
  unfold swapped
  split <;> exact ⟨rfl, rfl, rfl, rfl, rfl⟩

/-! ### Its column values -/

/-- The column values of an issue, first column first. -/
def columnVals (v : ArrayUnit) (e : TabEntry) (a : Opd) : List Val :=
  (List.range (arrCols v.mode.toNat)).map fun c => columnValue
    (if isBlockScaled (eCufmt e) then scaleExp (mget 127 v.ascl (eFlagLow e)) (mget 127 v.active.scales c) else some 0)
    (columnProds v.active v.orient v.mode.toNat (eKind e) (eCufmt e) (eFlagLow e) c a)

theorem nth_range_map {α : Type} (f : Nat → α) (d : α) {c n : Nat} (h : c < n) :
    nth ((List.range n).map f) c d = f c := by
  simp [nth, List.getD, h]

/-- The row addition of an issue. -/
theorem arrayIssue_fst (v : ArrayUnit) (e : TabEntry) (a : Opd) : (arrayIssue v e a).1 =
    { row := v.ap, z := eFlag3 e, int := isInt (eCufmt e), groups := [columnVals v e a]
      poison := a.poison || v.active.poison || (isBlockScaled (eCufmt e) && v.scPoison) } := by
  simp only [arrayIssue, columnVals, RowAdd.mk.injEq, List.cons.injEq, true_and, and_true]
  exact List.map_congr_left fun c hc => by rw [nth_range_map _ _ (List.mem_range.mp hc)]

/-- The products of a column, piece by piece (Tables 2.2 and 2.7). -/
theorem columnProds_eq {bk : Bank} {tr : Bool} {mode k f sub c : Nat} {pa pb : Piece} (h : kindPieces k = (pa, pb)) :
    columnProds bk tr mode k f sub c a = (List.range (arrRows mode * perCell f)).map fun i =>
      mkProd pa pb (decodeElem f (bankElem bk tr f i c))
        (decodeElem f (fld a.data.toNat (8 * streamBytes mode f * sub + fmtBits f * i) (fmtBits f))) := by
  rw [columnProds, h]

theorem length_columnVals : (columnVals v e a).length = arrCols v.mode.toNat := by simp [columnVals]

theorem getElem?_columnVals {c : Nat} (h : c < arrCols v.mode.toNat) : (columnVals v e a)[c]? = some (columnValue
    (if isBlockScaled (eCufmt e) then scaleExp (mget 127 v.ascl (eFlagLow e)) (mget 127 v.active.scales c) else some 0)
    (columnProds v.active v.orient v.mode.toNat (eKind e) (eCufmt e) (eFlagLow e) c a)) := by
  simp [columnVals, h]

/-- The array once an issue has fired: AP has stepped, and the load that goes with it writes the shadow bank and the load
pointers at most. -/
theorem issued_frame (v : ArrayUnit) (e : TabEntry) (b : Opd) (n : Nat) :
    let r := if eSrcb e = 0 then apStepped v n else loadShadow (apStepped v n) e b
    r.ap = (v.ap + 1) % arrDepth v.mode.toNat ∧ r.active = v.active ∧ r.acc = v.acc ∧
      (eSrcb e = 0 → r.shadow = v.shadow) := by
  dsimp only
  split
  · exact ⟨rfl, rfl, rfl, fun _ => rfl⟩
  next h => exact ⟨rfl, rfl, rfl, fun h0 => absurd h0 h⟩

/-- Every command of macRows is the issue of its kind, with the pieces of that kind. -/
theorem macRows_kind : ∀ row ∈ macRows, isMacKind row.2.1 = true ∧ kindPieces row.2.1 = row.2.2 ∧
    ∀ t u s, exec (row.1 t u) s = tabCommand (fun e => decide (eUnit e = 1 ∧ eKind e = row.2.1)) t u s := by
  simp only [macRows, List.forall_mem_cons, List.not_mem_nil, false_implies, implies_true, and_true]
  refine ⟨?_, ?_, ?_, ?_, ?_, ?_, ?_, ?_, ?_, ?_⟩ <;> exact ⟨rfl, rfl, fun _ _ _ => rfl⟩

end Sys2Proof.Machine

open Sys2Proof Sys2Proof.Machine

/-- Settles O12: the row addition of an issue (arrayIssue_fst) on the array after its swap, column by column. -/
theorem arrayIssues : Obligations.ArrayIssues := by
  intro row hrow s t u e h hu hk
  obtain ⟨hmac, hpieces, hexec⟩ := macRows_kind row hrow
  obtain ⟨s', hn, harr, hsp, hvf, hfly, -⟩ := tabCommand_fires_array h hu hk
  rw [arrayFire_mac (hk ▸ hmac)] at harr hfly
  obtain ⟨hap, hactive, hacc, hshadow⟩ :=
    issued_frame (swapped (atStart s t).arr e) e (operandB s t u e) (atStart s t).tab.tc
  obtain ⟨hmode, horient, hascl, hscp, hacc'⟩ := swapped_frame (v := (atStart s t).arr) (e := e)
  refine ⟨s', (hexec t u s).trans hn, (arrayIssue (swapped (atStart s t).arr e) e (operandA s t u e)).1, hfly, ?_⟩
  rw [harr, arrayIssue_fst]
  dsimp only
  rw [hap, hactive, hacc, hacc', swapped_active, swapped_ap, hmode, hscp]
  refine ⟨rfl, rfl, rfl, rfl, ⟨_, rfl, ?_, fun c hc => ?_⟩, rfl, rfl, rfl, fun h0 => (hshadow h0).trans swapped_shadow,
    hsp, hvf⟩
  · rw [length_columnVals, hmode]
  · rw [getElem?_columnVals (by rwa [hmode]), hk, columnProds_eq hpieces, hmode, hascl, horient, swapped_active]
end

/-! ## Elements of any width (R76) -/

section
namespace Sys2Proof.Machine

theorem testBit_elem (d b k j : Nat) : (elem d b k).testBit j = (decide (j < b) && d.testBit (b * k + j)) :=
  testBit_fld ..

/-- Bit j of element k lies among elements p to p + n - 1 as k does. -/
theorem bit_in_run_iff {b j : Nat} (hj : j < b) (p n k : Nat) :
    (b * p ≤ b * k + j ∧ b * k + j < b * p + b * n) ↔ p ≤ k ∧ k < p + n := by
  have hk : (b * k + j) / b = k := by rw [Nat.mul_add_div (by omega), Nat.div_eq_of_lt hj, add_zero]
  rw [← mul_add, mul_comm b p, mul_comm b (p + n), ← Nat.le_div_iff_mul_le (by omega),
    ← Nat.div_lt_iff_lt_mul (by omega), hk]

/-- Element k of a number whose elements p to p + n - 1 are replaced. -/
theorem elem_setFld_run (w b p n v k : Nat) :
    elem (setFld w (b * p) (b * n) v) b k = if p ≤ k ∧ k < p + n then elem v b (k - p) else elem w b k := by
  apply Nat.eq_of_testBit_eq
  intro j
  by_cases hj : j < b
  · rw [testBit_elem, testBit_setFld]
    simp only [bit_in_run_iff hj]
    split
    next h => rw [testBit_elem, Nat.mul_sub, Nat.sub_add_comm (Nat.mul_le_mul_left b h.1)]
    next => rw [testBit_elem]
  · split <;> simp [testBit_elem, hj]

/-- A field above the one replaced stands. -/
theorem fld_setFld_above {w lo n v m c : Nat} (h : lo + n ≤ m) : fld (setFld w lo n v) m c = fld w m c := by
  apply Nat.eq_of_testBit_eq
  intro j
  rw [testBit_fld, testBit_setFld, if_neg (by omega), testBit_fld]

/-- A field below the width of a word is not cut off. -/
theorem fld_toNat_ofNat {w : Nat} (v lo n : Nat) (h : lo + n ≤ w) : fld (BitVec.ofNat w v).toNat lo n = fld v lo n := by
  apply Nat.eq_of_testBit_eq
  intro j
  rw [testBit_fld, testBit_fld, BitVec.toNat_ofNat, Nat.testBit_mod_two_pow]
  by_cases hj : j < n
  · simp [show lo + j < w by omega]
  · simp [hj]

/-- An element that a word has room for is not cut off. -/
theorem elem_toNat_ofNat_of_lt {w b k : Nat} (v : Nat) (h : k < w / b) : elem (BitVec.ofNat w v).toNat b k = elem v b k :=
  fld_toNat_ofNat _ _ _ (by
    have := Nat.mul_le_of_le_div b (k + 1) w h
    linarith)

/-- The elements of a joined list are those of the list (R76). -/
theorem elem_joinElems (b : Nat) (l : List Nat) (k : Nat) : elem (joinElems b l) b k = nth l k 0 % 2 ^ b := by
  induction l generalizing k with
  | nil => simp [joinElems, elem, fld, nth]
  | cons v l ih =>
    cases k with
    | zero => simp [joinElems, elem, fld, nth, Nat.shiftLeft_eq]
    | succ k =>
      have drop : (v % 2 ^ b + joinElems b l <<< b) >>> b = joinElems b l := by
        rw [Nat.shiftLeft_eq, Nat.shiftRight_eq_div_pow, Nat.add_mul_div_right _ _ (Nat.two_pow_pos b),
          Nat.div_eq_of_lt (Nat.mod_lt _ (Nat.two_pow_pos b)), zero_add]
      rw [joinElems, elem, fld, Nat.mul_succ, Nat.add_comm (b * k), Nat.shiftRight_add, drop]
      exact ih k

end Sys2Proof.Machine
end

/-! ## A firing entry of the vector pipeline (R98, R104, R108) -/

section
namespace Sys2Proof.Machine

variable {s : State} {t : TileId} {u : Upset} {e : TabEntry} {sel : TabEntry → Bool} {env : TileEnv} {q : Tile}

/-! ### The count of stochastic converts -/

theorem popSrc_srn (free : Nat) (q : Tile) (n : Nat) : (popSrc free q n).tab.srn = q.tab.srn := by
  unfold popSrc
  split
  · rfl
  · split <;> rfl

theorem pops_srn (free : Nat) (l : List Nat) (q : Tile) : (l.foldl (popSrc free) q).tab.srn = q.tab.srn := by
  induction l generalizing q with
  | nil => rfl
  | cons n l ih => rw [List.foldl_cons, ih, popSrc_srn]

theorem afterUnit_srn {slots : List Nat} {g : AddrGen} : (afterUnit env e slots g q).tab.srn = q.tab.srn :=
  pops_srn _ _ (applyTags q e slots)

/-- Of a firing entry only the unit's own operation moves the count. -/
theorem fireTile_srn (env : TileEnv) (u : Upset) (e : TabEntry) (q : Tile) : (fireTile env u e q).tab.srn =
    let a := upsetOpd u (eSrca e) (readSrc q e (eSrca e))
    let b := upsetOpd u (eSrcb e) (readSrc q e (eSrcb e))
    (unitFire env e a b (vecResult env e a b q) (unitSlots env e a b q) (unitStart env u e q)).tab.srn := by
  unfold fireTile
  dsimp only
  rw [applyCtl_tab_frame]
  simp only [bump_tab, countCycle, fireEffects, afterUnit_srn, vecResult_upset, unitSlots_upset]
  rfl

theorem fireVector_srn (r : VecOut) (v : ArrayUnit) (slots : List Nat) : (fireVector env e r v slots q).tab.srn =
    if isConvertClass (eCuop e) then srnAfter e q.tab.srn else q.tab.srn := by
  unfold fireVector srnAfter
  cases isConvertClass (eCuop e) <;> by_cases h : eCuflag e % 4 = 2 <;> simp [h]

/-! ### The units after the firing -/

theorem units_fireVector (r : VecOut) (v : ArrayUnit) (slots : List Nat) : units (fireVector env e r v slots q) =
    (v, q.sp, r.buf, q.vshow, addFlight q.fly ⟨q.tab.tc + 6,
      .vec (r.out.map fun p => mkEmit e slots.head? p.1 p.2 true) r.fx r.buf⟩) := by
  obtain ⟨-, hsp, -, hvs, hfly⟩ := units_of (units_bump env.core .vecOps 1 q)
  simp only [fireVector, units, hsp, hvs, hfly, bump_tab]

/-- A command of the vector pipeline whose entry fires. -/
theorem tabCommand_fires_vector (h : Fires s t u e) (hu : eUnit e = 3) (hs : sel e = true) :
    ∃ s', tabCommand sel t u s = .next s' ∧
      let pre := atStart s t
      let a := operandA s t u e
      let b := operandB s t u e
      let r := vecResult (envOf s t) e a b pre
      (tileOf s' t).arr = r.2 ∧ (tileOf s' t).sp = pre.sp ∧ (tileOf s' t).vfire = r.1.buf ∧
      (tileOf s' t).fly = addFlight pre.fly ⟨pre.tab.tc + 6,
        .vec (r.1.out.map fun p => mkEmit e (unitSlots (envOf s t) e a b pre).head? p.1 p.2 true) r.1.fx r.1.buf⟩ ∧
      (tileOf s' t).tab.srn = if isConvertClass (eCuop e) then srnAfter e pre.tab.srn else pre.tab.srn := by
  obtain ⟨s', o, hn, -, htile, -⟩ := tabCommand_fires_outst h hs
  refine ⟨s', hn, ?_⟩
  have hunit : ∀ a b r slots q, unitFire (envOf s t) e a b r slots q = fireVector (envOf s t) e r.1 r.2 slots q := by
    intro a b r slots q
    simp [unitFire, hu]
  have hunits : units (tileOf s' t) = units (firedTile s t u e) := by rw [htile]; rfl
  have hsrn : (tileOf s' t).tab.srn = (firedTile s t u e).tab.srn := by rw [htile]
  rw [firedTile, units_fireTile] at hunits
  rw [firedTile, fireTile_srn] at hsrn
  simp only [hunit, units_fireVector, fireVector_srn, unitStart_tab] at hunits hsrn
  obtain ⟨-, hsp, -, -, hfly⟩ := units_of (unitStart_units (envOf s t) u e (atStart s t))
  simp only [hsp, hfly, units, Prod.mk.injEq] at hunits
  obtain ⟨harr', hsp', hvf', -, hfly'⟩ := hunits
  exact ⟨harr', hsp', hvf', hfly', hsrn⟩

/-! ### Operands and the unit sent -/

theorem accPart_eq (r : ArrayUnit) : accPart r = (accOperand r, accNext r) := by
  unfold accPart accNext
  dsimp only
  split <;> rfl

/-- The random integers of the lanes of a firing entry (R89). -/
def laneDraws (s : State) (t : TileId) : List Nat × List Nat :=
  let b := (atStart s t).tab
  draws b.seed.toNat t.x t.y b.section_.toNat b.srn.toNat

/-- An operation that uses operand A computes on the operands of vecReads. -/
theorem vecResult_eq (ha : vecUsesA (eCuop e) = true) :
    vecResult (envOf s t) e (operandA s t u e) (operandB s t u e) (atStart s t) =
      let r := vecReads s t u e
      (vecFire (atStart s t).vfire e r.1 r.2.1 (laneDraws s t).1 (laneDraws s t).2, r.2.2) := by
  have hops : vecOperands (atStart s t) e (operandA s t u e) (operandB s t u e) = vecReads s t u e := by
    by_cases h0 : eSrca e = 0
    · simp only [vecOperands, vecReads, accPart_eq, ha, h0, vecPair, decide_eq_true_eq, ne_eq, not_true_eq_false, if_false,
        and_self, if_true]
    · simp [vecOperands, vecReads, h0]
  rw [vecResult, hops]
  rfl

/-- A unit sent by an operation that is neither of CMP.SEG, CMP.FLUSH and CMP.RESET goes where the entry says. -/
theorem vecSent_of_out {o : VecOut} {d : Unit512} {p : Bool} {a b : Opd} (hu : eUnit e = 3)
    (h38 : eCuop e ≠ 0x38) (h39 : eCuop e ≠ 0x39) (h3B : eCuop e ≠ 0x3B)
    (ho : (vecResult (envOf s t) e a b (atStart s t)).1 = o) (hout : o.out = if eDst e = 0 then none else some (d, p)) :
    (o.out.map fun r => mkEmit e (unitSlots (envOf s t) e a b (atStart s t)).head? r.1 r.2 true) = vecSent s t e d p := by
  by_cases h0 : eDst e = 0
  · simp [hout, h0, vecSent]
  · have hslot : (unitSlots (envOf s t) e a b (atStart s t)).head? =
        if dstMu e then some (agAddr (atStart s t).mu.ag1 (eWrop e)) else none := by
      cases hd : dstMu e <;> simp [unitSlots, unitTargets, writeTargets, hu, ho, hout, h0, hd, h38, h39, h3B]
    simp only [hout, h0, if_false, Option.map_some, hslot, vecSent, vecEmit, mkEmit, Bool.true_and]

end Sys2Proof.Machine
end

/-! ## Widening converts (R89, R93, R104, R105, R108) -/

section
namespace Sys2Proof.Machine

variable {s : State} {t : TileId} {u : Upset} {e : TabEntry} {sel : TabEntry → Bool} {v : VBuf} {a b : Opd}
  {da db : List Nat}

/-! ### A firing convert -/

theorem convertClass_usesA {op : Nat} (h : isConvertClass op = true) : vecUsesA op = true := by
  simp only [isConvertClass, vecUsesA, Bool.or_eq_true, decide_eq_true_eq] at h ⊢
  omega

/-- A firing convert that sends at most one unit to where its entry says: the work in flight, the buffers, the array and the
count of stochastic converts that it leaves. -/
theorem tabCommand_fires_convert {o : VecOut} {d : Unit512} {p : Bool} (h : Fires s t u e) (hu : eUnit e = 3)
    (hs : sel e = true) (hc : isConvertClass (eCuop e) = true) (h38 : eCuop e ≠ 0x38)
    (ho : vecFire (atStart s t).vfire e (vecReads s t u e).1 (vecReads s t u e).2.1 (laneDraws s t).1 (laneDraws s t).2 = o)
    (hout : o.out = if eDst e = 0 then none else some (d, p)) :
    ∃ s', tabCommand sel t u s = .next s' ∧
      (tileOf s' t).fly = addFlight (atStart s t).fly ⟨(atStart s t).tab.tc + 6, .vec (vecSent s t e d p) o.fx o.buf⟩ ∧
      (tileOf s' t).vfire = o.buf ∧ (tileOf s' t).arr = (vecReads s t u e).2.2 ∧ (tileOf s' t).sp = (atStart s t).sp ∧
      (tileOf s' t).tab.srn = srnAfter e (atStart s t).tab.srn := by
  obtain ⟨s', hn, harr, hsp, hvf, hfly, hsrn⟩ := tabCommand_fires_vector h hu hs
  have hne : eCuop e ≠ 0x39 ∧ eCuop e ≠ 0x3B := by
    constructor <;> intro hk <;> simp [hk, isConvertClass] at hc
  have hr := vecResult_eq (s := s) (t := t) (u := u) (convertClass_usesA hc)
  dsimp only at hr
  rw [ho] at hr
  rw [vecSent_of_out hu h38 hne.1 hne.2 (by rw [hr]) (by rw [hr]; exact hout)] at hfly
  rw [hr] at harr hvf hfly
  rw [if_pos hc] at hsrn
  exact ⟨s', hn, hfly, hvf, harr, hsp, hsrn⟩

/-! ### The rounding of a lane -/

theorem rndOf_eq (fl : Nat) (ds : List Nat) (j : Nat) :
    rndOf fl ds j = if fl % 4 = 0 then .rne else if fl % 4 = 1 then .rtz else .sr (nth ds j 0) := by
  unfold rndOf
  split <;> simp_all

/-- The random word of lane j of a firing entry (R89). -/
def laneWord (s : State) (t : TileId) (j : Nat) : Nat :=
  let b := (atStart s t).tab
  srWord b.seed.toNat t.x t.y b.section_.toNat b.srn.toNat j

theorem laneRnd_eq (j : Nat) : laneRnd s t e j = if eCuflag e % 4 = 0 then .rne else if eCuflag e % 4 = 1 then .rtz
    else .sr (if j < 16 then laneWord s t (j % 16) / 2 ^ 40 else fld (laneWord s t (j % 16)) 16 24) := by
  simp only [laneRnd, laneWord, fld, Nat.shiftRight_eq_div_pow]

theorem laneDraws_fst : (laneDraws s t).1 = (List.range 16).map fun j => laneWord s t j >>> 40 := by
  simp only [laneDraws, draws, List.map_map]
  rfl

theorem laneDraws_snd : (laneDraws s t).2 = (List.range 16).map fun j => fld (laneWord s t j) 16 24 := by
  simp only [laneDraws, draws, List.map_map]
  rfl

/-- The lanes of operand A round with the draws of operand A. -/
theorem rndOf_laneDraws_fst {j : Nat} (hj : j < 16) : rndOf (eCuflag e) (laneDraws s t).1 j = laneRnd s t e j := by
  rw [rndOf_eq, laneRnd_eq, laneDraws_fst, nth_range_map _ _ hj, if_pos hj, Nat.mod_eq_of_lt hj, Nat.shiftRight_eq_div_pow]

/-- The 32 lanes of both operands round with the draws of A and, after them, those of B. -/
theorem rndOf_laneDraws {j : Nat} (hj : j < 32) :
    rndOf (eCuflag e) ((laneDraws s t).1 ++ (laneDraws s t).2) j = laneRnd s t e j := by
  have hlen : (laneDraws s t).1.length = 16 := by simp [laneDraws_fst]
  by_cases h16 : j < 16
  · have hd : nth ((laneDraws s t).1 ++ (laneDraws s t).2) j 0 = nth (laneDraws s t).1 j 0 :=
      List.getD_append _ _ _ _ (by rwa [hlen])
    rw [← rndOf_laneDraws_fst h16, rndOf_eq, rndOf_eq, hd]
  · have hd : nth ((laneDraws s t).1 ++ (laneDraws s t).2) j 0 = nth (laneDraws s t).2 (j - 16) 0 := by
      rw [nth, List.getD_append_right _ _ _ _ (by rw [hlen]; omega), hlen, nth]
    rw [rndOf_eq, hd, laneRnd_eq, laneDraws_snd, nth_range_map _ _ (show j - 16 < 16 by omega), if_neg h16,
      show j - 16 = j % 16 by omega]

/-! ### The unit of a widening convert -/

theorem plainOut_buf (f : Nat) (cs : List Nat) (fx : VecFx) (d : Unit512) (p : Bool) :
    (plainOut e v f cs fx d p).buf = v := by
  unfold plainOut
  split <;> rfl

theorem plainOut_out (f : Nat) (cs : List Nat) (fx : VecFx) (d : Unit512) (p : Bool) :
    (plainOut e v f cs fx d p).out = if eDst e = 0 then none else some (d, p) := by
  unfold plainOut
  split <;> rfl

/-- The 16 codes of a widening convert of group g, in CVT.WB scaled. -/
def widenCodes (e : TabEntry) (g : Nat) (scaled : Bool) (da : List Nat) (a b : Opd) : List Nat :=
  (widen (eCufmt e) (eCuflag e) g scaled da a b).map (·.code)

theorem vecFire_widen {g : Nat} {scaled : Bool} (hg : g < 8) (hop : eCuop e = (if scaled then 0x28 else 0x18) + g) :
    vecFire v e a b da db = plainOut e v (wideFmt (eCuflag e)) (widenCodes e g scaled da a b)
      { sat := (convCounts (widen (eCufmt e) (eCuflag e) g scaled da a b)).1
        nans := (convCounts (widen (eCufmt e) (eCuflag e) g scaled da a b)).2 }
      (unitOf fInt32 (widenCodes e g scaled da a b)) (a.poison || (scaled && b.poison)) := by
  have hA : vecUsesA (eCuop e) = true := by
    cases scaled <;> simp [vecUsesA, hop] <;> omega
  have hB : vecUsesB (eCuop e) = scaled := by
    cases scaled <;> simp [vecUsesB, hop] <;> omega
  have hmod : eCuop e % 8 = g := by cases scaled <;> simp [hop] <;> omega
  have hsc : decide (eCuop e ≥ 0x28) = scaled := by cases scaled <;> simp [hop]; omega
  have hrange : 0x15 < eCuop e ∧ (eCuop e ≤ 0x1F ∨ (0x28 ≤ eCuop e ∧ eCuop e ≤ 0x2F)) := by
    cases scaled <;> simp [hop] <;> omega
  unfold vecFire
  dsimp only
  rw [if_neg (by omega), if_neg (by omega), if_neg (by omega), if_neg (by omega), if_neg (by omega),
    if_pos hrange.2, hmod, hsc, hA, hB, Bool.true_and]
  rfl

/-- Lane j of the unit of a widening convert. -/
theorem elem_widened {g j : Nat} {scaled : Bool} (hj : j < 16) :
    elem (unitOf fInt32 (widenCodes e g scaled (laneDraws s t).1 a b)).toNat 32 j =
      if fmtBits (eCufmt e) = 6 ∧ 85 ≤ 16 * g + j then 0
      else
        let v := decodeElem (eCufmt e) (elem a.data.toNat (fmtBits (eCufmt e)) (16 * g + j))
        let x := elem b.data.toNat 8 ((16 * g + j) / 32)
        let v := if scaled then (if x = 0xFF then .nan else vScale v ((x : Int) - 127)) else v
        (convElem (wideOf e) (bit (eCuflag e) 2) (laneRnd s t e j) v).code % 2 ^ 32 := by
  rw [unitOf, elem_toNat_ofNat_of_lt _ (by omega), show fmtBits fInt32 = 32 from rfl, elem_joinElems, widenCodes, widen,
    List.map_map, nth_range_map _ _ hj, ← rndOf_laneDraws_fst hj]
  dsimp only [Function.comp]
  split <;> rfl

/-- The commands that widen, each with its eight operations. -/
theorem exec_widenRow : ∀ row ∈ ([(.cvtW, 0x18, false), (.cvtWb, 0x28, true)] :
      List ((TileId → Upset → Instr) × Nat × Bool)), row.2.1 = (if row.2.2 then 0x28 else 0x18) ∧
    ∀ t u s, exec (row.1 t u) s =
      tabCommand (fun e => decide (eUnit e = 3 ∧ row.2.1 ≤ eCuop e ∧ eCuop e ≤ row.2.1 + 7)) t u s := by
  simp only [List.forall_mem_cons, List.not_mem_nil, false_implies, implies_true, and_true]
  exact ⟨⟨rfl, fun _ _ _ => rfl⟩, rfl, fun _ _ _ => rfl⟩

/-- A widening convert that fires, whatever command selects it. -/
theorem tabCommand_fires_widen {g : Nat} {scaled : Bool} (h : Fires s t u e) (hu : eUnit e = 3) (hs : sel e = true)
    (hg : g < 8) (hop : eCuop e = (if scaled then 0x28 else 0x18) + g) :
    ∃ s', tabCommand sel t u s = .next s' ∧ ∃ fx,
      let r := vecReads s t u e
      let d := unitOf fInt32 (widenCodes e g scaled (laneDraws s t).1 r.1 r.2.1)
      (tileOf s' t).fly = addFlight (atStart s t).fly ⟨(atStart s t).tab.tc + 6,
        .vec (vecSent s t e d (r.1.poison || (scaled && r.2.1.poison))) fx (atStart s t).vfire⟩ ∧
      (tileOf s' t).vfire = (atStart s t).vfire ∧ (tileOf s' t).arr = r.2.2 ∧ (tileOf s' t).sp = (atStart s t).sp ∧
      (tileOf s' t).tab.srn = srnAfter e (atStart s t).tab.srn := by
  have hc : isConvertClass (eCuop e) = true ∧ eCuop e ≠ 0x38 := by
    cases scaled <;> simp [isConvertClass, hop] <;> omega
  have ho := vecFire_widen (v := (atStart s t).vfire) (a := (vecReads s t u e).1) (b := (vecReads s t u e).2.1)
    (da := (laneDraws s t).1) (db := (laneDraws s t).2) hg hop
  obtain ⟨s', hn, hfly, hvf, hrest⟩ := tabCommand_fires_convert h hu hs hc.1 hc.2 ho (plainOut_out ..)
  rw [plainOut_buf] at hfly hvf
  exact ⟨s', hn, _, hfly, hvf, hrest⟩

theorem wideningConverts : WideningConverts := by
  intro row hrow s t u e g hg h ⟨hu, hop⟩
  obtain ⟨hbase, hexec⟩ := exec_widenRow row hrow
  have hs : decide (eUnit e = 3 ∧ row.2.1 ≤ eCuop e ∧ eCuop e ≤ row.2.1 + 7) = true :=
    decide_eq_true ⟨hu, by omega, by omega⟩
  obtain ⟨s', hn, fx, hfly, hvf, harr, hsp, hsrn⟩ :=
    tabCommand_fires_widen (sel := fun e => decide (eUnit e = 3 ∧ row.2.1 ≤ eCuop e ∧ eCuop e ≤ row.2.1 + 7)) h hu hs hg
      (hbase ▸ hop)
  exact ⟨s', (hexec t u s).trans hn, _, fx, hfly, fun j hj => elem_widened hj, hvf, harr, hsp, hsrn⟩

end Sys2Proof.Machine
end

/-! ## Groups of the 2:4 compressions (R110, R130) -/

section
namespace Sys2Proof.Machine

variable {f : Nat} {prune : Bool} {g : List Nat}

/-! ### What a group keeps -/

/-- The positions of a group's elements that are zeros of the format, or that are not. -/
def zeroAt (f : Nat) (g : List Nat) (z : Bool) : List Nat := (List.range 4).filter fun i => codeIsZero f (nth g i 0) == z

/-- The positions a group of four keeps, in the order chosen. -/
def keptAt (f : Nat) (prune : Bool) (g : List Nat) : List Nat :=
  let nz := zeroAt f g false
  if nz.length ≤ 2 then nz ++ (zeroAt f g true).take (2 - nz.length)
  else if prune then [argMax f g nz, argMax f g (nz.filter (· ≠ argMax f g nz))]
  else nz.take 2

/-- The positions kept, in rising order. -/
def keptSorted (f : Nat) (prune : Bool) (g : List Nat) : List Nat :=
  (List.range 4).filter fun i => (keptAt f prune g).contains i

theorem compressGroup_eq : compressGroup f prune g = (((keptSorted f prune g).map fun i => 2 ^ i).sum,
    (keptSorted f prune g).map fun i => nth g i 0, (zeroAt f g false).length - 2, decide ((zeroAt f g false).length > 2)) := by
  have hf : ((List.range 4).filter fun i => !codeIsZero f (nth g i 0)) = zeroAt f g false := by simp [zeroAt]
  have ht : ((List.range 4).filter fun i => codeIsZero f (nth g i 0)) = zeroAt f g true := by simp [zeroAt]
  rw [compressGroup, hf, ht]
  rfl

theorem argMax_mem (f : Nat) (g : List Nat) {l : List Nat} (h : l ≠ []) : argMax f g l ∈ l := by
  induction l with
  | nil => exact absurd rfl h
  | cons i l ih =>
    cases l with
    | nil => simp [argMax]
    | cons j l =>
      rw [argMax]
      · split
        · exact List.mem_cons_of_mem _ (ih (List.cons_ne_nil _ _))
        · exact List.mem_cons_self
      · exact fun h => absurd h (List.cons_ne_nil _ _)

/-- PRUNE mode's second choice is another of the positions it chooses from. -/
theorem argMax_second {l : List Nat} (hn : l.Nodup) (h : 2 ≤ l.length) : argMax f g (l.filter (· ≠ argMax f g l)) ∈ l ∧
    argMax f g (l.filter (· ≠ argMax f g l)) ≠ argMax f g l := by
  have hfirst := argMax_mem f g (l := l) fun h0 => by simp [h0] at h
  have hrest : l.filter (· ≠ argMax f g l) ≠ [] := by
    intro h0
    have hlen := List.length_erase_of_mem hfirst
    rw [hn.erase_eq_filter, show l.filter (· != argMax f g l) = [] by simpa [bne] using h0, List.length_nil] at hlen
    omega
  obtain ⟨hmem, hne⟩ := List.mem_filter.mp (argMax_mem f g hrest)
  exact ⟨hmem, of_decide_eq_true hne⟩

theorem zeroAt_nodup (z : Bool) : (zeroAt f g z).Nodup := List.nodup_range.filter _

theorem mem_zeroAt {z : Bool} {i : Nat} : i ∈ zeroAt f g z ↔ i < 4 ∧ codeIsZero f (nth g i 0) = z := by simp [zeroAt]

/-- Every position is one of the two. -/
theorem length_zeroAt : (zeroAt f g false).length + (zeroAt f g true).length = 4 := by
  have h := List.length_eq_length_filter_add (l := List.range 4) fun i => codeIsZero f (nth g i 0)
  simp only [List.length_range] at h
  simp only [zeroAt, beq_false, beq_true]
  omega

/-- A group keeps two of its four positions (R130). -/
theorem keptAt_two : (keptAt f prune g).length = 2 ∧ (keptAt f prune g).Nodup ∧ ∀ i ∈ keptAt f prune g, i < 4 := by
  have hsum := length_zeroAt (f := f) (g := g)
  unfold keptAt
  dsimp only
  split
  next h2 =>
    refine ⟨by simp; omega, ?_, fun i hi => ?_⟩
    · refine (zeroAt_nodup _).append ((zeroAt_nodup _).sublist (List.take_sublist ..)) fun i hf ht => ?_
      have hz := (mem_zeroAt.mp hf).2
      rw [(mem_zeroAt.mp (List.mem_of_mem_take ht)).2] at hz
      cases hz
    · rcases List.mem_append.mp hi with hi | hi
      · exact (mem_zeroAt.mp hi).1
      · exact (mem_zeroAt.mp (List.mem_of_mem_take hi)).1
  next h2 =>
    split
    · have hfirst := argMax_mem f g (l := zeroAt f g false) fun h0 => by simp [h0] at h2
      obtain ⟨hsecond, hne⟩ := argMax_second (f := f) (g := g) (zeroAt_nodup (f := f) (g := g) false) (by omega)
      refine ⟨rfl, by simpa using hne.symm, ?_⟩
      simp only [List.forall_mem_cons, List.not_mem_nil, false_implies, implies_true, and_true]
      exact ⟨(mem_zeroAt.mp hfirst).1, (mem_zeroAt.mp hsecond).1⟩
    · refine ⟨by simp; omega, (zeroAt_nodup _).sublist (List.take_sublist ..), fun i hi => ?_⟩
      exact (mem_zeroAt.mp (List.mem_of_mem_take hi)).1

theorem length_keptSorted : (keptSorted f prune g).length = 2 := by
  obtain ⟨hlen, hnodup, hlt⟩ := keptAt_two (f := f) (prune := prune) (g := g)
  have hperm : (keptSorted f prune g).Perm (keptAt f prune g) := by
    refine (List.perm_ext_iff_of_nodup (List.nodup_range.filter _) hnodup).mpr fun i => ?_
    simp only [List.mem_filter, List.mem_range, List.contains_iff_mem, and_iff_right_iff_imp]
    exact hlt i
  rw [hperm.length_eq, hlen]

/-- The values a group keeps are two. -/
theorem length_compressGroup : (compressGroup f prune g).2.1.length = 2 := by
  rw [compressGroup_eq, List.length_map, length_keptSorted]

/-- The mask of a group has four bits. -/
theorem compressGroup_mask_lt : (compressGroup f prune g).1 < 2 ^ 4 := by
  rw [compressGroup_eq]
  have hle := ((List.filter_sublist (p := fun i => (keptAt f prune g).contains i) (l := List.range 4)).map
    fun i => 2 ^ i).sum_le_sum fun _ _ => Nat.zero_le _
  exact Nat.lt_of_le_of_lt hle (by decide)

/-! ### Groups of a list of codes -/

theorem groups4_map_range (c : Nat → Nat) (n : Nat) : groups4 ((List.range (4 * n)).map c) =
    (List.range n).map fun k => (List.range 4).map fun i => c (4 * k + i) := by
  induction n generalizing c with
  | zero => rfl
  | succ n ih =>
    have hcut : (List.range (4 * (n + 1))).map c =
        c 0 :: c 1 :: c 2 :: c 3 :: (List.range (4 * n)).map fun i => c (i + 4) := by
      simp only [Nat.mul_succ, List.range_succ_eq_map, List.map_cons, List.map_map]
      rfl
    rw [hcut, groups4, ih, List.range_succ_eq_map (n := n), List.map_cons, List.map_map]
    rfl

/-- The values of groups of two, one after the other. -/
theorem nth_flatten_pairs {l : Nat → List Nat} (hl : ∀ k, (l k).length = 2) {n i : Nat} (hi : i < 2 * n) :
    nth ((List.range n).map l).flatten i 0 = nth (l (i / 2)) (i % 2) 0 := by
  induction n with
  | zero => omega
  | succ n ih =>
    have hlen : ((List.range n).map l).flatten.length = 2 * n := by
      simp [List.length_flatten, Function.comp_def, hl, mul_comm]
    rw [List.range_succ, List.map_append, List.flatten_append, nth]
    by_cases h : i < 2 * n
    · rw [List.getD_append _ _ _ _ (by rwa [hlen])]
      exact ih h
    · rw [List.getD_append_right _ _ _ _ (by rw [hlen]; omega), hlen, show i / 2 = n by omega,
        show i - 2 * n = i % 2 by omega]
      simp [nth]

theorem zipIdx_map_range {α : Type} (l : Nat → α) (n : Nat) :
    ((List.range n).map l).zipIdx = (List.range n).map fun k => (l k, k) := by
  apply List.ext_getElem <;> simp

/-- The overfull groups of a compression, by number. -/
theorem overfull_map_range (l : Nat → Nat × List Nat × Nat × Bool) (n : Nat) :
    ((((List.range n).map l).zipIdx.filter fun (g, _) => g.2.2.2).map (·.2)) =
      (List.range n).filter fun k => (l k).2.2.2 := by
  rw [zipIdx_map_range, List.filter_map, List.map_map]
  exact List.map_id' _

end Sys2Proof.Machine
end

/-! ## Narrowing converts (R89, R91, R92, R104, R106, R107, R110, R130) -/

section
namespace Sys2Proof.Machine

variable {s : State} {t : TileId} {u : Upset} {e : TabEntry} {sel : TabEntry → Bool} {v w : VBuf} {a b : Opd} {p : Bool}
  {f m n : Nat} {cs ds : List Nat} {code : Nat → Nat}

/-! ### The codes -/

/-- The value of lane i of the wide side, operand A's 16 lanes first. -/
def laneVal (e : TabEntry) (a b : Opd) (i : Nat) : Val :=
  decodeElem (wideOf e) (elem (if i < 16 then a.data else b.data).toNat 32 (i % 16))

theorem wideVals_eq (b : Opd) : wideVals (eCuflag e) a = (List.range 16).map (laneVal e a b) := by
  rw [wideVals, elems, List.map_map]
  refine List.map_congr_left fun i hi => ?_
  have h16 := List.mem_range.mp hi
  simp only [Function.comp, laneVal, h16, if_true, Nat.mod_eq_of_lt h16]
  rfl

theorem wideVals_append : wideVals (eCuflag e) a ++ wideVals (eCuflag e) b = (List.range 32).map (laneVal e a b) := by
  have hb : wideVals (eCuflag e) b = ((List.range 16).map (16 + ·)).map (laneVal e a b) := by
    rw [wideVals, elems, List.map_map, List.map_map]
    refine List.map_congr_left fun i hi => ?_
    have h16 := List.mem_range.mp hi
    simp only [Function.comp, laneVal, show ¬ 16 + i < 16 by omega, if_false, Nat.add_mod_left, Nat.mod_eq_of_lt h16]
    rfl
  rw [hb, wideVals_eq b, ← List.map_append, ← List.range_add]

/-- The block scale of a convert's 32 lanes (R91). -/
def laneScale (e : TabEntry) (a b : Opd) : Nat := blockScale (eCufmt e) ((List.range 32).map (laneVal e a b))

/-- The narrow code of lane i. -/
def laneCode (s : State) (t : TileId) (e : TabEntry) (a b : Opd) (i : Nat) : Nat :=
  narrowCode s t e (laneVal e a b) (laneScale e a b) i

theorem convList_map_range (f flag : Nat) (ds : List Nat) (val : Nat → Val) (n : Nat) :
    convList f flag ds ((List.range n).map val) =
      (List.range n).map fun j => convElem f (bit flag 2) (rndOf flag ds j) (val j) := by
  rw [convList, zipIdx_map_range, List.map_map]
  rfl

/-- The codes of lanes that are converted one by one. -/
theorem convList_codes (h21 : eCuop e ≠ 0x21) (hr : ∀ j < n, rndOf (eCuflag e) ds j = laneRnd s t e j) :
    (convList (eCufmt e) (eCuflag e) ds ((List.range n).map (laneVal e a b))).map (·.code) =
      (List.range n).map (laneCode s t e a b) := by
  rw [convList_map_range, List.map_map]
  refine List.map_congr_left fun j hj => ?_
  rw [Function.comp, hr j (List.mem_range.mp hj), laneCode, narrowCode, if_neg h21]

/-- The codes of a block (R92). -/
theorem blockElems_codes (h21 : eCuop e = 0x21) (hr : ∀ j < 32, rndOf (eCuflag e) ds j = laneRnd s t e j) :
    (blockElems (eCufmt e) (eCuflag e) (laneScale e a b) ds ((List.range 32).map (laneVal e a b))).map (·.code) =
      (List.range 32).map (laneCode s t e a b) := by
  unfold blockElems
  split
  next hx =>
    rw [List.map_map, List.map_map]
    refine List.map_congr_left fun j _ => ?_
    rw [laneCode, narrowCode, if_pos h21, if_pos hx]
    rfl
  next hx =>
    rw [List.map_map, convList_map_range, List.map_map]
    refine List.map_congr_left fun j hj => ?_
    rw [Function.comp, hr j (List.mem_range.mp hj), laneCode, narrowCode, if_pos h21, if_neg hx]
    rfl

/-! ### The pack buffer -/

/-- A run of codes written into the pack buffer; an FP6 run ends below the two bits that R76 keeps zero. -/
theorem packedAt_packPut (hm : cs.length = m) (hcode : ∀ i < m, nth cs i 0 = code i)
    (h6 : fmtBits f = 6 → 16 * v.pkg + m ≤ 85) : PackedAt f (16 * v.pkg) m code v.pack (packPut v f n cs p).pack := by
  have hpack : (packPut v f n cs p).pack = BitVec.ofNat 512 (setFld v.pack.toNat (fmtBits f * (16 * v.pkg))
      (fmtBits f * m) (joinElems (fmtBits f) cs)) := by rw [packPut, hm, mul_assoc]
  rw [hpack]
  refine ⟨fun k hk => ?_, fun hf => ?_⟩
  · rw [elem_toNat_ofNat_of_lt _ hk, elem_setFld_run]
    split
    next h => rw [elem_joinElems, hcode _ (by omega)]
    next => rfl
  · have := h6 hf
    rw [fld_toNat_ofNat _ _ _ (by omega), fld_setFld_above (by rw [hf]; omega)]

theorem packEmit_buf (fx : VecFx) : (packEmit e v fx).buf = { v with
    pack := if eDst e = 0 then v.pack else 0, pkg := if eDst e = 0 then v.pkg else 0
    packPoison := decide (eDst e = 0) && v.packPoison } := by
  unfold packEmit
  split
  next h => simp [h]
  next h => simp [h]

theorem packEmit_out (fx : VecFx) :
    (packEmit e v fx).out = if eDst e = 0 then none else some (v.pack, v.packPoison) := by
  unfold packEmit
  split <;> rfl

theorem packEmit_overflowGroup (fx : VecFx) : (packEmit e v fx).fx.overflowGroup = fx.overflowGroup := by
  unfold packEmit
  dsimp only
  split <;> rfl

/-! ### What a narrowing convert writes -/

/-- CVT.NB. -/
def isBlock (e : TabEntry) : Bool := decide (eCuop e = 0x21)
/-- CMP.24P and CMP.24F. -/
def isCompress (e : TabEntry) : Bool := decide (0x30 ≤ eCuop e)

/-- Group k of a 2:4 compression. -/
def laneGroup (s : State) (t : TileId) (e : TabEntry) (a b : Opd) (k : Nat) : Nat × List Nat × Nat × Bool :=
  compressGroup (eCufmt e) (decide (eCuop e = 0x30)) ((List.range 4).map fun i => laneCode s t e a b (4 * k + i))

/-- Code i of those that the pack buffer takes. -/
def packCode (s : State) (t : TileId) (e : TabEntry) (a b : Opd) (i : Nat) : Nat :=
  if isCompress e then nth (laneGroup s t e a b (i / 2)).2.1 (i % 2) 0 else laneCode s t e a b i

/-- How many codes it takes. -/
def packCount (e : TabEntry) (w : VBuf) : Nat :=
  if isBlock e then 32 else if fmtBits (eCufmt e) = 6 ∧ w.pkg = 5 then 5 else 16

/-- The poison that the entry adds. -/
def packBad (s : State) (t : TileId) (e : TabEntry) (a b : Opd) : Bool :=
  a.poison || (vecUsesB (eCuop e) && b.poison)
    || (decide (eCuop e = 0x31) && (List.range 8).any fun k => (laneGroup s t e a b k).2.2.2)

/-- The buffers after the writes of a narrowing convert and before the pack buffer leaves: v from w. -/
structure Narrowed (s : State) (t : TileId) (e : TabEntry) (a b : Opd) (w v : VBuf) : Prop where
  pack : PackedAt (eCufmt e) (16 * w.pkg) (packCount e w) (packCode s t e a b) w.pack v.pack
  pkg : v.pkg = w.pkg + if isBlock e then 2 else 1
  packPoison : v.packPoison = (w.packPoison || packBad s t e a b)
  scale : if isBlock e then
      v.skp = w.skp + 1 ∧ v.scalePoison = (w.scalePoison || packBad s t e a b) ∧
      ∀ k < 64, elem v.scale.toNat 8 k = if k = w.skp then laneScale e a b % 256 else elem w.scale.toNat 8 k
    else v.skp = w.skp ∧ v.scale = w.scale ∧ v.scalePoison = w.scalePoison
  mask : if isCompress e then
      v.mkp = w.mkp + 1 ∧ v.maskPoison = (w.maskPoison || packBad s t e a b) ∧
      ∀ k < 128, elem v.mask.toNat 4 k =
        if k / 8 = w.mkp then (laneGroup s t e a b (k % 8)).1 else elem w.mask.toNat 4 k
    else v.mkp = w.mkp ∧ v.mask = w.mask ∧ v.maskPoison = w.maskPoison
  segment : v.pend = w.pend ∧ v.segcnt = w.segcnt ∧ v.pos = w.pos ∧ v.segPoison = w.segPoison

/-- The first overfull group, in CMP.24F (R130). -/
def overfullGroup (s : State) (t : TileId) (e : TabEntry) (a b : Opd) : Option Nat :=
  if eCuop e = 0x31 then (List.range 8).find? fun k => (laneGroup s t e a b k).2.2.2 else none

/-- A narrowing convert writes the buffers and then lets the pack buffer leave. -/
def Narrows (s : State) (t : TileId) (e : TabEntry) (a b : Opd) (w : VBuf) : Prop :=
  ∃ v fx, vecFire w e a b (laneDraws s t).1 (laneDraws s t).2 = packEmit e v fx ∧ Narrowed s t e a b w v ∧
    fx.overflowGroup = overfullGroup s t e a b

/-- The operations that narrow into the pack buffer. -/
def NarrowOp (op : Nat) : Prop := op = 0x20 ∨ op = 0x21 ∨ op = 0x30 ∨ op = 0x31

/-- Without a VEC_PACK fault the groups of an entry fit the pack buffer (R109). -/
theorem pkg_le_of_vecFault (h : vecFault v e = false) (hop : NarrowOp (eCuop e)) :
    v.pkg + (if eCuop e = 0x21 then 2 else 1) ≤ if eCuop e = 0x21 then groupsScaled (eCufmt e) else groupsOf (eCufmt e) := by
  by_contra hlt
  have hfault : vecFault v e = true := by
    simp only [NarrowOp] at hop
    simp [vecFault, hop, Nat.lt_of_not_le hlt]
  rw [h] at hfault
  cases hfault

/-- An FP6 run of codes ends at element 84 at most. -/
theorem packCount_le_of_fires (h : Fires s t u e) (hu : eUnit e = 3) (hop : NarrowOp (eCuop e))
    (hf : fmtBits (eCufmt e) = 6) : 16 * (atStart s t).vfire.pkg + packCount e (atStart s t).vfire ≤ 85 := by
  have hnone := h.on.unit
  have hfit := pkg_le_of_vecFault (v := (atStart s t).vfire) (by simpa [unitFault, hu] using hnone) hop
  simp only [groupsScaled, groupsOf, hf, if_true] at hfit
  simp only [packCount, isBlock, hf, true_and, decide_eq_true_eq]
  split_ifs at hfit ⊢ <;> omega

/-! ### CVT.N (R106) -/

/-- The converts of CVT.N, of which FP6 group 5 takes five. -/
def narrowConvs (e : TabEntry) (w : VBuf) (a : Opd) (da : List Nat) : List Conv :=
  let cs := convList (eCufmt e) (eCuflag e) da (wideVals (eCuflag e) a)
  if fmtBits (eCufmt e) = 6 ∧ w.pkg = 5 then cs.take 5 else cs

theorem vecFire_cvtN {da db : List Nat} (h : eCuop e = 0x20) : ∃ fx, vecFire w e a b da db =
    packEmit e (packPut w (eCufmt e) 1 ((narrowConvs e w a da).map (·.code)) a.poison) fx ∧ fx.overflowGroup = none := by
  have huse : vecUsesA 0x20 = true ∧ vecUsesB 0x20 = false := ⟨rfl, rfl⟩
  simp only [vecFire, h, huse, Bool.true_and, Bool.false_and, Bool.or_false]
  exact ⟨_, rfl, rfl⟩

theorem packCount_of_not_block (h : isBlock e = false) :
    packCount e w = if fmtBits (eCufmt e) = 6 ∧ w.pkg = 5 then 5 else 16 := by simp [packCount, h]

theorem narrowConvs_codes (h : eCuop e = 0x20) : (narrowConvs e w a (laneDraws s t).1).map (·.code) =
    (List.range (packCount e w)).map (laneCode s t e a b) := by
  have hcodes := convList_codes (s := s) (t := t) (a := a) (b := b) (h ▸ by decide)
    fun j hj => rndOf_laneDraws_fst (e := e) hj
  rw [narrowConvs, wideVals_eq b, packCount_of_not_block (by simp [isBlock, h])]
  split
  · rw [List.map_take, hcodes]
    rfl
  · exact hcodes

/-- Codes taken lane by lane. -/
theorem packedAt_map_range (code : Nat → Nat) (h6 : fmtBits f = 6 → 16 * v.pkg + m ≤ 85) :
    PackedAt f (16 * v.pkg) m code v.pack (packPut v f n ((List.range m).map code) p).pack :=
  packedAt_packPut (by simp) (fun _ hi => nth_range_map _ _ hi) h6

theorem narrows_cvtN (h : eCuop e = 0x20) (h6 : fmtBits (eCufmt e) = 6 → 16 * w.pkg + packCount e w ≤ 85) :
    Narrows s t e a b w := by
  have hblock : isBlock e = false := by simp [isBlock, h]
  have hcmp : isCompress e = false := by simp [isCompress, h]
  have hbad : packBad s t e a b = a.poison := by simp [packBad, h, vecUsesB]
  have hcode : packCode s t e a b = laneCode s t e a b := by
    funext i
    simp [packCode, hcmp]
  obtain ⟨fx, hfire, hover⟩ := vecFire_cvtN (w := w) (a := a) (b := b) (da := (laneDraws s t).1) (db := (laneDraws s t).2) h
  rw [narrowConvs_codes (b := b) h] at hfire
  refine ⟨_, fx, hfire, ?_, by rw [hover, overfullGroup, if_neg (by rw [h]; decide)]⟩
  constructor
  case pack =>
    rw [hcode]
    exact packedAt_map_range _ h6
  case pkg => simp [hblock, packPut]
  case packPoison => rw [hbad]; rfl
  case scale => simp [hblock, packPut]
  case mask => simp [hcmp, packPut]
  case segment => exact ⟨rfl, rfl, rfl, rfl⟩

/-! ### CVT.NB (R91, R92, R107) -/

/-- The buffers after CVT.NB has written a block and its scale. -/
def blockBuf (e : TabEntry) (w : VBuf) (a b : Opd) (cs : List Nat) : VBuf :=
  { packPut w (eCufmt e) 2 cs (a.poison || b.poison) with
    scale := BitVec.ofNat 512 (setFld w.scale.toNat (8 * w.skp) 8 (laneScale e a b)), skp := w.skp + 1
    scalePoison := w.scalePoison || (a.poison || b.poison) }

theorem vecFire_cvtNb {da db : List Nat} (h : eCuop e = 0x21) : ∃ fx, vecFire w e a b da db =
    packEmit e (blockBuf e w a b ((blockElems (eCufmt e) (eCuflag e) (laneScale e a b) (da ++ db)
      ((List.range 32).map (laneVal e a b))).map (·.code))) fx ∧ fx.overflowGroup = none := by
  have huse : vecUsesA 0x21 = true ∧ vecUsesB 0x21 = true := ⟨rfl, rfl⟩
  simp only [vecFire, h, huse, Bool.true_and, wideVals_append]
  exact ⟨_, rfl, rfl⟩

theorem narrows_cvtNb (h : eCuop e = 0x21) (h6 : fmtBits (eCufmt e) = 6 → 16 * w.pkg + packCount e w ≤ 85) :
    Narrows s t e a b w := by
  have hblock : isBlock e = true := by simp [isBlock, h]
  have hcmp : isCompress e = false := by simp [isCompress, h]
  have hcount : packCount e w = 32 := by simp [packCount, hblock]
  have hbad : packBad s t e a b = (a.poison || b.poison) := by simp [packBad, h, vecUsesB]
  have hcode : packCode s t e a b = laneCode s t e a b := by
    funext i
    simp [packCode, hcmp]
  obtain ⟨fx, hfire, hover⟩ := vecFire_cvtNb (w := w) (a := a) (b := b) (da := (laneDraws s t).1) (db := (laneDraws s t).2) h
  rw [blockElems_codes h fun j hj => rndOf_laneDraws hj] at hfire
  refine ⟨_, fx, hfire, ?_, by rw [hover, overfullGroup, if_neg (by rw [h]; decide)]⟩
  constructor
  case pack =>
    rw [hcode, hcount]
    exact packedAt_map_range (n := 2) (p := a.poison || b.poison) _ (hcount ▸ h6)
  case pkg => simp [hblock, blockBuf, packPut]
  case packPoison => rw [hbad]; rfl
  case scale =>
    rw [if_pos hblock, hbad]
    refine ⟨rfl, rfl, fun k hk => ?_⟩
    rw [blockBuf, elem_toNat_ofNat_of_lt _ (by omega)]
    have hset := elem_setFld_run w.scale.toNat 8 w.skp 1 (laneScale e a b) k
    rw [mul_one] at hset
    rw [hset]
    by_cases hk : k = w.skp
    · rw [if_pos (by omega), if_pos hk, hk, Nat.sub_self]
      simp [elem, fld]
    · rw [if_neg (by omega), if_neg hk]
  case mask => simp [hcmp, blockBuf, packPut]
  case segment => exact ⟨rfl, rfl, rfl, rfl⟩

/-! ### CMP.24P and CMP.24F (R110, R130) -/

/-- The buffers after a 2:4 compression has written the values kept and their mask. -/
def compressBuf (s : State) (t : TileId) (e : TabEntry) (a b : Opd) (w : VBuf) : VBuf :=
  let gs := (List.range 8).map (laneGroup s t e a b)
  { packPut w (eCufmt e) 1 (packFit w (eCufmt e) (gs.map (·.2.1)).flatten) (packBad s t e a b) with
    mask := BitVec.ofNat 512 (setFld w.mask.toNat (32 * w.mkp) 32 (joinElems 4 (gs.map (·.1)))), mkp := w.mkp + 1
    maskPoison := w.maskPoison || packBad s t e a b }

theorem vecFire_cmp24 {da db : List Nat} (h : eCuop e = 0x30 ∨ eCuop e = 0x31) : vecFire w e a b da db =
    cmp24 e w (convList (eCufmt e) (eCuflag e) (da ++ db) ((List.range 32).map (laneVal e a b))) (a.poison || b.poison) := by
  have huse : vecUsesA 0x30 = true ∧ vecUsesB 0x30 = true ∧ vecUsesA 0x31 = true ∧ vecUsesB 0x31 = true :=
    ⟨rfl, rfl, rfl, rfl⟩
  rcases h with h | h <;> simp only [vecFire, h, huse, Bool.true_and, wideVals_append] <;> rfl

/-- The poison of a compression: its operands', and in CMP.24F that of a group with more than two non-zeros. -/
theorem packBad_of_compress (h : eCuop e = 0x30 ∨ eCuop e = 0x31) : packBad s t e a b =
    ((a.poison || b.poison) || (!decide (eCuop e = 0x30) &&
      decide ((List.range 8).filter (fun k => (laneGroup s t e a b k).2.2.2) ≠ []))) := by
  have hany : (List.range 8).any (fun k => (laneGroup s t e a b k).2.2.2) =
      decide ((List.range 8).filter (fun k => (laneGroup s t e a b k).2.2.2) ≠ []) := by
    rw [Bool.eq_iff_iff]
    simp [List.filter_eq_nil_iff]
  rcases h with h | h <;> simp [packBad, h, vecUsesB, hany]

theorem cmp24_eq {cs : List Conv} (hop : eCuop e = 0x30 ∨ eCuop e = 0x31)
    (hcs : cs.map (·.code) = (List.range 32).map (laneCode s t e a b)) :
    ∃ fx, cmp24 e w cs (a.poison || b.poison) = packEmit e (compressBuf s t e a b w) fx ∧
      fx.overflowGroup = overfullGroup s t e a b := by
  have hgroups : (groups4 (cs.map (·.code))).map (compressGroup (eCufmt e) (decide (eCuop e = 0x30))) =
      (List.range 8).map (laneGroup s t e a b) := by
    rw [hcs, groups4_map_range _ 8, List.map_map]
    rfl
  unfold cmp24
  dsimp only
  rw [hgroups, overfull_map_range, ← packBad_of_compress hop]
  refine ⟨_, rfl, ?_⟩
  rcases hop with h | h <;> simp [overfullGroup, h]

theorem nth_packFit {l : List Nat} {i : Nat} (hi : i < if fmtBits f = 6 ∧ w.pkg = 5 then 5 else 16) :
    nth (packFit w f l) i 0 = nth l i 0 := by
  unfold packFit nth
  split
  next h =>
    rw [if_pos h] at hi
    simp [List.getD, hi]
  next => rfl

theorem length_packFit {l : List Nat} (hl : l.length = 16) :
    (packFit w f l).length = if fmtBits f = 6 ∧ w.pkg = 5 then 5 else 16 := by
  unfold packFit
  split <;> simp [hl]

theorem narrows_cmp24 (h : eCuop e = 0x30 ∨ eCuop e = 0x31)
    (h6 : fmtBits (eCufmt e) = 6 → 16 * w.pkg + packCount e w ≤ 85) : Narrows s t e a b w := by
  have hblock : isBlock e = false := by rcases h with h | h <;> simp [isBlock, h]
  have hcmp : isCompress e = true := by rcases h with h | h <;> simp [isCompress, h]
  have hcodes := convList_codes (s := s) (t := t) (a := a) (b := b) (by rcases h with h | h <;> simp [h])
    fun j hj => rndOf_laneDraws (e := e) hj
  obtain ⟨fx, hfire, hover⟩ := cmp24_eq (w := w) h hcodes
  rw [← vecFire_cmp24 h] at hfire
  refine ⟨_, fx, hfire, ?_, hover⟩
  constructor
  case pack =>
    have hcount := packCount_of_not_block (w := w) hblock
    refine packedAt_packPut (n := 1) (p := packBad s t e a b) ?_ (fun i hi => ?_) h6
    · rw [hcount]
      exact length_packFit (by simp [laneGroup, length_compressGroup, Function.comp_def])
    · rw [hcount] at hi
      have h16 : i < 2 * 8 := lt_of_lt_of_le hi (by split <;> decide)
      rw [nth_packFit hi, List.map_map, packCode, if_pos hcmp]
      exact nth_flatten_pairs (fun _ => length_compressGroup) h16
  case pkg => simp [hblock, compressBuf, packPut]
  case packPoison => rfl
  case scale => simp [hblock, compressBuf, packPut]
  case mask =>
    rw [if_pos hcmp]
    refine ⟨rfl, rfl, fun k hk => ?_⟩
    have hset := elem_setFld_run w.mask.toNat 4 (8 * w.mkp) 8 (joinElems 4 ((List.range 8).map fun k =>
      (laneGroup s t e a b k).1)) k
    rw [← mul_assoc] at hset
    rw [compressBuf, elem_toNat_ofNat_of_lt _ (by omega), List.map_map]
    refine hset.trans ?_
    by_cases hk : k / 8 = w.mkp
    · rw [if_pos (by omega), if_pos hk, elem_joinElems, nth_range_map _ _ (by omega), show k - 8 * w.mkp = k % 8 by omega]
      exact Nat.mod_eq_of_lt compressGroup_mask_lt
    · rw [if_neg (by omega), if_neg hk]
  case segment => exact ⟨rfl, rfl, rfl, rfl⟩

theorem narrows_of_op (hop : NarrowOp (eCuop e)) (h6 : fmtBits (eCufmt e) = 6 → 16 * w.pkg + packCount e w ≤ 85) :
    Narrows s t e a b w := by
  rcases hop with h | h | h | h
  · exact narrows_cvtN h h6
  · exact narrows_cvtNb h h6
  · exact narrows_cmp24 (.inl h) h6
  · exact narrows_cmp24 (.inr h) h6

/-! ### The commands -/

/-- The commands that narrow, each with its operation. -/
theorem exec_narrowRow : ∀ row ∈ ([(.cvtN, 0x20), (.cvtNb, 0x21), (.cmp24p, 0x30), (.cmp24f, 0x31)] :
      List ((TileId → Upset → Instr) × Nat)), NarrowOp row.2 ∧
    ∀ t u s, exec (row.1 t u) s = tabCommand (fun e => decide (eUnit e = 3 ∧ eCuop e = row.2)) t u s := by
  simp only [List.forall_mem_cons, List.not_mem_nil, false_implies, implies_true, and_true]
  refine ⟨?_, ?_, ?_, ?_⟩ <;> exact ⟨by simp [NarrowOp], fun _ _ _ => rfl⟩

theorem narrowOp_convertClass (h : NarrowOp (eCuop e)) : isConvertClass (eCuop e) = true ∧ eCuop e ≠ 0x38 := by
  rcases h with h | h | h | h <;> simp [isConvertClass, h]

theorem narrowingConverts : NarrowingConverts := by
  rintro ⟨c, op⟩ hrow s t u e h ⟨hu, hcode⟩
  obtain rfl : eCuop e = op := hcode
  obtain ⟨hop, hexec⟩ := exec_narrowRow _ hrow
  obtain ⟨hc, h38⟩ := narrowOp_convertClass hop
  obtain ⟨v, fx, hfire, hv, hover⟩ := narrows_of_op (s := s) (t := t) (a := (vecReads s t u e).1)
    (b := (vecReads s t u e).2.1) hop (packCount_le_of_fires h hu hop)
  obtain ⟨s', hn, hfly, hvf, harr, hsp, hsrn⟩ := tabCommand_fires_convert h hu
    (sel := fun x => decide (eUnit x = 3 ∧ eCuop x = eCuop e)) (by simp [hu]) hc h38 hfire (packEmit_out fx)
  refine ⟨s', (hexec t u s).trans hn, ?_⟩
  rw [← hvf, hv.packPoison] at hfly
  rw [packEmit_buf] at hvf
  generalize (tileOf s' t).vfire = after at hvf hfly ⊢
  subst hvf
  generalize vecReads s t u e = r at hv hover hfly harr ⊢
  obtain ⟨a, b, arr⟩ := r
  obtain ⟨hpack, hpkg, hpoison, hscale, hmask, hpend, hsegcnt, hpos, hsegPoison⟩ := hv
  exact ⟨⟨v.pack, (packEmit e v fx).fx, hpack, hfly, rfl, congrArg (if eDst e = 0 then · else 0) hpkg,
    congrArg (decide (eDst e = 0) && ·) hpoison, (packEmit_overflowGroup fx).trans hover⟩,
    hscale, hmask, hpend, hsegcnt, hpos, hsegPoison, hsrn, harr, hsp⟩

end Sys2Proof.Machine

open Sys2Proof Sys2Proof.Machine

/-- Settles O24: the codes of the lanes, and the buffers that each narrowing convert leaves (narrows_of_op). -/
theorem converts : Obligations.Converts := ⟨wideningConverts, narrowingConverts⟩
end

/-! ## A firing entry of the vector pipeline by its operation (R98, R101, R104) -/

section
namespace Sys2Proof.Machine

variable {s : State} {t : TileId} {u : Upset} {e : TabEntry} {sel : TabEntry → Bool} {v : VBuf} {a b : Opd}
  {da db : List Nat} {d : Unit512}

/-- Every command of vectorRows is the tab command of its operation. -/
theorem exec_vectorRow {row : (TileId → Upset → Instr) × Nat} (h : row ∈ vectorRows) (t : TileId) (u : Upset)
    (s : State) : exec (row.1 t u) s = tabCommand (fun e => decide (eUnit e = 3 ∧ eCuop e = row.2)) t u s :=
  exec_tabRows (row.1, fun e => decide (eUnit e = 3 ∧ eCuop e = row.2)) (by
    unfold tabRows
    exact List.mem_append_left _ (List.mem_append_right _ (List.mem_map_of_mem h))) t u s

/-- What a vector entry that fires keeps to (R101). -/
theorem Fires.vectorFormed (h : Fires s t u e) (hu : eUnit e = 3) : malformedVector e = false := by
  have hf := h.on.formed
  rw [malformed, if_neg (by omega), if_neg (by omega), if_pos hu, Bool.or_eq_false_iff] at hf
  exact hf.2

theorem Fires.vectorFmt (h : Fires s t u e) (hu : eUnit e = 3) : vecFmtOk (eCuop e) (eCufmt e) = true := by
  by_contra hfmt
  have hf := h.vectorFormed hu
  simp [malformedVector, hfmt] at hf

/-- An entry that uses operand A, whose result leaves as one unit for where the entry says, and that leaves the buffers
alone. -/
theorem tabCommand_fires_plain {f : Nat} {cs : List Nat} {p : Bool} (h : Fires s t u e) (hu : eUnit e = 3)
    (hs : sel e = true) (hA : vecUsesA (eCuop e) = true) (h38 : eCuop e ≠ 0x38)
    (ho : vecFire (atStart s t).vfire e (vecReads s t u e).1 (vecReads s t u e).2.1 (laneDraws s t).1 (laneDraws s t).2 =
      plainOut e (atStart s t).vfire f cs {} d p) :
    ∃ s', tabCommand sel t u s = .next s' ∧
      (tileOf s' t).fly = addFlight (atStart s t).fly ⟨(atStart s t).tab.tc + 6,
        .vec (vecSent s t e d p) (plainOut e (atStart s t).vfire f cs {} d p).fx (atStart s t).vfire⟩ ∧
      (tileOf s' t).vfire = (atStart s t).vfire ∧ (tileOf s' t).arr = (vecReads s t u e).2.2 ∧
      (tileOf s' t).sp = (atStart s t).sp := by
  obtain ⟨s', hn, harr, hsp, hvf, hfly, -⟩ := tabCommand_fires_vector h hu hs
  have hne : eCuop e ≠ 0x39 ∧ eCuop e ≠ 0x3B := by
    constructor <;> intro hk <;> simp [hk, vecUsesA] at hA
  have hr := vecResult_eq (s := s) (t := t) (u := u) hA
  dsimp only at hr
  rw [ho] at hr
  have hsent := vecSent_of_out (s := s) (t := t) hu h38 hne.1 hne.2 (congrArg Prod.fst hr) (plainOut_out ..)
  rw [hr] at harr hvf hfly
  rw [hsent, plainOut_buf] at hfly
  exact ⟨s', hn, hfly, hvf.trans (plainOut_buf ..), harr, hsp⟩

theorem plainOut_elems {f : Nat} {cs : List Nat} {p : Bool} (hd : eDst e ≠ 0) :
    (plainOut e v f cs {} d p).fx.elems = cs.length := by
  simp [plainOut, hd, observe]

/-! ### Moves and logic (R100) -/

/-- The operations on 512 bits, each with its function. -/
def bitRows : List ((TileId → Upset → Instr) × Nat × (Unit512 → Unit512 → Unit512)) :=
  [(.vmov, 0x01, fun a _ => a), (.vand, 0x0B, (· &&& ·)), (.vor, 0x0C, (· ||| ·)), (.vxor, 0x0D, (· ^^^ ·))]

theorem bitRows_vector : ∀ row ∈ bitRows, (row.1, row.2.1) ∈ vectorRows ∧ vecUsesA row.2.1 = true ∧ row.2.1 ≠ 0x38 := by
  simp [bitRows, vectorRows, vecUsesA]

theorem vecFire_bits : ∀ row ∈ bitRows, eCuop e = row.2.1 → vecFire v e a b da db =
    plainOut e v 0 (elems (row.2.2 a.data b.data).toNat 32 16) {} (row.2.2 a.data b.data)
      (a.poison || (vecUsesB row.2.1 && b.poison)) := by
  simp only [bitRows, List.forall_mem_cons, List.not_mem_nil, false_implies, implies_true, and_true]
  refine ⟨?_, ?_, ?_, ?_⟩ <;> intro h <;> simp [vecFire, h, vecUsesA]

theorem bitwiseOperations : BitwiseOperations := by
  intro row hrow s t u e h ⟨hu, hop⟩
  obtain ⟨hvec, hA, h38⟩ := bitRows_vector row hrow
  obtain ⟨s', hn, hfly, hrest⟩ := tabCommand_fires_plain h hu
    (sel := fun e => decide (eUnit e = 3 ∧ eCuop e = row.2.1)) (decide_eq_true ⟨hu, hop⟩) (hop ▸ hA) (hop ▸ h38)
    (vecFire_bits row hrow hop)
  exact ⟨s', (exec_vectorRow hvec t u s).trans hn, ⟨_, hfly⟩, hrest⟩

end Sys2Proof.Machine
end

/-! ## Operations lane by lane (R99, R102) -/

section
namespace Sys2Proof.Machine

variable {s : State} {t : TileId} {u : Upset} {e : TabEntry} {v : VBuf} {a b : Opd} {da db : List Nat} {f op : Nat}

/-! ### The codes of the lanes -/

/-- Codes, one for each lane of a format, that are those of a function of the lane but for bits above the lane. -/
def LanesAre (f : Nat) (cs : List Nat) (g : Nat → Nat) : Prop :=
  cs.length = 512 / fmtBits f ∧ ∀ j < 512 / fmtBits f, nth cs j 0 % 2 ^ fmtBits f = g j % 2 ^ fmtBits f

/-- Lane j of an operand. -/
def lane (f : Nat) (o : Opd) (j : Nat) : Nat := elem o.data.toNat (fmtBits f) j

theorem lanesAre_map_range {c g : Nat → Nat} (h : ∀ j, c j % 2 ^ fmtBits f = g j % 2 ^ fmtBits f) :
    LanesAre f ((List.range (512 / fmtBits f)).map c) g :=
  ⟨by simp, fun j hj => by rw [nth_range_map _ _ hj, h]⟩

theorem laneElems_eq (o : Opd) : laneElems f o = (List.range (512 / fmtBits f)).map (lane f o) := rfl

theorem lanes2_eq (c : Nat → Nat → Nat) :
    lanes2 f c a b = (List.range (512 / fmtBits f)).map fun j => c (lane f a j) (lane f b j) := by
  simp [lanes2, laneElems_eq, List.zipWith_map]

theorem lanesAre_lanes2 (c : Nat → Nat → Nat) : LanesAre f (lanes2 f c a b) fun j => c (lane f a j) (lane f b j) :=
  lanes2_eq c ▸ lanesAre_map_range fun _ => rfl

theorem lanesAre_arith2 (iop : Int → Int → Int) (vop : Val → Val → Val) : LanesAre f (arith2 f iop vop a b) fun j =>
    if isInt f then intOp f iop (lane f a j) (lane f b j) else floatOp f vop (lane f a j) (lane f b j) :=
  lanesAre_lanes2 _

theorem lanesAre_cmp2 (iop : Int → Int → Bool) (vop : Val → Val → Bool) : LanesAre f (cmp2 f iop vop a b) fun j =>
    if (if isInt f then iop (sext (lane f a j) (fmtBits f)) (sext (lane f b j) (fmtBits f))
      else vop (decodeFloat f (lane f a j)) (decodeFloat f (lane f b j))) then onesOf f else 0 :=
  lanesAre_lanes2 _

theorem lanesAre_arith1 (iop : Int → Int) (vop : Val → Val) : LanesAre f (arith1 f iop vop a) fun j =>
    if isInt f then toTwos (satInt (iop (sext (lane f a j) (fmtBits f))) (fmtBits f)) (fmtBits f)
    else roundTo f (vop (decodeFloat f (lane f a j))) := by
  rw [arith1, laneElems_eq, List.map_map]
  exact lanesAre_map_range fun _ => rfl

/-- The functions of R102 are binary32 only. -/
theorem lanesAre_function (vop : Val → Val) (hf : f = 1) :
    LanesAre f (arith1 f id vop a) fun j => roundTo f (vop (decodeFloat f (lane f a j))) := by
  subst hf
  exact lanesAre_arith1 id vop

/-- VSHL: what is shifted out of the lane is lost either way. -/
theorem lanesAre_shl2 : LanesAre f (shl2 f a b) fun j => lane f a j * 2 ^ (lane f b j % fmtBits f) := by
  rw [shl2, lanes2_eq]
  exact lanesAre_map_range fun j => by rw [Nat.mod_mod, Nat.shiftLeft_eq]

/-- The codes of every element-wise operation are those of laneOf. -/
theorem lanesAre_elementwise : ∀ row ∈ laneRows, vecFmtOk row.2 f = true →
    LanesAre f (elementwise row.2 f a b) fun j => laneOf row.2 f (lane f a j) (lane f b j) := by
  have fn : ∀ {op}, 0x10 ≤ op → op ≤ 0x13 → vecFmtOk op f = true → f = 1 := by
    intro op hlo hhi h
    simpa [vecFmtOk, show ¬ (op = 1 ∨ (0xB ≤ op ∧ op ≤ 0xD) ∨ op = 0x22 ∨ op = 0x23 ∨ 0x39 ≤ op) by omega,
      show ¬ op ≤ 0xA by omega, show ¬ op ≤ 0xF by omega, hhi] using h
  simp only [laneRows, List.forall_mem_cons, List.not_mem_nil, false_implies, implies_true, and_true]
  refine ⟨?vadd, ?vsub, ?vmul, ?vmin, ?vmax, ?vabs, ?vneg, ?vcmpgt, ?vcmpeq, ?vshl, ?vshr, ?vrcp, ?vrsqrt, ?vexp2, ?vlog2⟩
  case vabs => exact fun _ => lanesAre_arith1 (fun x => x.natAbs) vAbs
  case vneg => exact fun _ => lanesAre_arith1 (fun x => -x) vNeg
  case vcmpgt => exact fun _ => lanesAre_cmp2 (fun x y => decide (y < x)) (fun x y => vLt y x)
  case vcmpeq => exact fun _ => lanesAre_cmp2 (fun x y => decide (x = y)) vEq
  case vshl => exact fun _ => lanesAre_shl2
  case vshr => exact fun _ => lanesAre_lanes2 _
  case vrcp | vrsqrt | vexp2 | vlog2 => exact fun h => lanesAre_function _ (fn (by decide) (by decide) h)
  all_goals exact fun _ => lanesAre_arith2 ..

/-- Lane j of the unit of such codes. -/
theorem LanesAre.elem_unitOf {cs : List Nat} {g : Nat → Nat} (h : LanesAre f cs g) {j : Nat} (hj : j < 512 / fmtBits f) :
    elem (unitOf f cs).toNat (fmtBits f) j = g j % 2 ^ fmtBits f := by
  rw [unitOf, elem_toNat_ofNat_of_lt _ hj, elem_joinElems, h.2 j hj]

/-! ### The commands -/

/-- The operations of R102 and R103, which compute on elements. -/
def ElementOp (op : Nat) : Prop := (2 ≤ op ∧ op ≤ 0xA) ∨ (0xE ≤ op ∧ op ≤ 0x15)

theorem ElementOp.usesA (h : ElementOp op) : vecUsesA op = true ∧ op ≠ 0x38 := by
  simp only [ElementOp, vecUsesA, Bool.or_eq_true, decide_eq_true_eq] at h ⊢
  omega

theorem vecFire_elementwise (h : ElementOp (eCuop e)) : vecFire v e a b da db =
    let cs := elementwise (eCuop e) (eCufmt e) a b
    plainOut e v (eCufmt e) cs {} (unitOf (eCufmt e) cs) (a.poison || (vecUsesB (eCuop e) && b.poison)) := by
  have hA := h.usesA.1
  unfold ElementOp at h
  unfold vecFire
  dsimp only
  rw [if_neg (by omega), if_neg (by omega), if_neg (by omega), if_neg (by omega), if_pos (by omega), hA, Bool.true_and]

/-- An element-wise operation or a reduction that fires. -/
theorem tabCommand_fires_elementwise {sel : TabEntry → Bool} (h : Fires s t u e) (hu : eUnit e = 3) (hs : sel e = true)
    (hop : ElementOp (eCuop e)) :
    ∃ s', tabCommand sel t u s = .next s' ∧
      let r := vecReads s t u e
      let cs := elementwise (eCuop e) (eCufmt e) r.1 r.2.1
      (∃ fx, (tileOf s' t).fly = addFlight (atStart s t).fly ⟨(atStart s t).tab.tc + 6,
          .vec (vecSent s t e (unitOf (eCufmt e) cs) (r.1.poison || (vecUsesB (eCuop e) && r.2.1.poison))) fx
            (atStart s t).vfire⟩ ∧ (eDst e ≠ 0 → fx.elems = cs.length)) ∧
      (tileOf s' t).vfire = (atStart s t).vfire ∧ (tileOf s' t).arr = r.2.2 ∧ (tileOf s' t).sp = (atStart s t).sp := by
  obtain ⟨s', hn, hfly, hrest⟩ :=
    tabCommand_fires_plain h hu hs hop.usesA.1 hop.usesA.2 (vecFire_elementwise hop)
  exact ⟨s', hn, ⟨_, hfly, plainOut_elems⟩, hrest⟩

theorem laneRows_vector : ∀ row ∈ laneRows, row ∈ vectorRows ∧ ElementOp row.2 := by
  simp [laneRows, vectorRows, ElementOp]

theorem laneOperations : LaneOperations := by
  intro row hrow s t u e h ⟨hu, hop⟩
  obtain ⟨hvec, hel⟩ := laneRows_vector row hrow
  obtain ⟨s', hn, ⟨fx, hfly, helems⟩, hrest⟩ := tabCommand_fires_elementwise h hu
    (sel := fun e => decide (eUnit e = 3 ∧ eCuop e = row.2)) (decide_eq_true ⟨hu, hop⟩) (hop ▸ hel)
  have hl := lanesAre_elementwise (f := eCufmt e) (a := (vecReads s t u e).1) (b := (vecReads s t u e).2.1) row hrow
    (hop ▸ h.vectorFmt hu)
  rw [hop] at hfly helems
  exact ⟨s', (exec_vectorRow hvec t u s).trans hn, _, fx, hfly, fun j hj => hl.elem_unitOf hj,
    fun hd => (helems hd).trans hl.1, hrest⟩

end Sys2Proof.Machine

open Sys2Proof Sys2Proof.Machine

/-- Settles O23: the codes of every lane (lanesAre_elementwise), and the operations on 512 bits (vecFire_bits). -/
theorem vectorArithmetic : Obligations.VectorArithmetic := ⟨laneOperations, bitwiseOperations⟩
end

/-! ## Reductions (R103) -/

section
namespace Sys2Proof.Machine

variable {s : State} {t : TileId} {u : Upset} {e : TabEntry} {a b : Opd} {f : Nat}

/-- A level of the tree halves the number of values. -/
theorem pairUp_map_range (op : Nat → Nat → Nat) (l : Nat → Nat) (n : Nat) :
    pairUp op ((List.range (2 * n)).map l) = (List.range n).map fun j => op (l (2 * j)) (l (2 * j + 1)) := by
  induction n generalizing l with
  | zero => rfl
  | succ n ih =>
    have hcut : (List.range (2 * (n + 1))).map l = l 0 :: l 1 :: (List.range (2 * n)).map fun i => l (i + 2) := by
      simp only [Nat.mul_succ, List.range_succ_eq_map, List.map_cons, List.map_map]
      rfl
    rw [hcut, pairUp, ih, List.range_succ_eq_map (n := n), List.map_cons, List.map_map]
    rfl

/-- What a level of the tree makes of its values, neighbours first. -/
def treeLevel (op : Nat → Nat → Nat) (l : Nat → Nat) (j : Nat) : Nat := op (l (2 * j)) (l (2 * j + 1))

/-- The four levels of the tree over the 16 lanes. -/
theorem reduce16_eq (op : Nat → Nat → Nat) (hf : fmtBits f = 32) : reduce16 f op a =
    treeLevel op (treeLevel op (treeLevel op (treeLevel op (lane f a)))) 0 :: List.replicate 15 0 := by
  have h16 : laneElems f a = (List.range (2 * 8)).map (lane f a) := by rw [laneElems_eq, hf]
  rw [reduce16, h16, pairUp_map_range, pairUp_map_range _ _ 4, pairUp_map_range _ _ 2, pairUp_map_range _ _ 1]
  rfl

/-- Lane 0 holds the value, the other lanes +0. -/
theorem elem_reduced (w : Nat) (hf : fmtBits f = 32) :
    elem (unitOf f (w :: List.replicate 15 0)).toNat 32 0 = w % 2 ^ 32 ∧
    ∀ j, 1 ≤ j → j < 16 → elem (unitOf f (w :: List.replicate 15 0)).toNat 32 j = 0 := by
  have helem : ∀ j < 16, elem (unitOf f (w :: List.replicate 15 0)).toNat 32 j =
      nth (w :: List.replicate 15 0) j 0 % 2 ^ 32 := by
    intro j hj
    rw [unitOf, hf, elem_toNat_ofNat_of_lt _ (by omega), elem_joinElems]
  refine ⟨helem 0 (by decide), fun j h1 h16 => ?_⟩
  obtain ⟨k, rfl⟩ := Nat.exists_eq_add_of_le' h1
  rw [helem _ h16, nth, List.getD_cons_succ, List.getD_replicate _ (by omega), Nat.zero_mod]

/-- The sum and the maximum, each with the operation at its nodes. -/
def treeRows : List ((TileId → Upset → Instr) × Nat × Bool) := [(.vrsum, 0x14, true), (.vrmax, 0x15, false)]

/-- The operation at the nodes of a reduction's tree. -/
def treeOp (sum : Bool) (f x y : Nat) : Nat := if sum then laneOf 0x02 f x y else laneOf 0x06 f x y

theorem treeRows_vector : ∀ row ∈ treeRows, (row.1, row.2.1) ∈ vectorRows ∧ ElementOp row.2.1 ∧ vecUsesB row.2.1 = false ∧
    (vecFmtOk row.2.1 f = true → fmtBits f = 32) ∧ elementwise row.2.1 f a b = reduce16 f (treeOp row.2.2 f) a := by
  have hfmt : f = 1 ∨ f = 12 → fmtBits f = 32 := by rintro (rfl | rfl) <;> rfl
  simp only [treeRows, List.forall_mem_cons, List.not_mem_nil, false_implies, implies_true, and_true]
  refine ⟨?_, ?_⟩ <;>
    exact ⟨by simp [vectorRows], by simp [ElementOp], rfl, fun h => hfmt (by simpa [vecFmtOk] using h), rfl⟩

end Sys2Proof.Machine

open Sys2Proof Sys2Proof.Machine

/-- Settles O22: the codes of a reduction are the tree of R103 (reduce16_eq) above 15 zeros. -/
theorem treeReductions : Obligations.TreeReductions := by
  intro row hrow s t u e h ⟨hu, hop⟩
  obtain ⟨hvec, hel, hB, hfmt, hcodes⟩ := treeRows_vector (f := eCufmt e) (a := (vecReads s t u e).1)
    (b := (vecReads s t u e).2.1) row hrow
  obtain ⟨s', hn, ⟨fx, hfly, -⟩, hrest⟩ := tabCommand_fires_elementwise h hu
    (sel := fun e => decide (eUnit e = 3 ∧ eCuop e = row.2.1)) (decide_eq_true ⟨hu, hop⟩) (hop ▸ hel)
  have h32 := hfmt (hop ▸ h.vectorFmt hu)
  rw [hop, hB, Bool.false_and, Bool.or_false, hcodes, reduce16_eq _ h32] at hfly
  obtain ⟨hzero, hothers⟩ := elem_reduced (f := eCufmt e)
    (treeLevel (treeOp row.2.2 (eCufmt e)) (treeLevel (treeOp row.2.2 (eCufmt e)) (treeLevel (treeOp row.2.2 (eCufmt e))
      (treeLevel (treeOp row.2.2 (eCufmt e)) (lane (eCufmt e) (vecReads s t u e).1)))) 0) h32
  refine ⟨s', (exec_vectorRow hvec t u s).trans hn, _, fx, hfly, hzero.trans ?_, hothers, hrest⟩
  simp only [treeLevel, lane, h32]
  rfl
end

/-! ## A vector entry leaves V6 (R98, R112, R114, R116) -/

section
namespace Sys2Proof.Machine

variable {core x y vis i mism : Nat} {em : Emit} {fx : VecFx} {b : VBuf} {q : Tile} {c : TileCtr} {n : Nat}
  {l : List (TileCtr × Nat)}

/-! ### Several counters of a tile advance -/

/-- Counters that advance, the last of the list first. -/
def bumpAll (core : Nat) (l : List (TileCtr × Nat)) (q : Tile) : Tile := l.foldr (fun p q => bump core p.1 p.2 q) q

theorem bumpAll_wf (w : mwf 0 q.ctr = true) : mwf 0 (bumpAll core l q).ctr = true := by
  induction l with
  | nil => exact w
  | cons p l ih => exact bump_wf ih

theorem bumpAll_proj {α : Sort*} (p : Tile → α) (hp : ∀ q c v, p { q with ctr := c, ev := v } = p q) :
    p (bumpAll core l q) = p q := by
  induction l with
  | nil => rfl
  | cons a l ih => exact (bump_proj p hp ..).trans ih

theorem ctrVal_bumpAll_ne (w : mwf 0 q.ctr = true) (h : ctrOffset c ∉ l.map fun p => ctrOffset p.1) :
    ctrVal (bumpAll core l q) c = ctrVal q c := by
  induction l with
  | nil => rfl
  | cons p l ih =>
    rw [List.map_cons, List.mem_cons, not_or] at h
    exact (ctrVal_bump_ne (bumpAll_wf w) h.1).trans (ih h.2)

/-- Counters of registers of their own each advance by their own number. -/
theorem ctrVal_bumpAll (w : mwf 0 q.ctr = true) (hl : (l.map fun p => ctrOffset p.1).Nodup) (h : (c, n) ∈ l) :
    ctrVal (bumpAll core l q) c = min (ctrVal q c + n) ctrMax := by
  induction l with
  | nil => simp at h
  | cons p l ih =>
    obtain ⟨hp, hl⟩ := List.nodup_cons.mp hl
    rcases List.mem_cons.mp h with rfl | h
    · exact (ctrVal_bump (bumpAll_wf w)).trans (by rw [ctrVal_bumpAll_ne w hp])
    · have hne : ctrOffset c ≠ ctrOffset p.1 := fun he => hp (List.mem_map.mpr ⟨_, h, he⟩)
      exact (ctrVal_bump_ne (bumpAll_wf w) hne).trans (ih hl h)

/-! ### What an entry in V6 counts and shows -/

/-- The counters that an entry advances in V6 (R116). -/
def vecCounts (fx : VecFx) : List (TileCtr × Nat) :=
  [(.vecElem, fx.elems), (.vecZero, fx.zeros), (.vecZ24, fx.z24), (.cmpPrune, fx.prune), (.cvtSat, fx.sat),
   (.cvtNan, fx.nans)]

theorem vecCounts_nodup (fx : VecFx) : ((vecCounts fx).map fun p => ctrOffset p.1).Nodup := by
  simp only [vecCounts, List.map_cons, List.map_nil]
  decide

/-- The tile that shows the buffers and, for the segment operations, has used the write port (R111). -/
def shownBuf (b : VBuf) (segWrite : Bool) (vis : Nat) (q : Tile) : Tile :=
  { q with vshow := b, mu := if segWrite then { q.mu with wUsed := max q.mu.wUsed (vis + 1) } else q.mu }

theorem shownBuf_slots {g : Bool} : (shownBuf b g vis q).mu.slots = q.mu.slots := by
  unfold shownBuf
  split <;> rfl

/-- The count and the event of a residue mismatch (R114). -/
def residueNoted (core mism : Nat) (q : Tile) : Tile :=
  if decide (mism ≠ 0) then
    tileEvent core .vectorResidue (lowestBit mism 16) (mism % 2 ^ 16) (bump core .vecResidue (popcount mism 16) q)
  else q

theorem residueNoted_zero (h : mism = 0) : residueNoted core mism q = q := by simp [residueNoted, h]

theorem residueNoted_ctr (h : mism ≠ 0) :
    (residueNoted core mism q).ctr = (bump core .vecResidue (popcount mism 16) q).ctr := by
  simp only [residueNoted, h, decide_true, if_true, ne_eq, not_false_eq_true]
  rfl

theorem residueNoted_proj {α : Sort*} (p : Tile → α) (hp : ∀ q c v, p { q with ctr := c, ev := v } = p q) :
    p (residueNoted core mism q) = p q := by
  unfold residueNoted
  split
  · exact (hp _ _ _).trans (bump_proj p hp ..)
  · rfl

/-- The tile once an entry has been counted in V6, before its unit leaves. -/
def vecNoted (core vis : Nat) (fx : VecFx) (b : VBuf) (mism : Nat) (q : Tile) : Tile :=
  residueNoted core mism (bumpAll core (vecCounts fx) (shownBuf b fx.segWrite vis q))

theorem vecNoted_proj {α : Sort*} (p : Tile → α) (hp : ∀ q c v, p { q with ctr := c, ev := v } = p q) :
    p (vecNoted core vis fx b mism q) = p (shownBuf b fx.segWrite vis q) :=
  (residueNoted_proj p hp).trans (bumpAll_proj p hp)

/-- Every counter but that of mismatches is as the entry's own counts leave it. -/
theorem ctrVal_vecNoted (w : mwf 0 q.ctr = true) (hc : ctrOffset c ≠ ctrOffset .vecResidue) :
    ctrVal (vecNoted core vis fx b mism q) c = ctrVal (bumpAll core (vecCounts fx) (shownBuf b fx.segWrite vis q)) c := by
  by_cases h0 : mism = 0
  · rw [vecNoted, residueNoted_zero h0]
  · rw [vecNoted, ctrVal_congr (residueNoted_ctr h0)]
    exact ctrVal_bump_ne (bumpAll_wf (q := shownBuf b fx.segWrite vis q) w) hc

theorem ctrVal_vecNoted_counts (w : mwf 0 q.ctr = true) (h : (c, n) ∈ vecCounts fx)
    (hc : ctrOffset c ≠ ctrOffset .vecResidue) :
    ctrVal (vecNoted core vis fx b mism q) c = min (ctrVal q c + n) ctrMax :=
  (ctrVal_vecNoted w hc).trans (ctrVal_bumpAll w (vecCounts_nodup fx) h)

/-- The counter of mismatches counts the lanes named. -/
theorem ctrVal_vecNoted_residue (w : mwf 0 q.ctr = true) :
    (mism = 0 → ctrVal (vecNoted core vis fx b mism q) .vecResidue = ctrVal q .vecResidue) ∧
    (mism ≠ 0 → ctrVal (vecNoted core vis fx b mism q) .vecResidue =
      min (ctrVal q .vecResidue + popcount mism 16) ctrMax) := by
  have wb : mwf 0 (bumpAll core (vecCounts fx) (shownBuf b fx.segWrite vis q)).ctr = true :=
    bumpAll_wf (q := shownBuf b fx.segWrite vis q) w
  have hstand : ctrVal (bumpAll core (vecCounts fx) (shownBuf b fx.segWrite vis q)) .vecResidue = ctrVal q .vecResidue :=
    ctrVal_bumpAll_ne w (by simp only [vecCounts, List.map_cons, List.map_nil]; decide)
  refine ⟨fun h0 => ?_, fun h0 => ?_⟩
  · rw [vecNoted, residueNoted_zero h0, hstand]
  · rw [vecNoted, ctrVal_congr (residueNoted_ctr h0), ctrVal_bump wb, hstand]

/-- What counting an entry leaves of the tile, but for the buffers shown. -/
theorem vecNoted_frame :
    let r := vecNoted core vis fx b mism q
    r.vshow = b ∧ r.vfire = q.vfire ∧ r.fly = q.fly ∧ r.mu.slots = q.mu.slots ∧
      r.arr = q.arr ∧ r.sp = q.sp ∧ r.tab = q.tab ∧ r.fret = q.fret :=
  ⟨vecNoted_proj (·.vshow) fun _ _ _ => rfl, vecNoted_proj (·.vfire) fun _ _ _ => rfl,
    vecNoted_proj (·.fly) fun _ _ _ => rfl, (vecNoted_proj (·.mu.slots) fun _ _ _ => rfl).trans shownBuf_slots,
    vecNoted_proj (·.arr) fun _ _ _ => rfl, vecNoted_proj (·.sp) fun _ _ _ => rfl,
    vecNoted_proj (·.tab) fun _ _ _ => rfl, vecNoted_proj (·.fret) fun _ _ _ => rfl⟩

/-- An entry that did not write the pack buffer and found no overfull group: its unit leaves, poisoned by a mismatch. -/
theorem landVec_eq (hp : fx.packWrite = false) (ho : fx.overflowGroup = none) :
    landVec core x y vis (some em) fx b mism q =
      landEmit core x y vis { em with poison := em.poison || decide (mism ≠ 0) } (vecNoted core vis fx b mism q) := by
  unfold landVec
  extract_lets bad _ shown packed counted grouped noted
  have hpacked : packed = shown := if_neg (by simp [hp])
  have hcounted : counted = bumpAll core (vecCounts fx) packed := by
    simp only [counted, bumpAll, vecCounts, List.foldr_cons, List.foldr_nil]
  have hgrouped : grouped = counted := by simp only [grouped, ho]
  have hnoted : noted = residueNoted core mism grouped := rfl
  rw [hnoted, hgrouped, hcounted, hpacked]
  rfl

end Sys2Proof.Machine

open Sys2Proof Sys2Proof.Machine

/-- Settles O17: the counts of an entry in V6 (vecNoted), and its unit in its slot (landEmit_slot). -/
theorem vectorLeavesV6 : Obligations.VectorLeavesV6 := by
  intro s t mism vis i em fx b rest ht wm _ hv hf hp ho hs hc hsc ws wc _
  refine ⟨_, landCommand_head ht hf rfl hv, ?_⟩
  rw [tileOf_modTile wm]
  generalize landCore s (tileOf s t) _ = core
  generalize tileOf s t = pre at *
  dsimp only [landFlight]
  rw [landVec_eq hp ho, landEmit_slot (em := { em with poison := em.poison || decide (mism ≠ 0) }) hs hc hsc]
  have wr : mwf 0 ({ pre with fly := rest } : Tile).ctr = true := wc
  obtain ⟨hshow, hfire, hfly, hslots, harr, hsp, htab, hfret⟩ :=
    vecNoted_frame (core := core) (vis := vis) (fx := fx) (b := b) (mism := mism) (q := { pre with fly := rest })
  obtain ⟨hres0, hres⟩ := ctrVal_vecNoted_residue (core := core) (vis := vis) (fx := fx) (b := b) (mism := mism) wr
  have hctr := fun c n => ctrVal_vecNoted_counts (core := core) (vis := vis) (fx := fx) (b := b) (mism := mism) (c := c)
    (n := n) wr
  generalize vecNoted core vis fx b mism _ = r at *
  dsimp only
  rw [hslots, mget_mmod ws]
  exact ⟨hshow, hfire, hfly, rfl, rfl, fun k hk => mget_mmod_ne ws hk,
    hctr .vecElem _ (by simp [vecCounts]) (by decide), hctr .vecZero _ (by simp [vecCounts]) (by decide),
    hctr .cvtSat _ (by simp [vecCounts]) (by decide), hres0, hres, harr, hsp, htab, hfret⟩
end

/-! ## The buffers that the compressor emits (R106, R107, R110, R111) -/

section
namespace Sys2Proof.Machine

variable {s : State} {t : TileId} {u : Upset} {e : TabEntry} {sel : TabEntry → Bool} {env : TileEnv} {q : Tile}
  {v w : VBuf} {a b : Opd} {da db : List Nat} {d : Unit512} {p : Bool} {o : VecOut} {k : Nat}

/-! ### What an entry of the compressor keeps to (R101) -/

/-- PACK.SCL, PACK.MSK and CMP.COUNT have a DST. -/
theorem Fires.dst_of_emits (h : Fires s t u e) (hu : eUnit e = 3)
    (hop : eCuop e = 0x22 ∨ eCuop e = 0x23 ∨ eCuop e = 0x3A) : eDst e ≠ 0 := by
  intro h0
  have hf := h.vectorFormed hu
  simp [malformedVector, hop, h0] at hf

/-- CMP.SEG and CMP.FLUSH write the scratchpad. -/
theorem Fires.dst_of_segment (h : Fires s t u e) (hu : eUnit e = 3) (hop : eCuop e = 0x38 ∨ eCuop e = 0x39) :
    dstMu e = true := by
  by_contra hd
  have hne : eDst e ≠ 1 := fun h1 => hd (by simp [dstMu, h1])
  have hf := h.vectorFormed hu
  simp [malformedVector, hop, hne] at hf

/-! ### The unit sent -/

/-- An operation that does not use operand A computes on the operands of its sources and leaves the array alone. -/
theorem vecResult_of_not_usesA (hA : vecUsesA (eCuop e) = false) :
    ∃ da db, vecResult env e a b q = (vecFire q.vfire e a b da db, q.arr) :=
  ⟨_, _, by simp only [vecResult, vecOperands, hA, Bool.false_eq_true, false_and, if_false]; rfl⟩

/-- The slot of a segment (R111). -/
def segSlot (q : Tile) (k : Nat) : Nat := agWrap q.mu.ag1 (q.mu.ag1.cur.toNat + k)

/-- The unit of a segment goes to its own slot and to where the entry says. -/
theorem segSent_of_out (hu : eUnit e = 3) (hop : eCuop e = 0x38 ∨ eCuop e = 0x39) (hd : dstMu e = true)
    (ho : (vecResult (envOf s t) e a b (atStart s t)).1 = o) (hout : o.out = some (d, p)) (hofs : o.segOfs = some k) :
    (o.out.map fun r => mkEmit e (unitSlots (envOf s t) e a b (atStart s t)).head? r.1 r.2 true) =
      some { vecEmit s t e d p with slot := some (segSlot (atStart s t) k) } := by
  have hslot : (unitSlots (envOf s t) e a b (atStart s t)).head? = some (segSlot (atStart s t) k) := by
    simp [unitSlots, unitTargets, writeTargets, hu, ho, hout, hofs, hd, hop, segSlot]
  simp only [hout, Option.map_some, hslot, vecEmit, mkEmit, Bool.true_and]

/-! ### Operations without operand A -/

/-- A firing entry leaves these buffers, sends this unit and leaves the array and the sparse engine alone. -/
def Leaves (s : State) (t : TileId) (r : Out) (v : VBuf) (em : Option Emit) : Prop :=
  ∃ s', r = .next s' ∧ (tileOf s' t).vfire = v ∧
    (∃ fx, (tileOf s' t).fly = addFlight (atStart s t).fly ⟨(atStart s t).tab.tc + 6,
      .vec em fx (tileOf s' t).vfire⟩) ∧
    (tileOf s' t).arr = (atStart s t).arr ∧ (tileOf s' t).sp = (atStart s t).sp

/-- What the tab command of an operation leaves, the operation's own command leaves. -/
theorem Leaves.of_row {row : (TileId → Upset → Instr) × Nat} {em : Option Emit} (hrow : row ∈ vectorRows)
    (h : Leaves s t (tabCommand (fun e => decide (eUnit e = 3 ∧ eCuop e = row.2)) t u s) v em) :
    Leaves s t (exec (row.1 t u) s) v em := by
  rwa [exec_vectorRow hrow]

/-- An operation that does not use operand A leaves what vecFire answers, whatever is drawn. -/
theorem leaves_of_not_usesA {em : Option Emit} (h : Fires s t u e) (hu : eUnit e = 3) (hs : sel e = true)
    (hA : vecUsesA (eCuop e) = false)
    (ho : ∀ da db, vecFire (atStart s t).vfire e (operandA s t u e) (operandB s t u e) da db = o)
    (hem : (vecResult (envOf s t) e (operandA s t u e) (operandB s t u e) (atStart s t)).1 = o →
      (o.out.map fun r => mkEmit e (unitSlots (envOf s t) e (operandA s t u e) (operandB s t u e) (atStart s t)).head?
        r.1 r.2 true) = em) :
    Leaves s t (tabCommand sel t u s) o.buf em := by
  obtain ⟨s', hn, harr, hsp, hvf, hfly, -⟩ := tabCommand_fires_vector h hu hs
  obtain ⟨da, db, hr⟩ := vecResult_of_not_usesA (env := envOf s t) (a := operandA s t u e) (b := operandB s t u e)
    (q := atStart s t) hA
  rw [ho] at hr
  have hfst := congrArg Prod.fst hr
  rw [hfst, hem hfst] at hfly
  rw [hr] at harr hvf
  exact ⟨s', hn, hvf, ⟨_, by rw [hvf]; exact hfly⟩, harr, hsp⟩

theorem vecFire_packScl (h : eCuop e = 0x22) : vecFire w e a b da db =
    { buf := { w with scale := 0, skp := 0, scalePoison := false }, out := some (w.scale, w.scalePoison) } := by
  simp [vecFire, h]

theorem vecFire_packMsk (h : eCuop e = 0x23) : vecFire w e a b da db =
    { buf := { w with mask := 0, mkp := 0, maskPoison := false }, out := some (w.mask, w.maskPoison) } := by
  simp [vecFire, h]

theorem vecFire_cmpCount (h : eCuop e = 0x3A) : vecFire w e a b da db =
    { buf := w, out := some (BitVec.ofNat 512 w.segcnt.toNat, false) } := by
  simp [vecFire, h]

theorem vecFire_cmpFlush (h : eCuop e = 0x39) : vecFire w e a b da db = cmpFlush w := by
  simp [vecFire, h]

theorem vecFire_cmpReset (h : eCuop e = 0x3B) : vecFire w e a b da db = { buf := { w with
    pend := [], segcnt := 0, pos := if eSrcb e = 0 then 0 else BitVec.ofNat 32 (fld b.data.toNat 0 32) } } := by
  simp [vecFire, h]

/-- PACK.SCL, PACK.MSK and CMP.COUNT: the unit goes where the entry says. -/
theorem leaves_emits (h : Fires s t u e) (hu : eUnit e = 3) (hs : sel e = true)
    (hop : eCuop e = 0x22 ∨ eCuop e = 0x23 ∨ eCuop e = 0x3A)
    (ho : ∀ da db, vecFire (atStart s t).vfire e (operandA s t u e) (operandB s t u e) da db =
      { buf := v, out := some (d, p) }) :
    Leaves s t (tabCommand sel t u s) v (some (vecEmit s t e d p)) := by
  have h0 := h.dst_of_emits hu hop
  have hA : vecUsesA (eCuop e) = false := by rcases hop with h | h | h <;> rw [h] <;> rfl
  have hsent : vecSent s t e d p = some (vecEmit s t e d p) := if_neg h0
  exact leaves_of_not_usesA h hu hs hA ho fun hr =>
    (vecSent_of_out hu (by omega) (by omega) (by omega) hr (if_neg h0).symm).trans hsent

/-- CMP.RESET, and a CMP.FLUSH of no pairs: nothing is sent. -/
theorem leaves_silent (h : Fires s t u e) (hu : eUnit e = 3) (hs : sel e = true) (hA : vecUsesA (eCuop e) = false)
    (ho : ∀ da db, vecFire (atStart s t).vfire e (operandA s t u e) (operandB s t u e) da db = o) (hout : o.out = none) :
    Leaves s t (tabCommand sel t u s) o.buf none :=
  leaves_of_not_usesA h hu hs hA ho fun _ => by rw [hout]; rfl

/-- A CMP.FLUSH of some pairs. -/
theorem leaves_flush (h : Fires s t u e) (hu : eUnit e = 3) (hs : sel e = true) (hop : eCuop e = 0x39)
    (hw : (atStart s t).vfire = w) (hpend : w.pend ≠ []) :
    Leaves s t (tabCommand sel t u s) { w with pend := [], segcnt := w.segcnt + 1, segPoison := false }
      (some { vecEmit s t e (BitVec.ofNat 512 (joinElems 32 (w.pend.map (·.toNat)))) w.segPoison with
        slot := some (segSlot (atStart s t) w.segcnt.toNat) }) := by
  have hA : vecUsesA (eCuop e) = false := by rw [hop]; rfl
  have ho := fun da db => (vecFire_cmpFlush (w := (atStart s t).vfire) (a := operandA s t u e) (b := operandB s t u e)
    (da := da) (db := db) hop).trans (by rw [cmpFlush, hw, if_neg hpend])
  exact leaves_of_not_usesA h hu hs hA ho fun hr =>
    segSent_of_out hu (.inr hop) (h.dst_of_segment hu (.inr hop)) hr rfl rfl

/-! ### CMP.SEG (R111) -/

/-- The code of lane j of operand A. -/
def segCode (s : State) (t : TileId) (e : TabEntry) (a : Opd) (j : Nat) : Nat :=
  (convElem (eCufmt e) (bit (eCuflag e) 2) (laneRnd s t e j) (decodeElem (wideOf e) (elem a.data.toNat 32 j))).code

/-- The pairs of the non-zero codes with their positions. -/
def segPairs (s : State) (t : TileId) (e : TabEntry) (w : VBuf) (a : Opd) : List (BitVec 32) :=
  ((List.range 16).filter fun j => !vIsZero (decodeElem (eCufmt e) (segCode s t e a j))).map fun j =>
    BitVec.ofNat 32 (segCode s t e a j % 2 ^ 16 + min (w.pos.toNat + j) 0xFFFF * 2 ^ 16)

theorem convList_segCodes : (convList (eCufmt e) (eCuflag e) (laneDraws s t).1 (wideVals (eCuflag e) a)).map (·.code) =
    (List.range 16).map (segCode s t e a) := by
  rw [wideVals, elems, List.map_map, convList_map_range, List.map_map]
  refine List.map_congr_left fun j hj => ?_
  rw [Function.comp, rndOf_laneDraws_fst (List.mem_range.mp hj)]
  rfl

/-- The pairs as the compressor lists them. -/
theorem segPairs_eq : segPairs s t e w a =
    ((((List.range 16).map (segCode s t e a)).zipIdx.filter fun (c, _) => !codeIsZero (eCufmt e) c).map fun (c, j) =>
      segPair w.pos.toNat j c) := by
  rw [zipIdx_map_range, List.filter_map, List.map_map]
  refine List.map_congr_left fun j _ => ?_
  simp only [Function.comp, segPair, Nat.shiftLeft_eq]
  rfl

/-- The pairs pending once those of a CMP.SEG are appended. -/
def segAll (s : State) (t : TileId) (e : TabEntry) (w : VBuf) (a : Opd) : List (BitVec 32) := w.pend ++ segPairs s t e w a

/-- The buffers after a CMP.SEG with these pairs and this poison. -/
def segBuf (w : VBuf) (all : List (BitVec 32)) (bad : Bool) : VBuf :=
  if 16 ≤ all.length then { w with pend := all.drop 16, pos := w.pos + 16, segcnt := w.segcnt + 1, segPoison := false }
  else { w with pend := all, pos := w.pos + 16, segPoison := bad }

/-- The unit of the oldest 16 pairs. -/
def segUnit (all : List (BitVec 32)) : Unit512 := BitVec.ofNat 512 (joinElems 32 ((all.take 16).map (·.toNat)))

theorem vecFire_cmpSeg (h : eCuop e = 0x38) :
    let r := vecFire w e a b (laneDraws s t).1 (laneDraws s t).2
    let all := segAll s t e w a
    r.buf = segBuf w all (w.segPoison || a.poison) ∧
    r.out = (if 16 ≤ all.length then some (segUnit all, w.segPoison || a.poison) else none) ∧
    r.segOfs = if 16 ≤ all.length then some w.segcnt.toNat else none := by
  have huse : vecUsesA 0x38 = true ∧ vecUsesB 0x38 = false := ⟨rfl, rfl⟩
  have hfire : ∃ fx, vecFire w e a b (laneDraws s t).1 (laneDraws s t).2 =
      cmpSeg w (eCufmt e) ((List.range 16).map (segCode s t e a)) a.poison fx := by
    simp only [vecFire, h, huse, Bool.true_and, Bool.false_and, Bool.or_false, convList_segCodes]
    exact ⟨_, rfl⟩
  obtain ⟨fx, hfire⟩ := hfire
  dsimp only
  rw [hfire, cmpSeg, ← segPairs_eq, ← segAll, segBuf]
  by_cases hfull : 16 ≤ (segAll s t e w a).length
  · simp only [hfull, if_true]
    exact ⟨trivial, rfl, trivial⟩
  · simp only [hfull, if_false, and_self]

/-- The unit of a CMP.SEG: a segment when there are pairs for one. -/
theorem segSent_of_cmpSeg (h : Fires s t u e) (hu : eUnit e = 3) (hop : eCuop e = 0x38) {all : List (BitVec 32)}
    (hout : (vecResult (envOf s t) e a b (atStart s t)).1.out = if 16 ≤ all.length then some (d, p) else none)
    (hofs : (vecResult (envOf s t) e a b (atStart s t)).1.segOfs = if 16 ≤ all.length then some k else none) :
    ((vecResult (envOf s t) e a b (atStart s t)).1.out.map fun r =>
      mkEmit e (unitSlots (envOf s t) e a b (atStart s t)).head? r.1 r.2 true) =
      if 16 ≤ all.length then some { vecEmit s t e d p with slot := some (segSlot (atStart s t) k) } else none := by
  by_cases hfull : 16 ≤ all.length
  · rw [if_pos hfull] at hout hofs ⊢
    exact segSent_of_out hu (.inl hop) (h.dst_of_segment hu (.inl hop)) rfl hout hofs
  · rw [if_neg hfull] at hout ⊢
    rw [hout, Option.map_none]

theorem tabCommand_fires_cmpSeg (h : Fires s t u e) (hu : eUnit e = 3) (hs : sel e = true) (hop : eCuop e = 0x38) :
    ∃ s', tabCommand sel t u s = .next s' ∧
      let pre := atStart s t
      let w := pre.vfire
      let r := vecReads s t u e
      let all := segAll s t e w r.1
      let bad := w.segPoison || r.1.poison
      (tileOf s' t).vfire = segBuf w all bad ∧
      (∃ fx, (tileOf s' t).fly = addFlight pre.fly ⟨pre.tab.tc + 6, .vec
        (if 16 ≤ all.length then
          some { vecEmit s t e (segUnit all) bad with slot := some (segSlot pre w.segcnt.toNat) } else none) fx
          (tileOf s' t).vfire⟩) ∧
      (tileOf s' t).arr = r.2.2 ∧ (tileOf s' t).sp = pre.sp ∧ (tileOf s' t).tab.srn = srnAfter e pre.tab.srn := by
  obtain ⟨s', hn, harr, hsp, hvf, hfly, hsrn⟩ := tabCommand_fires_vector h hu hs
  have hr := vecResult_eq (s := s) (t := t) (u := u) (e := e) (by rw [hop]; rfl)
  obtain ⟨hbuf, hout, hofs⟩ := vecFire_cmpSeg (s := s) (t := t) (w := (atStart s t).vfire) (a := (vecReads s t u e).1)
    (b := (vecReads s t u e).2.1) hop
  have hfst := congrArg Prod.fst hr
  dsimp only at hfst
  rw [← hfst] at hbuf hout hofs
  rw [segSent_of_cmpSeg h hu hop hout hofs, ← hvf] at hfly
  rw [if_pos (by rw [hop]; rfl)] at hsrn
  exact ⟨s', hn, hvf.trans hbuf, ⟨_, hfly⟩, harr.trans (congrArg Prod.snd hr), hsp, hsrn⟩

end Sys2Proof.Machine

open Sys2Proof Sys2Proof.Machine

/-- Settles O25: what each operation of the compressor answers (vecFire_packScl, …), and where its unit goes. -/
theorem compressorBuffers : Obligations.CompressorBuffers := by
  intro s t u e h hu
  have hs : ∀ {op}, eCuop e = op → decide (eUnit e = 3 ∧ eCuop e = op) = true := fun hop => decide_eq_true ⟨hu, hop⟩
  refine ⟨fun hop => ?packScl, fun hop => ?packMsk, fun hop => ?cmpCount, fun hop => ?cmpReset, fun hop hpend => ?noPairs,
    fun hop hpend => ?cmpFlush, fun hop => ?cmpSeg⟩
  case packScl =>
    exact Leaves.of_row (row := (.packScl, 0x22)) (by simp [vectorRows])
      (leaves_emits h hu (hs hop) (.inl hop) fun _ _ => vecFire_packScl hop)
  case packMsk =>
    exact Leaves.of_row (row := (.packMsk, 0x23)) (by simp [vectorRows])
      (leaves_emits h hu (hs hop) (.inr (.inl hop)) fun _ _ => vecFire_packMsk hop)
  case cmpCount =>
    exact Leaves.of_row (row := (.cmpCount, 0x3A)) (by simp [vectorRows])
      (leaves_emits h hu (hs hop) (.inr (.inr hop)) fun _ _ => vecFire_cmpCount hop)
  case cmpReset =>
    exact Leaves.of_row (row := (.cmpReset, 0x3B)) (by simp [vectorRows])
      (leaves_silent h hu (hs hop) (by rw [hop]; rfl) (fun _ _ => vecFire_cmpReset hop) rfl)
  case noPairs =>
    exact Leaves.of_row (row := (.cmpFlush, 0x39)) (by simp [vectorRows])
      (leaves_silent h hu (hs hop) (by rw [hop]; rfl)
        (fun _ _ => (vecFire_cmpFlush hop).trans (by rw [cmpFlush, if_pos hpend])) rfl)
  case cmpFlush =>
    exact Leaves.of_row (row := (.cmpFlush, 0x39)) (by simp [vectorRows]) (leaves_flush h hu (hs hop) hop rfl hpend)
  case cmpSeg =>
    obtain ⟨s', hn, hrest⟩ :=
      tabCommand_fires_cmpSeg (sel := fun e => decide (eUnit e = 3 ∧ eCuop e = 0x38)) h hu (hs hop) hop
    have hrow := exec_vectorRow (row := (.cmpSeg, 0x38)) (by simp [vectorRows]) t u s
    exact ⟨s', hrow.trans hn, hrest⟩
end

/-! ## A firing entry of the sparse engine (R118-R149) -/

section
namespace Sys2Proof.Machine

variable {s : State} {t : TileId} {u : Upset} {e : TabEntry}

/-- A command of the sparse engine whose entry fires: the units are those its kind leaves of the units that stood at the
start of the cycle. -/
theorem tabCommand_fires_sparse {k : Nat} (h : Fires s t u e) (hu : eUnit e = 2) (hk : eKind e = k) :
    ∃ s' q, tabCommand (fun e => decide (eUnit e = 2 ∧ eKind e = k)) t u s = .next s' ∧
      units q = units (atStart s t) ∧ q.tab = (atStart s t).tab ∧
      units (tileOf s' t) = units (fireSparse (envOf s t) e (operandA s t u e) (operandB s t u e)
        (unitSlots (envOf s t) e (operandA s t u e) (operandB s t u e) (atStart s t)) q) := by
  obtain ⟨s', o, hn, -, htile, -⟩ :=
    tabCommand_fires_outst (sel := fun e => decide (eUnit e = 2 ∧ eKind e = k)) h (decide_eq_true ⟨hu, hk⟩)
  refine ⟨s', unitStart (envOf s t) u e (atStart s t), hn, unitStart_units .., unitStart_tab .., ?_⟩
  have hf : units (tileOf s' t) = units (firedTile s t u e) := by rw [htile]; rfl
  rw [hf, firedTile, units_fireTile]
  dsimp only
  rw [unitFire, if_neg (by simp [hu]), if_neg (by simp [hu]), if_pos hu]
  rfl

end Sys2Proof.Machine
end

/-! ## 2:4 issues (R124, R126, R128) -/

section
namespace Sys2Proof.Machine

variable {e : TabEntry} {a b : Opd} {v : SparseUnit}

/-- The engine a 2:4 issue multiplies with: after its swap, if it swaps. -/
def swapped24 (v : SparseUnit) (e : TabEntry) : SparseUnit := if eFlag2 e then { swapSp v with ap := 0 } else v

/-- The engine once a 2:4 issue has stepped AP, and the column load that goes with it has written the shadow bank. -/
def issued24 (v : SparseUnit) (e : TabEntry) (b : Opd) (n : Nat) : SparseUnit :=
  let v := { v with ap := (v.ap + 1) % 64, busyTo := max v.busyTo (n + 36), mac24At := n + 1 }
  if eSrcb e = 0 then v else fireColumn e b v

theorem units_fireMac24 (core : Nat) (e : TabEntry) (a b : Opd) (q : Tile) : units (fireMac24 core e a b q) =
    (q.arr, issued24 (swapped24 q.sp e) e b q.tab.tc, q.vfire, q.vshow,
      addFlight q.fly ⟨q.tab.tc + 36, .issue .mac24 [(issue24 (swapped24 q.sp e) e a).1]⟩) := by
  have hb : ∀ (n : Nat) (p : Tile), units (bump core .spIssue 1 (bump core .spZgate n p)) = units p :=
    fun n p => (units_bump ..).trans (units_bump ..)
  obtain ⟨harr, hsp, hvf, hvs, hfly⟩ := units_of (hb (issue24 (swapped24 q.sp e) e a).2
    { q with sp := issued24 (swapped24 q.sp e) e b q.tab.tc })
  unfold fireMac24 units
  dsimp only
  exact Prod.ext harr (Prod.ext hsp (Prod.ext hvf (Prod.ext hvs (congrArg (addFlight · _) hfly))))

/-- A swap exchanges the banks and leaves the scales, the accumulator and the poison. -/
theorem swapped24_frame : (swapped24 v e).active = (if eFlag2 e then v.shadow else v.active) ∧
    (swapped24 v e).ap = (if eFlag2 e then 0 else v.ap) ∧ (swapped24 v e).ascl = v.ascl ∧
    (swapped24 v e).scPoison = v.scPoison ∧ (swapped24 v e).acc = v.acc := by
  unfold swapped24
  split <;> exact ⟨rfl, rfl, rfl, rfl, rfl⟩

/-- A column load writes the shadow bank and LCOL alone. -/
theorem issued24_frame {n : Nat} : (issued24 v e b n).ap = (v.ap + 1) % 64 ∧ (issued24 v e b n).active = v.active ∧
    (issued24 v e b n).acc = v.acc := by
  unfold issued24
  dsimp only
  split <;> exact ⟨rfl, rfl, rfl⟩

/-! ### Column values -/

/-- The block scale of half h of column c (R126). -/
def scale24 (v : SparseUnit) (e : TabEntry) (h c : Nat) : Option Int :=
  if isBlockScaled (eCufmt e) then
    (if isDouble (eCufmt e) then scaleExp (mget 127 v.ascl (2 * eFlagLow e + h)) (mget 127 v.active.scales (2 * c + h))
     else scaleExp (mget 127 v.ascl (eFlagLow e)) (mget 127 v.active.scales c))
  else some 0

/-- The values that half h of an issue adds, first column first. -/
def columnVals24 (v : SparseUnit) (e : TabEntry) (a : Opd) (h : Nat) : List Val :=
  (List.range 16).map fun c => columnValue (scale24 v e h c) (prods24 (eCufmt e) (eFlagLow e) a
    (usedValues (eCufmt e) (mget 0 v.active.cols c) (mget 0 v.active.masks c) (8 * h) 8))

/-- The row addition of a 2:4 issue: its halves are groups added in order (R126). -/
theorem issue24_fst (v : SparseUnit) (e : TabEntry) (a : Opd) : (issue24 v e a).1 =
    { row := v.ap, z := eFlag3 e, int := isInt (eCufmt e)
      groups := (List.range (if isDouble (eCufmt e) then 2 else 1)).map (columnVals24 v e a)
      poison := a.poison || v.active.poison
        || (List.range 16).any (fun c => decide (overGroups (isDouble (eCufmt e)) (mget 0 v.active.masks c) ≠ []))
        || (isBlockScaled (eCufmt e) && v.scPoison) } := by
  have hhalves : (if isDouble (eCufmt e) then [0, 1] else [0]) = List.range (if isDouble (eCufmt e) then 2 else 1) := by
    split <;> rfl
  rw [← hhalves]
  rfl

theorem length_columnVals24 (h : Nat) : (columnVals24 v e a h).length = 16 := by simp [columnVals24]

theorem getElem?_columnVals24 {h c : Nat} (hc : c < 16) : (columnVals24 v e a h)[c]? =
    some (columnValue (scale24 v e h c) (prods24 (eCufmt e) (eFlagLow e) a
      (usedValues (eCufmt e) (mget 0 v.active.cols c) (mget 0 v.active.masks c) (8 * h) 8))) := by
  simp [columnVals24, hc]

end Sys2Proof.Machine

open Sys2Proof Sys2Proof.Machine

/-- Settles O18: the row addition of an issue (issue24_fst) on the engine after its swap, by half and column. -/
theorem sparseIssues : Obligations.SparseIssues := by
  intro s t u e h hu hk
  obtain ⟨s', q, hn, hq, htab, hunits⟩ := tabCommand_fires_sparse h hu hk
  obtain ⟨qarr, qsp, qvf, -, qfly⟩ := units_of hq
  have hkind : ∀ slots, fireSparse (envOf s t) e (operandA s t u e) (operandB s t u e) slots q =
      fireMac24 (envOf s t).core e (operandA s t u e) (operandB s t u e) q := fun _ => by simp [fireSparse, hk]
  rw [hkind, units_fireMac24, htab, qarr, qsp, qvf, qfly] at hunits
  simp only [units, Prod.mk.injEq] at hunits
  obtain ⟨harr, hsp, hvf, -, hfly⟩ := hunits
  obtain ⟨hap, hactive, hacc⟩ := issued24_frame (v := swapped24 (atStart s t).sp e) (e := e) (b := operandB s t u e)
    (n := (atStart s t).tab.tc)
  obtain ⟨hbank, hrow, hascl, hscp, hkeep⟩ := swapped24_frame (v := (atStart s t).sp) (e := e)
  refine ⟨s', hn, (issue24 (swapped24 (atStart s t).sp e) e (operandA s t u e)).1, hfly, ?_⟩
  rw [issue24_fst, hsp, hap, hactive, hacc, hrow, hscp, hkeep, hbank]
  refine ⟨rfl, rfl, rfl, rfl, by simp, fun i hi =>
    ⟨columnVals24 (swapped24 (atStart s t).sp e) e (operandA s t u e) i, ?_, length_columnVals24 i, fun c hc => ?_⟩,
    rfl, rfl, rfl, harr, hvf⟩
  · rw [List.getElem?_map, List.getElem?_range hi, Option.map_some]
  · rw [getElem?_columnVals24 hc, scale24, hbank, hascl]
    rfl
end

/-! ## DRAIN of the sparse engine (R141) -/

section
namespace Sys2Proof.Machine

variable {s : State} {t : TileId} {u : Upset} {e : TabEntry}

/-- What a DRAIN of the sparse engine sends, and where to. -/
def spDrainEmit (v : SparseUnit) (e : TabEntry) (slots : List Nat) : Emit :=
  let r := spDrainUnit v.frame (decide (eFlagLow e = 1)) (mget {} v.acc (if eFlag2 e then 0 else v.dp))
  mkEmit e slots.head? r.1 r.2.1 true

theorem fireSpDrain_fly (core : Nat) (e : TabEntry) (slots : List Nat) (q : Tile) :
    (fireSpDrain core e slots q).fly = addFlight q.fly ⟨q.tab.tc + 1, .drain true (spDrainEmit q.sp e slots)⟩ := by
  have hb : ∀ n (v : SparseUnit), (bump core .spFixsat n { q with sp := v }).fly = q.fly := fun n v => by
    obtain ⟨-, -, -, -, hfly⟩ := units_of (units_bump core .spFixsat n { q with sp := v })
    exact hfly
  unfold fireSpDrain
  dsimp only
  rw [hb]
  rfl

/-- A firing DRAIN of the sparse engine puts its one unit in flight. -/
theorem exec_spDrain_fires (h : Fires s t u e) (hu : eUnit e = 2) (hk : eKind e = 9) :
    ∃ s' slots, exec (.spDrain t u) s = .next s' ∧ (tileOf s' t).fly = addFlight (atStart s t).fly
      ⟨(atStart s t).tab.tc + 1, .drain true (spDrainEmit (atStart s t).sp e slots)⟩ := by
  obtain ⟨s', q, hn, hq, htab, hunits⟩ := tabCommand_fires_sparse h hu hk
  obtain ⟨-, qsp, -, -, qfly⟩ := units_of hq
  obtain ⟨-, -, -, -, hfly⟩ := units_of hunits
  have hkind : ∀ slots, fireSparse (envOf s t) e (operandA s t u e) (operandB s t u e) slots q =
      fireSpDrain (envOf s t).core e slots q := fun _ => by simp [fireSparse, hk]
  rw [hkind, fireSpDrain_fly, qfly, qsp, htab] at hfly
  exact ⟨s', _, hn, hfly⟩

/-- The code of a value in a fixed-point drain (R141). -/
def fixedCode (frame : Int) (v : Val) : Nat := (convInt fInt32 .rne (vScale v (-frame))).code % 2 ^ 32

/-- Each lane of a fixed-point drain is the scaled row value, a binary32 or an INT32, rounded to INT32. -/
theorem elem_spDrainUnit_fixed (frame : Int) (r : AccRow) {j : Nat} (hj : j < 16) :
    elem (spDrainUnit frame true r).1.toNat 32 j =
      fixedCode frame (rowVal r (elem r.bits.toNat 32 j)) := by
  have hunit : (spDrainUnit frame true r).1 = BitVec.ofNat 512 (joinElems 32 ((List.range 16).map fun i =>
      (convInt fInt32 .rne (vScale (rowVal r (elem r.bits.toNat 32 i)) (-frame))).code)) := by
    simp [spDrainUnit, elems, Function.comp_def]
  rw [hunit, elem_toNat_ofNat_of_lt _ (by omega), elem_joinElems, nth_range_map _ _ hj, fixedCode]

theorem spDrainEmit_fixed {v : SparseUnit} {slots : List Nat} (hx : eFlagLow e = 1) : (spDrainEmit v e slots).data =
    (spDrainUnit v.frame true (mget {} v.acc (if eFlag2 e then 0 else v.dp))).1 := by
  simp [spDrainEmit, mkEmit, hx]

/-- As SparseDrain states it, a fixed-point drain reads the lanes of every row as binary32, of an INT32 row too. -/
theorem fixedCode_of_sparseDrain (hd : SparseDrain) (h : Fires s t u e) (hu : eUnit e = 2) (hk : eKind e = 9)
    (hx : eFlagLow e = 1) (w : mwf {} (atStart s t).sp.acc = true) (hidle : (atStart s t).fly = []) {j : Nat}
    (hj : j < 16) :
    let v := (atStart s t).sp
    let r := mget {} v.acc (if eFlag2 e then 0 else v.dp)
    fixedCode v.frame (rowVal r (elem r.bits.toNat 32 j)) =
      fixedCode v.frame (decodeFloat fBinary32 (elem r.bits.toNat 32 j)) := by
  obtain ⟨s', hn, ⟨em, hsaid, -, -, -, -, hlanes⟩, -⟩ := hd s t u e h hu hk w
  obtain ⟨s₁, slots, hn₁, hsent⟩ := exec_spDrain_fires h hu hk
  obtain rfl : s₁ = s' := Host.Outcome.next.inj (hn₁.symm.trans hn)
  have hem : em = spDrainEmit (atStart s t).sp e slots := by
    rw [hsent, hidle] at hsaid
    simpa [addFlight] using hsaid.symm
  have hlane := hlanes hx j hj
  rwa [hem, spDrainEmit_fixed hx, elem_spDrainUnit_fixed _ _ hj] at hlane

/-! ### A row of INT32 lanes in fixed point -/

/-- DRAIN of the sparse engine in fixed point into the scratchpad: UNIT 2, kind 9, CUFLAG 1, DST 1, WROP 1. -/
def fixedDrain : TabEntry := BitVec.ofNat 128 (2 * 2 ^ 104 + 9 * 2 ^ 100 + 2 ^ 90 + 2 ^ 76 + 2 ^ 66)

/-- The accumulator once an INT8 issue whose first column sums to 1 has landed in row 0. -/
def intRowAcc : SMap AccRow := (landRow [] { row := 0, int := true, groups := [[.fin false 1 0]] } false).1

/-- A running tile about to drain that row in fixed point, and the device with it. -/
def intRowTile : Tile := { tab := { st := .running, mem := [(0, fixedDrain)] }, sp := { acc := intRowAcc } }
def intRowState : State := setTile State.reset 0 0 intRowTile

theorem fixedDrain_fires : Fires intRowState ⟨0, 0⟩ {} fixedDrain where
  tile := by decide +kernel
  maps := by decide +kernel
  issues := by decide +kernel
  entry := by decide +kernel
  fires := by decide +kernel

theorem atStart_intRowState : (atStart intRowState ⟨0, 0⟩).sp = { acc := intRowAcc } ∧
    mwf {} (atStart intRowState ⟨0, 0⟩).sp.acc = true ∧ (atStart intRowState ⟨0, 0⟩).fly = [] := by
  decide +kernel

/-- The integer 1 of the row leaves as 1; its code read as a binary32 is a number next to 0 and would leave as 0. -/
theorem intRow_codes : let r := mget {} intRowAcc 0
    fixedCode 0 (rowVal r (elem r.bits.toNat 32 0)) = 1 ∧
      fixedCode 0 (decodeFloat fBinary32 (elem r.bits.toNat 32 0)) = 0 := by decide +kernel

theorem not_sparseDrain : ¬ SparseDrain := by
  intro hd
  obtain ⟨hsp, hacc, hidle⟩ := atStart_intRowState
  obtain ⟨hint, hfloat⟩ := intRow_codes
  have hrow : (if eFlag2 fixedDrain then 0 else 0) = 0 := ite_self 0
  have hsame := fixedCode_of_sparseDrain hd fixedDrain_fires (by decide) (by decide) (by decide) hacc hidle
    (j := 0) (by decide)
  simp only [hsp, hrow, hint, hfloat] at hsame
  exact one_ne_zero hsame

end Sys2Proof.Machine

open Sys2Proof Sys2Proof.Machine

/-- Refutes O21: a fixed-point drain of an INT32 row scales its integers (R141), not their codes read as binary32. -/
theorem not_sparseLoadsAndDrains : ¬ Obligations.SparseLoadsAndDrains := fun h => not_sparseDrain h.2
end

/-! ## The combining buffer (R142, R143, R144) -/

section
namespace Sys2Proof.Machine

variable {s : State} {t : TileId} {q : Tile} {w : MuWrite} {rest : List MuWrite} {e : CbEntry} {es : List CbEntry}

/-! ### Lane-wise sums (R142) -/

theorem lanesAdded_addLanes32 (a b : Unit512) : LanesAdded (addLanes32 a b) a b := by
  intro j hj
  have hnth : nth (List.zipWith (fun x y => (x + y) % 2 ^ 32) (elems a.toNat 32 16) (elems b.toNat 32 16)) j 0 =
      (elem a.toNat 32 j + elem b.toNat 32 j) % 2 ^ 32 := by
    simp [nth, List.getD, elems, hj]
  rw [addLanes32, elem_toNat_ofNat_of_lt _ (by omega), elem_joinElems, hnth, Nat.mod_mod]

/-! ### An accumulate-write (R143) -/

/-- Counting touches the counters and the events alone. -/
theorem bump_eq (core : Nat) (c : TileCtr) (n : Nat) (q : Tile) :
    ∃ m v, bump core c n q = { q with ctr := m, ev := v } := by
  unfold bump
  dsimp only
  split
  · exact ⟨_, _, rfl⟩
  · exact ⟨_, q.ev, rfl⟩

/-- The entry of a slot once a write has merged into it. -/
def mergedEntry (now : Nat) (e : CbEntry) (w : MuWrite) : CbEntry :=
  { e with lanes := addLanes32 e.lanes w.data, poison := e.poison || w.poison, count := e.count + 1, last := now }

/-- The entry that a write takes. -/
def takenEntry (now id : Nat) (w : MuWrite) : CbEntry :=
  { slot := w.slot, win := w.win, lanes := w.data, poison := w.poison, count := 1, last := now, id := id }

theorem any_slot_eq_false {l : List CbEntry} {n : Nat} (h : ∀ e ∈ l, e.slot ≠ n) :
    l.any (fun e => decide (e.slot = n)) = false := by
  simpa using h

theorem accArrive_hit (core : Nat) (hq : q.mu.accq = w :: rest) (hc : q.mu.cb = [e]) (hs : e.slot = w.slot) :
    accArrive core q = bump core .cbMerges 1
      { q with mu := { q.mu with accq := rest, cb := [mergedEntry (arrivalTime core q) e w] } } := by
  simp [accArrive, hq, hc, hs, mergedEntry]

theorem accArrive_free (core : Nat) (hq : q.mu.accq = w :: rest) (hs : ∀ e ∈ q.mu.cb, e.slot ≠ w.slot)
    (hl : q.mu.cb.length < 8) : accArrive core q =
      { q with mu := { q.mu with accq := rest, nextId := q.mu.nextId + 1
                                 cb := q.mu.cb ++ [takenEntry (arrivalTime core q) q.mu.nextId w] } } := by
  simp only [accArrive, hq, any_slot_eq_false hs, Bool.false_eq_true, if_false, hl, if_true, takenEntry]

theorem accArrive_full (core : Nat) (hq : q.mu.accq = w :: rest) (hc : q.mu.cb = e :: es)
    (hs : ∀ v ∈ q.mu.cb, v.slot ≠ w.slot) (hl : 7 ≤ es.length) : accArrive core q =
      { q with mu := { q.mu with cb := { e with wants := some (e.wants.getD (arrivalTime core q)) } :: es } } := by
  rw [hc] at hs
  have hfull : ¬ (e :: es).length < 8 := by rw [List.length_cons]; omega
  simp only [accArrive, hq, any_slot_eq_false hs, Bool.false_eq_true, if_false, hfull, hc]

/-- The command leaves its tile as the arrival does, but for the tokens owed to it. -/
theorem exec_accumulateWriteArrival (h : OnGrid s t) : ∃ s' o, exec (.accumulateWriteArrival t) s = .next s' ∧
    tileOf s' t =
      { accArrive s.cycle (tileOf s t) with fret := { (accArrive s.cycle (tileOf s t)).fret with outst := o } } := by
  show ∃ s' o, execAccumulateWriteArrival t s = .next s' ∧ _
  unfold execAccumulateWriteArrival onTile
  rw [if_pos h.tile]
  refine ⟨_, _, rfl, eq_outst_of_proj fun α p hp => ?_⟩
  rw [tileOf, releaseAll_proj p hp _ _ (modTile_wf _ _ _ h.maps), getTile_modTile _ _ _ h.maps]

/-! ### An idle entry (R144) -/

theorem exec_cbIdleDrain (h : OnGrid s t) (hi : issuing (tileOf s t) = true) (hc : (tileOf s t).mu.cb = [e])
    (hw : e.wants = none) (hl : e.last + 32 ≤ (tileOf s t).tab.tc - 1) :
    ∃ s' n, exec (.cbIdleDrain t) s = .next s' ∧ tileOf s' t = { tileOf s t with
      mu := { (tileOf s t).mu with cb := [{ e with wants := some ((tileOf s t).tab.tc - 1) }] }
      tab := { (tileOf s t).tab with nextCore := n } } := by
  have hc' : (getTile s t.x t.y).mu.cb = [e] := hc
  have hi' : issuing (getTile s t.x t.y) = true := hi
  have htime : tileTime s.cycle (getTile s t.x t.y) = (tileOf s t).tab.tc - 1 := tileTime_of_issuing hi
  obtain ⟨n, hn⟩ := closeCycle_eq s.cycle (tileOf s t)
  show ∃ s' n, execCbIdleDrain t s = .next s' ∧ _
  unfold execCbIdleDrain onTile
  rw [if_pos h.tile]
  simp only [hc', hi', if_true, htime, List.find?_cons, hw, Option.isNone_none, List.filter_cons, List.filter_nil,
    List.map_cons, List.map_nil, List.headD_cons, List.foldl_cons, List.foldl_nil, min_self, hl]
  refine ⟨_, n, rfl, ?_⟩
  rw [tileOf_outside h.maps, hn]
  simp [hc, hw, hl]

/-! ### A drain (R143) -/

/-- What an entry adds to an arrival counter at the end of the cycle of its drain. -/
def drainEnds (core : Nat) (e : CbEntry) (q : Tile) : List CycleEnd :=
  if wAcnten (mget 0 q.mu.win e.win) = true then
    [{ vis := q.tab.tc + 1, core := core, count := some (wAcnt (mget 0 q.mu.win e.win), e.count) }]
  else []

/-- The memory unit of an issuing tile whose port in tile cycle c an entry has drained through. -/
def drainedMu (core c : Nat) (e : CbEntry) (q : Tile) : MemUnit :=
  { q.mu with
    cb := q.mu.cb.filter fun v => decide (v.id ≠ e.id)
    slots := mmod {} q.mu.slots e.slot fun o =>
      { o with data := addLanes32 o.data e.lanes, poison := o.poison || e.poison }
    wUsed := c + 1, ends := q.mu.ends ++ drainEnds core e q }

/-- What a count changes at the end of an issuing tile's cycle waits for that end. -/
theorem atEnd_of_issuing {core : Nat} {b : Bool} {n : Nat × Nat} (h : issuing q = true) :
    atEnd core none (if b = true then some n else none) q = { q with mu := { q.mu with
      ends := q.mu.ends ++ if b = true then [{ vis := q.tab.tc + 1, core := core, count := some n }] else [] } } := by
  cases b <;> simp [atEnd, h]

theorem drainEntry_of_issuing (core c : Nat) (e : CbEntry) (h : issuing q = true) :
    ∃ m v, drainEntry core c e q = { q with ctr := m, ev := v, mu := drainedMu core c e q } := by
  unfold drainEntry usePort
  dsimp only
  obtain ⟨m₁, v₁, h₁⟩ := bump_eq core .muExtw 1 { q with mu := { drainedMu core c e q with ends := q.mu.ends } }
  obtain ⟨m₂, v₂, h₂⟩ := bump_eq core .cbDrains 1
    { q with ctr := m₁, ev := v₁, mu := { drainedMu core c e q with ends := q.mu.ends } }
  refine ⟨m₂, v₂, ?_⟩
  refine (congrArg (atEnd core none _) ((congrArg (bump core .cbDrains 1) h₁).trans h₂)).trans ?_
  exact atEnd_of_issuing h

theorem exec_cbDrain (h : OnGrid s t) (hi : issuing (tileOf s t) = true)
    (ho : portOwner (tileOf s t) (tileOf s t).tab.tc = some (.drain e)) :
    ∃ s' m v, exec (.cbDrain t) s = .next s' ∧ tileOf s' t = { tileOf s t with
      ctr := m, ev := v
      mu := drainedMu (max s.cycle (tileOf s t).tab.nextCore) (tileOf s t).tab.tc e
        (dropMarks (tileOf s t) (tileOf s t).tab.tc) } := by
  have hi' : issuing (getTile s t.x t.y) = true := hi
  have ho' : portOwner (getTile s t.x t.y) (getTile s t.x t.y).tab.tc = some (.drain e) := ho
  obtain ⟨m, v, hd⟩ := drainEntry_of_issuing (q := dropMarks (tileOf s t) (tileOf s t).tab.tc)
    (max s.cycle (tileOf s t).tab.nextCore) (tileOf s t).tab.tc e hi
  show ∃ s' m v, execCbDrain t s = .next s' ∧ _
  unfold execCbDrain onTile
  rw [if_pos h.tile]
  simp only [grantCycle, grantCore, hi', if_true, ho', advanceTo_cycle]
  refine ⟨_, m, v, rfl, ?_⟩
  rw [tileOf_modTile h.maps, max_eq_right (le_max_left ..), hd]
  rfl

end Sys2Proof.Machine

open Sys2Proof Sys2Proof.Machine

/-- Settles O29: an arrival by what it finds in the buffer (accArrive_hit, …), an idle entry, and a drain. -/
theorem combiningBuffer : Obligations.CombiningBuffer := by
  intro s t h hi pre now ends
  refine ⟨fun w rest e hq hc hs => ?hit, fun w rest hq hs hl => ?free, fun w rest e es hq hc hs hl => ?full,
    fun e hc hw hl => ?idle, fun e ho w => ?drain⟩
  case hit =>
    obtain ⟨s', o, hn, htile⟩ := exec_accumulateWriteArrival h
    obtain ⟨m, v, hb⟩ := bump_eq s.cycle .cbMerges 1
      { pre with mu := { pre.mu with accq := rest, cb := [mergedEntry now e w] } }
    rw [accArrive_hit s.cycle hq hc hs, hb] at htile
    refine ⟨s', hn, ?_⟩
    rw [htile]
    exact ⟨⟨rfl, rfl, _, lanesAdded_addLanes32 _ _, rfl⟩, rfl, rfl, rfl, rfl, rfl⟩
  case free =>
    obtain ⟨s', o, hn, htile⟩ := exec_accumulateWriteArrival h
    rw [accArrive_free s.cycle hq hs hl] at htile
    refine ⟨s', hn, ?_⟩
    rw [htile]
    exact ⟨⟨rfl, rfl, _, rfl⟩, rfl, rfl, rfl, rfl, rfl⟩
  case full =>
    obtain ⟨s', o, hn, htile⟩ := exec_accumulateWriteArrival h
    rw [accArrive_full s.cycle hq hc hs hl] at htile
    refine ⟨s', hn, ?_⟩
    rw [htile]
    exact ⟨⟨rfl, rfl, rfl⟩, rfl, rfl, rfl, rfl, rfl⟩
  case idle =>
    obtain ⟨s', n, hn, htile⟩ := exec_cbIdleDrain h hi hc hw hl
    refine ⟨s', hn, ?_⟩
    rw [htile]
    exact ⟨⟨rfl, rfl, rfl⟩, rfl, rfl, rfl, rfl, rfl⟩
  case drain =>
    obtain ⟨s', m, v, hn, htile⟩ := exec_cbDrain h hi ho
    refine ⟨s', hn, ?_⟩
    rw [htile]
    refine ⟨?_, rfl, rfl, rfl, rfl, rfl⟩
    have w' : mwf {} (tileOf s t).mu.slots = true := w
    simp only [drainedMu, dropMarks, mget_mmod w']
    exact ⟨lanesAdded_addLanes32 _ _, rfl, rfl, fun k hk => mget_mmod_ne w hk, rfl, rfl, rfl⟩
end

/-! ## Writes of the port and errors of slots (R26, R154, R159, R166, R169) -/

section
namespace Sys2Proof.Machine

variable {s : State} {t : TileId} {q : Tile}

theorem mget_mmod_eq {α : Type} [DecidableEq α] {d : α} {m : SMap α} {f : α → α} (w : mwf d m = true) (k j : Nat) :
    mget d (mmod d m k f) j = if j = k then f (mget d m k) else mget d m j := by
  split
  next h => rw [h, mget_mmod w]
  next h => exact mget_mmod_ne w h

theorem tileOf_noteWrote (b : Bool) (x : Nat) : tileOf (noteWrote b x s) t = tileOf s t := by
  unfold noteWrote
  split <;> rfl

theorem closedTile_mu (s : State) (t : TileId) : (closedTile s t).mu = (tileOf s t).mu := by
  obtain ⟨n, hn⟩ := closeCycle_eq s.cycle (tileOf s t)
  exact (congrArg Tile.mu hn :)

theorem closedTile_tc (s : State) (t : TileId) : (closedTile s t).tab.tc = (tileOf s t).tab.tc := by
  obtain ⟨n, hn⟩ := closeCycle_eq s.cycle (tileOf s t)
  exact (congrArg (fun q => q.tab.tc) hn :)

/-- Tokens that go back to their sources touch a tile's outstanding flits at most. -/
theorem tileOf_releaseAll (w : mwf {} s.tiles = true) (core : Nat) (fs : List Flit) :
    ∃ o, tileOf (releaseAll core fs s) t = { tileOf s t with fret := { (tileOf s t).fret with outst := o } } :=
  ⟨_, eq_outst_of_proj fun _ p hp => releaseAll_proj p hp core fs w _ _⟩

/-! ### What a write changes at the end of its cycle (R26, R166, R169) -/

/-- The end of cycle that a write waits for: of a tag, of an arrival counter, or none. -/
def cycleEnds (core tc : Nat) (tag : Option (Nat × Bool)) (count : Option (Nat × Nat)) : List CycleEnd :=
  if tag = none ∧ count = none then [] else [{ vis := tc + 1, core := core, tag := tag, count := count }]

/-- The slots once a tag has changed. -/
def tagged (tag : Option (Nat × Bool)) (m : SMap Slot) : SMap Slot :=
  match tag with
  | some (n, f) => mmod {} m n fun o => { o with full := f }
  | none => m

theorem atEnd_issuing {core : Nat} {tag : Option (Nat × Bool)} {count : Option (Nat × Nat)} (h : issuing q = true) :
    atEnd core tag count q =
      { q with mu := { q.mu with ends := q.mu.ends ++ cycleEnds core q.tab.tc tag count } } := by
  by_cases hn : tag = none ∧ count = none
  · simp [atEnd, cycleEnds, hn]
  · simp [atEnd, cycleEnds, hn, h]

/-- A tag that waits alone is the only change of the slots at the end of the cycle. -/
theorem settleEnds_slots {core tc : Nat} {tag : Option (Nat × Bool)} (h : q.mu.ends = cycleEnds core tc tag none) :
    (settleEnds (tc + 1) q).mu.slots = tagged tag q.mu.slots := by
  cases tag with
  | none => simp [settleEnds, h, cycleEnds, tagged]
  | some p => simp [settleEnds, h, cycleEnds, tagged, applyEnd]

/-- The counters of a tile once one has advanced (R36). -/
def counted (c : TileCtr) (n : Nat) (q : Tile) : SMap Nat := mset 0 q.ctr (ctrOffset c) (min (ctrVal q c + n) ctrMax)

theorem bump_eq_counted (core : Nat) (c : TileCtr) (n : Nat) (q : Tile) :
    ∃ v, bump core c n q = { q with ctr := counted c n q, ev := v } := by
  obtain ⟨m, v, h⟩ := bump_eq core c n q
  have hm : m = counted c n q := (congrArg Tile.ctr h).symm.trans (bump_ctr ..)
  exact ⟨v, h.trans (by rw [hm])⟩

theorem usePort_eq (core c : Nat) (q : Tile) :
    ∃ v, usePort core c q = { q with ctr := counted .muExtw 1 q, ev := v, mu := { q.mu with wUsed := c + 1 } } :=
  bump_eq_counted ..

/-! ### An error of a slot (R154) -/

/-- The slots after an error of one: a double one poisons it. -/
def upsetSlots (e : Ecc) (n : Nat) (m : SMap Slot) : SMap Slot :=
  if e = .double then mmod {} m n fun o => { o with poison := true } else m

theorem spadUpset_eq (core : Nat) (e : Ecc) (n : Nat) (q : Tile) :
    ∃ v, spadUpset core e n q = { q with ev := v, mu := { q.mu with slots := upsetSlots e n q.mu.slots } } := by
  cases e with
  | clean => exact ⟨q.ev, rfl⟩
  | single => exact ⟨_, rfl⟩
  | double => exact ⟨_, rfl⟩

theorem upsetSlots_wf {e : Ecc} {n : Nat} {m : SMap Slot} (w : mwf {} m = true) : mwf {} (upsetSlots e n m) = true := by
  unfold upsetSlots
  split
  · exact mwf_mmod w
  · exact w

theorem mget_upsetSlots {e : Ecc} {m : SMap Slot} (w : mwf {} m = true) (n k : Nat) : mget {} (upsetSlots e n m) k =
    if e = .double ∧ k = n then { mget {} m k with poison := true } else mget {} m k := by
  unfold upsetSlots
  by_cases he : e = .double
  · rw [if_pos he, mget_mmod_eq w]
    simp only [he, true_and]
    split
    next h => rw [h]
    next => rfl
  · rw [if_neg he, if_neg fun h => he h.1]

end Sys2Proof.Machine
end

/-! ## Bulk operations (R154, R163) -/

section
namespace Sys2Proof.Machine

variable {s : State} {t : TileId} {q : Tile} {b : Bulk} {ecc : Ecc} {core c : Nat}

/-- The slots before a bulk write, an error of a COPY's source noted. -/
def bulkSource (ecc : Ecc) (b : Bulk) (m : SMap Slot) : SMap Slot :=
  if bOp b.cmd = 2 then upsetSlots ecc (bulkSlots b).2 m else m

/-- The slots after a bulk write. -/
def bulkWritten (ecc : Ecc) (b : Bulk) (m : SMap Slot) : SMap Slot :=
  mmod {} (bulkSource ecc b m) (bulkSlots b).1 (bulkPut b (mget {} (bulkSource ecc b m) (bulkSlots b).2))

/-- The advance of the arrival counter that the last write of a bulk operation makes. -/
def bulkCount (b : Bulk) : Option (Nat × Nat) :=
  if b.done + 1 ≥ bCount b.cmd ∧ bAcnten b.cmd = true then some (bAcnt b.cmd, bCount b.cmd) else none

/-- The memory unit of an issuing tile after a bulk write in its tile cycle c: the commands as after the last write or before
it. -/
def bulkMu (core c : Nat) (ecc : Ecc) (b : Bulk) (q : Tile) : MemUnit :=
  { q.mu with
    slots := bulkWritten ecc b q.mu.slots
    wUsed := c + 1
    ends := q.mu.ends ++ cycleEnds core q.tab.tc (bulkTag b (bulkSlots b).1) (bulkCount b)
    bulk := if b.done + 1 ≥ bCount b.cmd then q.mu.bulkWait.head?.map fun n => { n with accepted := c + 1 }
      else some { b with done := b.done + 1 }
    bulkWait := if b.done + 1 ≥ bCount b.cmd then q.mu.bulkWait.tail else q.mu.bulkWait }

/-- The slots take a bulk write. -/
def putBulk (b : Bulk) (q : Tile) : Tile :=
  { q with mu := { q.mu with
    slots := mmod {} q.mu.slots (bulkSlots b).1 (bulkPut b (mget {} q.mu.slots (bulkSlots b).2)) } }

/-- The commands after a bulk write of tile cycle c. -/
def nextBulk (c : Nat) (b : Bulk) (q : Tile) : Tile :=
  { q with mu := { q.mu with
    bulk := if b.done + 1 ≥ bCount b.cmd then q.mu.bulkWait.head?.map fun n => { n with accepted := c + 1 }
      else some { b with done := b.done + 1 }
    bulkWait := if b.done + 1 ≥ bCount b.cmd then q.mu.bulkWait.tail else q.mu.bulkWait } }

theorem bulkWrite_eq : bulkWrite core c ecc b q = nextBulk c b (atEnd core (bulkTag b (bulkSlots b).1) (bulkCount b)
    (usePort core c (putBulk b (if bOp b.cmd = 2 then spadUpset core ecc (bulkSlots b).2 q else q)))) := by
  unfold bulkWrite nextBulk bulkCount putBulk
  by_cases hl : b.done + 1 ≥ bCount b.cmd
  · simp only [hl, decide_true, if_true]
  · simp only [hl, decide_false, if_false]
    rfl

theorem bulkWrite_of_issuing (h : issuing q = true) :
    ∃ v, bulkWrite core c ecc b q = { q with ctr := counted .muExtw 1 q, ev := v, mu := bulkMu core c ecc b q } := by
  obtain ⟨v, hv⟩ : ∃ v, (if bOp b.cmd = 2 then spadUpset core ecc (bulkSlots b).2 q else q) =
      { q with ev := v, mu := { q.mu with slots := bulkSource ecc b q.mu.slots } } := by
    unfold bulkSource
    split
    · exact spadUpset_eq ..
    · exact ⟨q.ev, rfl⟩
  obtain ⟨v', hp⟩ := usePort_eq core c
    (putBulk b { q with ev := v, mu := { q.mu with slots := bulkSource ecc b q.mu.slots } })
  refine ⟨v', ?_⟩
  rw [bulkWrite_eq, hv, hp, atEnd_issuing (by exact h)]
  rfl

theorem bulkSource_wf {m : SMap Slot} (w : mwf {} m = true) : mwf {} (bulkSource ecc b m) = true := by
  unfold bulkSource
  split
  · exact upsetSlots_wf w
  · exact w

theorem mget_bulkSource {m : SMap Slot} (w : mwf {} m = true) (k : Nat) : mget {} (bulkSource ecc b m) k =
    if (bOp b.cmd = 2 ∧ ecc = .double) ∧ k = (bulkSlots b).2 then { mget {} m k with poison := true } else mget {} m k := by
  unfold bulkSource
  by_cases h : bOp b.cmd = 2
  · simp only [h, if_true, true_and, mget_upsetSlots w]
  · simp only [h, if_false, false_and]

theorem exec_bulkSlotWrite (h : OnGrid s t) (hi : issuing (tileOf s t) = true) (hb : (tileOf s t).mu.bulk = some b)
    (hd : bulkDue b ≤ (tileOf s t).tab.tc) : ∃ s' core v, exec (.bulkSlotWrite t ecc) s = .next s' ∧
      tileOf s' t = { tileOf s t with
        ctr := counted .muExtw 1 (tileOf s t), ev := v, mu := bulkMu core (tileOf s t).tab.tc ecc b (tileOf s t) } := by
  obtain ⟨v, hw⟩ := bulkWrite_of_issuing (core := (advanceTo s (tileOf s t).tab.nextCore).cycle)
    (c := (tileOf s t).tab.tc) (ecc := ecc) (b := b) hi
  have hb' : (getTile s t.x t.y).mu.bulk = some b := hb
  show ∃ s' core v, execBulkSlotWrite t ecc s = .next s' ∧ _
  unfold execBulkSlotWrite onTile
  rw [if_pos h.tile]
  simp only [hb']
  rw [if_pos hi, if_pos hd]
  exact ⟨_, _, v, rfl, (tileOf_noteWrote ..).trans ((tileOf_modTile h.maps).trans hw)⟩

/-- The slot that a bulk write writes: the pattern or the source's data and poison, the tag as it was. -/
theorem mget_bulkWritten {m : SMap Slot} (w : mwf {} m = true) : mget {} (bulkWritten ecc b m) (bulkSlots b).1 =
    { data := if bOp b.cmd = 1 then b.pattern else (mget {} m (bulkSlots b).2).data
      full := (mget {} m (bulkSlots b).1).full
      poison := if bOp b.cmd = 1 then false
        else (mget {} m (bulkSlots b).2).poison || decide (bOp b.cmd = 2 ∧ ecc = .double) } := by
  have hfull : (mget {} (bulkSource ecc b m) (bulkSlots b).1).full = (mget {} m (bulkSlots b).1).full := by
    rw [mget_bulkSource w, apply_ite Slot.full, ite_self]
  have hdata : (mget {} (bulkSource ecc b m) (bulkSlots b).2).data = (mget {} m (bulkSlots b).2).data := by
    rw [mget_bulkSource w, apply_ite Slot.data, ite_self]
  have hpoison : (mget {} (bulkSource ecc b m) (bulkSlots b).2).poison =
      ((mget {} m (bulkSlots b).2).poison || decide (bOp b.cmd = 2 ∧ ecc = .double)) := by
    rw [mget_bulkSource w]
    by_cases h : bOp b.cmd = 2 ∧ ecc = .double <;> simp [h]
  rw [bulkWritten, mget_mmod (bulkSource_wf w), bulkPut]
  split
  · rw [hfull]
  · rw [hfull, hdata, hpoison]

theorem mget_bulkWritten_ne {m : SMap Slot} (w : mwf {} m = true) {k : Nat} (h : k ≠ (bulkSlots b).1) :
    mget {} (bulkWritten ecc b m) k = if (bOp b.cmd = 2 ∧ ecc = .double) ∧ k = (bulkSlots b).2 then
      { mget {} m k with poison := true } else mget {} m k :=
  (mget_mmod_ne (bulkSource_wf w) h).trans (mget_bulkSource w k)

theorem bulkWritten_wf {m : SMap Slot} (w : mwf {} m = true) : mwf {} (bulkWritten ecc b m) = true :=
  mwf_mmod (bulkSource_wf w)

/-- The tag that a bulk write leaves (Table 6.4). -/
theorem full_bulkTag {m : SMap Slot} (w : mwf {} m = true) (d : Nat) : (mget {} (tagged (bulkTag b d) m) d).full =
    if bTagset b.cmd = 1 then true else if bTagset b.cmd = 2 then false else (mget {} m d).full := by
  unfold bulkTag
  split
  · simp only [tagged, mget_mmod w]
  · split
    · simp only [tagged, mget_mmod w]
    · rfl

/-- Before the last write, the end of the cycle sees to the tag alone. -/
theorem full_settleEnds_bulkMu {p : Tile} (hp : p.mu = bulkMu core c ecc b q) (w : mwf {} q.mu.slots = true)
    (he : q.mu.ends = []) (hmore : b.done + 1 < bCount b.cmd) :
    (mget {} (settleEnds (q.tab.tc + 1) p).mu.slots (bulkSlots b).1).full =
      if bTagset b.cmd = 1 then true else if bTagset b.cmd = 2 then false
      else (mget {} q.mu.slots (bulkSlots b).1).full := by
  have hcount : bulkCount b = none := if_neg fun h => by omega
  have hends : p.mu.ends = cycleEnds core q.tab.tc (bulkTag b (bulkSlots b).1) none := by
    rw [hp, bulkMu, hcount, he, List.nil_append]
  rw [settleEnds_slots hends, hp, full_bulkTag (m := (bulkMu core c ecc b q).slots) (bulkWritten_wf w),
    congrArg Slot.full (show mget {} (bulkMu core c ecc b q).slots _ = _ from mget_bulkWritten w)]

/-- The last write advances the arrival counter at the end of its cycle. -/
theorem bulkMu_ends_of_last (hlast : b.done + 1 = bCount b.cmd) (ha : bAcnten b.cmd = true) :
    (bulkMu core c ecc b q).ends = q.mu.ends ++ [{ vis := q.tab.tc + 1, core := core
                                                   tag := bulkTag b (bulkSlots b).1
                                                   count := some (bAcnt b.cmd, bCount b.cmd) }] := by
  have hcount : bulkCount b = some (bAcnt b.cmd, bCount b.cmd) := if_pos ⟨by omega, ha⟩
  simp [bulkMu, hcount, cycleEnds]

end Sys2Proof.Machine

open Sys2Proof Sys2Proof.Machine

/-- Settles O28: the memory unit after a bulk write (bulkMu), slot by slot. -/
theorem bulkSlots : Obligations.BulkSlots := by
  intro s t b ecc h hi pre hb hd w hn
  obtain ⟨s', core, v, hnext, htile⟩ := exec_bulkSlotWrite (ecc := ecc) h hi hb hd
  refine ⟨s', hnext, ?_⟩
  rw [htile]
  have hnew := mget_bulkWritten (ecc := ecc) (b := b) w
  refine ⟨congrArg Slot.data hnew, congrArg Slot.poison hnew, (congrArg Slot.full hnew :),
    fun hmore he => full_settleEnds_bulkMu rfl w he hmore,
    fun hlast ha => ⟨_, bulkMu_ends_of_last hlast ha, rfl, rfl⟩, fun k hk => mget_bulkWritten_ne w hk,
    fun hmore => ⟨if_neg (by omega), if_neg (by omega)⟩, fun hlast => ⟨if_pos (by omega), if_pos (by omega)⟩,
    rfl, rfl, rfl, rfl, rfl, rfl, rfl⟩
end

/-! ## Window writes and the marks of the write port (R153, R157, R158, R159, R166, R169) -/

section
namespace Sys2Proof.Machine

variable {s : State} {t : TileId} {q : Tile} {w : MuWrite} {core c : Nat}

/-! ### A write lands -/

/-- The window of a write; a CFGW's has none. -/
def writeWindow (w : MuWrite) (q : Tile) : Reg64 := if w.raw then 0 else mget 0 q.mu.win w.win

/-- The tag that a write sets at the end of its cycle (R166). -/
def windowTag (r : Reg64) (slot : Nat) : Option (Nat × Bool) := if wTagmode r ≠ 0 then some (slot, true) else none

/-- The count that a write adds at the end of its cycle (R169). -/
def windowCount (r : Reg64) : Option (Nat × Nat) := if wAcnten r then some (wAcnt r, 1) else none

/-- A slot after a write. -/
def putWrite (w : MuWrite) (o : Slot) : Slot :=
  { o with data := mergeBytes o.data w.data w.boff w.bcnt, poison := w.poison }

/-- The memory unit of an issuing tile after a window write in tile cycle c. -/
def landedMu (core c : Nat) (w : MuWrite) (q : Tile) : MemUnit :=
  { q.mu with
    ingress := q.mu.ingress.filter fun v => decide (v.id ≠ w.id)
    slots := mmod {} q.mu.slots w.slot (putWrite w)
    wUsed := c + 1
    ends := q.mu.ends ++ cycleEnds core q.tab.tc (windowTag (writeWindow w q) w.slot) (windowCount (writeWindow w q)) }

/-- The slots take a window write, and the ingress buffer loses it. -/
def placeWrite (w : MuWrite) (q : Tile) : Tile :=
  { q with mu := { q.mu with
    ingress := q.mu.ingress.filter fun v => decide (v.id ≠ w.id)
    slots := mmod {} q.mu.slots w.slot (putWrite w) } }

theorem landWrite_eq : landWrite core c w q = atEnd core (windowTag (writeWindow w q) w.slot)
    (windowCount (writeWindow w q)) (usePort core c (placeWrite w q)) := rfl

theorem landWrite_of_issuing (h : issuing q = true) :
    ∃ v, landWrite core c w q = { q with ctr := counted .muExtw 1 q, ev := v, mu := landedMu core c w q } := by
  obtain ⟨v, hp⟩ := usePort_eq core c (placeWrite w q)
  refine ⟨v, ?_⟩
  rw [landWrite_eq, hp, atEnd_issuing (by exact h)]
  rfl

theorem exec_grantWrite {ok : Tile → MuWrite → Bool} (h : OnGrid s t) (hi : issuing (tileOf s t) = true)
    (ho : portOwner (tileOf s t) (tileOf s t).tab.tc = some (.write w)) (hok : ok (tileOf s t) w = true) :
    ∃ s' o v, grantWrite ok t s = .next s' ∧ tileOf s' t = { tileOf s t with
      ctr := counted .muExtw 1 (tileOf s t), ev := v
      mu := landedMu (max s.cycle (tileOf s t).tab.nextCore) (tileOf s t).tab.tc w
        (dropMarks (tileOf s t) (tileOf s t).tab.tc)
      fret := { (tileOf s t).fret with outst := o } } := by
  obtain ⟨v, hl⟩ := landWrite_of_issuing (q := dropMarks (tileOf s t) (tileOf s t).tab.tc)
    (core := max s.cycle (tileOf s t).tab.nextCore) (c := (tileOf s t).tab.tc) (w := w) hi
  unfold grantWrite onTile
  rw [if_pos h.tile]
  have hi' : issuing (getTile s t.x t.y) = true := hi
  have ho' : portOwner (getTile s t.x t.y) (getTile s t.x t.y).tab.tc = some (.write w) := ho
  simp only [grantCycle, grantCore, hi', if_true, ho', advanceTo_cycle]
  rw [if_pos (by exact hok)]
  obtain ⟨o, hr⟩ := tileOf_releaseAll (t := t)
    (modTile_wf (s := advanceTo s (max s.cycle (tileOf s t).tab.nextCore)) t.x t.y (fun tl => landWrite (max s.cycle (max s.cycle (tileOf s t).tab.nextCore)) (tileOf s t).tab.tc w
      (dropMarks tl (tileOf s t).tab.tc)) h.maps) (max s.cycle (max s.cycle (tileOf s t).tab.nextCore)) w.flit.toList
  refine ⟨_, o, v, rfl, (tileOf_noteWrote ..).trans (hr.trans ?_)⟩
  rw [tileOf_modTile h.maps, max_eq_right (le_max_left ..), hl]
  rfl

theorem elem_fld {v p n k : Nat} (h : k < n) : elem (fld v (8 * p) (8 * n)) 8 k = elem v 8 (p + k) := by
  apply Nat.eq_of_testBit_eq
  intro j
  rw [testBit_elem, testBit_fld, testBit_elem]
  by_cases hj : j < 8
  · rw [decide_eq_true (show 8 * k + j < 8 * n by omega), Bool.true_and, ← add_assoc, mul_add]
  · simp [hj]

theorem elem_mergeBytes (old new : Unit512) (boff bcnt : Nat) {k : Nat} (hk : k < 64) :
    elem (mergeBytes old new boff bcnt).toNat 8 k =
      if bcnt = 0 ∨ (boff ≤ k ∧ k < boff + bcnt) then elem new.toNat 8 k else elem old.toNat 8 k := by
  unfold mergeBytes
  by_cases h0 : bcnt = 0
  · rw [if_pos h0, if_pos (.inl h0)]
  · rw [if_neg h0, elem_toNat_ofNat_of_lt _ hk, elem_setFld]
    by_cases hr : boff ≤ k ∧ k < boff + bcnt
    · rw [if_pos hr, if_pos (.inr hr), elem_fld (by omega), Nat.add_sub_cancel' hr.1]
    · rw [if_neg hr, if_neg fun h => h.elim h0 hr]

/-- What waits for the end of the cycle of a write whose window has a tag or a count. -/
theorem cycleEnds_window {r : Reg64} {tc n : Nat} (h : wTagmode r ≠ 0 ∨ wAcnten r = true) :
    cycleEnds core tc (windowTag r n) (windowCount r) =
      [{ vis := tc + 1, core := core, tag := if wTagmode r = 0 then none else some (n, true)
         count := if wAcnten r = true then some (wAcnt r, 1) else none }] := by
  have hn : ¬ (windowTag r n = none ∧ windowCount r = none) := by
    simpa [windowTag, windowCount, imp_iff_not_or] using h
  rw [cycleEnds, if_neg hn, windowTag, windowCount, ite_not]

theorem full_windowTag {r : Reg64} {m : SMap Slot} (w : mwf {} m = true) (n k : Nat) :
    (mget {} (tagged (windowTag r n) m) k).full = ((mget {} m k).full || decide (k = n ∧ wTagmode r ≠ 0)) := by
  unfold windowTag
  split
  next h =>
    rw [tagged, mget_mmod_eq w]
    by_cases hk : k = n
    · simp [hk, h]
    · simp [hk]
  next h => simp [tagged, h]

/-- The memory unit after a window write, slot by slot. -/
theorem full_settleEnds_landedMu {p : Tile} (hp : p.mu = landedMu core c w q) (wm : mwf {} q.mu.slots = true)
    (he : q.mu.ends = []) (ha : wAcnten (writeWindow w q) = false) (k : Nat) :
    (mget {} (settleEnds (q.tab.tc + 1) p).mu.slots k).full =
      ((mget {} q.mu.slots k).full || decide (k = w.slot ∧ wTagmode (writeWindow w q) ≠ 0)) := by
  have hcount : windowCount (writeWindow w q) = none := by rw [windowCount, ha]; rfl
  have hends : p.mu.ends = cycleEnds core q.tab.tc (windowTag (writeWindow w q) w.slot) none := by
    rw [hp, landedMu, hcount, he, List.nil_append]
  have hslots : p.mu.slots = mmod {} q.mu.slots w.slot (putWrite w) := congrArg MemUnit.slots hp
  rw [settleEnds_slots hends, hslots, full_windowTag (mwf_mmod wm), mget_mmod_eq wm, apply_ite Slot.full]
  by_cases hk : k = w.slot
  · rw [if_pos hk, hk]; rfl
  · rw [if_neg hk]

/-! ### Marks of the port (R158) -/

/-- The element with the least first component, when it is alone in that, is what a fold for the least keeps. -/
theorem foldl_least {g : Option (Nat × Nat) → Nat × Nat → Option (Nat × Nat)} {x : Nat × Nat} {l : List (Nat × Nat)}
    (h0 : ∀ y, g none y = some y) (h1 : ∀ y z, g (some y) z = if z.1 < y.1 then some z else some y)
    (hx : x ∈ l) (hl : ∀ y ∈ l, y ≠ x → x.1 < y.1) : l.foldl g none = some x := by
  have stays : ∀ l : List (Nat × Nat), (∀ y ∈ l, y ≠ x → x.1 < y.1) → l.foldl g (some x) = some x := by
    intro l hl
    induction l with
    | nil => rfl
    | cons y l ih =>
      have hy : ¬ y.1 < x.1 := fun hlt => by
        have := hl y (by simp) (fun h => by simp [h] at hlt)
        omega
      rw [List.foldl_cons, h1, if_neg hy]
      exact ih fun z hz => hl z (by simp [hz])
  have finds : ∀ (l : List (Nat × Nat)) b, x ∈ l → (∀ y ∈ l, y ≠ x → x.1 < y.1) → (∀ y, b = some y → x.1 < y.1) →
      l.foldl g b = some x := by
    intro l
    induction l with
    | nil => intro _ h; simp at h
    | cons y l ih =>
      intro b hx hl hb
      rw [List.foldl_cons]
      by_cases hy : y = x
      · have hkeep : g b y = some x := by
          cases b with
          | none => rw [h0, hy]
          | some z => rw [h1, hy, if_pos (hb z rfl)]
        rw [hkeep]
        exact stays l fun z hz => hl z (by simp [hz])
      · refine ih _ (by simpa [Ne.symm hy] using hx) (fun z hz => hl z (by simp [hz])) fun z hz => ?_
        have hylt := hl y (by simp) hy
        cases b with
        | none => rw [h0] at hz; cases hz; exact hylt
        | some v =>
          rw [h1] at hz
          split at hz <;> cases hz
          · exact hylt
          · exact hb _ rfl
  exact finds l none hx hl (by simp)

/-- The writes and the drains that may take a mark, with the cycle that each waits from. -/
def markWaiting (q : Tile) (c : Nat) : List (Nat × Nat) :=
  ([.sage, .arrayEngine, .ste, .coll].flatMap (classWaiting q c)).map (fun w => (w.since, w.id)) ++
    (drainsWaiting q c).map fun e => (e.wants.getD 0, e.id)

/-- The tile with a cycle of its port given to a claimant. -/
def markedTile (c id : Nat) (q : Tile) : Tile :=
  { q with mu := { q.mu with marks := q.mu.marks ++ [{ cycle := c, owner := id }] } }

theorem exec_extMark {a id now : Nat} (ht : tileExists s t = true) (hi : issuing (tileOf s t) = true)
    (hnow : now = (tileOf s t).tab.tc - 1) (hm : ∀ m ∈ (tileOf s t).mu.marks, m.cycle ≠ now + 7)
    (hb : ∀ b, (tileOf s t).mu.bulk = some b → bulkCycle b (now + 7) = false)
    (hmem : (a, id) ∈ markWaiting (tileOf s t) (now + 1)) (hold : a + 15 ≤ now)
    (hleast : ∀ y ∈ markWaiting (tileOf s t) (now + 1), y ≠ (a, id) → a < y.1) :
    exec (.extMark t) s = .next (withTile s t (markedTile (now + 7) id (closedTile s t))) := by
  have htime : tileTime s.cycle (getTile s t.x t.y) = now := (tileTime_of_issuing hi).trans hnow.symm
  show execExtMark t s = _
  unfold execExtMark onTile
  rw [if_pos ht]
  simp only [htime]
  have hfree : (getTile s t.x t.y).mu.marks.any (fun m => decide (m.cycle = now + 7)) = false := by
    rw [List.any_eq_false]
    exact fun m h => by simpa using hm m h
  rw [foldl_least (x := (a, id))]
  case hx => exact List.mem_filter.mpr ⟨hmem, decide_eq_true (by omega)⟩
  case hl => exact fun y hy => hleast y (List.mem_filter.mp hy).1
  case h0 => exact fun _ => rfl
  case h1 => exact fun _ _ => rfl
  simp only [hfree, Bool.or_false]
  cases hbulk : (getTile s t.x t.y).mu.bulk with
  | none => rfl
  | some b =>
    simp only [hb b hbulk]
    rfl

theorem mem_classWaiting {k : WClass} (hf : ∀ v ∈ q.mu.ingress, fillHeld q v = false) (v : MuWrite) :
    v ∈ classWaiting q c k ↔ v ∈ q.mu.ingress ∧ v.cls = k ∧ hasMark q c v.id = false := by
  have hall : ∀ v ∈ q.mu.ingress.filter fun v => decide (v.cls = k), (!fillHeld q v) = true := fun v hv => by
    simp [hf v (List.mem_filter.mp hv).1]
  rw [classWaiting, List.takeWhile_eq_self_iff.mpr hall]
  simp [and_comm]

theorem mem_drainsWaiting (e : CbEntry) : e ∈ drainsWaiting q c ↔
    e ∈ q.mu.cb ∧ e.wants.isSome = true ∧ hasMark q c e.id = false ∧ e.last < c := by
  simp [drainsWaiting, and_assoc]

/-- Without FILLBLOCK what may take a mark is every waiting write and every drain that holds none. -/
theorem mem_markWaiting (hf : ∀ v ∈ q.mu.ingress, fillHeld q v = false ∧ v.cls ≠ .cbDrain) (y : Nat × Nat) :
    y ∈ markWaiting q c ↔ (∃ v ∈ q.mu.ingress, hasMark q c v.id = false ∧ (v.since, v.id) = y) ∨
      ∃ e ∈ q.mu.cb, ∃ a, e.wants = some a ∧ hasMark q c e.id = false ∧ e.last < c ∧ (a, e.id) = y := by
  rw [markWaiting, List.mem_append, List.mem_map, List.mem_map]
  refine or_congr (exists_congr fun v => ?_) (exists_congr fun e => ?_)
  · rw [List.mem_flatMap]
    simp only [mem_classWaiting fun v hv => (hf v hv).1]
    constructor
    · rintro ⟨⟨k, -, hv, -, hmark⟩, hy⟩
      exact ⟨hv, hmark, hy⟩
    · rintro ⟨hv, hmark, hy⟩
      have hk := (hf v hv).2
      exact ⟨⟨v.cls, by cases hc : v.cls <;> simp_all, hv, rfl, hmark⟩, hy⟩
  · rw [mem_drainsWaiting]
    constructor
    · rintro ⟨⟨he, hw, hmark, hl⟩, hy⟩
      obtain ⟨a, ha⟩ := Option.isSome_iff_exists.mp hw
      exact ⟨he, a, ha, hmark, hl, by rw [← hy, ha]; rfl⟩
    · rintro ⟨he, a, ha, hmark, hl, hy⟩
      exact ⟨⟨he, by rw [ha]; rfl, hmark, hl⟩, by rw [ha]; exact hy⟩

end Sys2Proof.Machine

open Sys2Proof Sys2Proof.Machine

theorem windowWritesLand : WindowWritesLand := by
  intro s t w h hi pre now r ho wm wc lands _
  have hland : ∀ ok : Tile → MuWrite → Bool, ok pre w = true → ∀ i, exec i s = grantWrite ok t s → lands i := by
    intro ok hok i hexec
    obtain ⟨s', o, v, hn, htile⟩ := exec_grantWrite h hi ho hok
    refine ⟨s', hexec.trans hn, ?_⟩
    rw [htile]
    have hnew := mget_mmod (f := putWrite w) (k := w.slot) wm
    refine ⟨fun k hk => ?_, congrArg Slot.poison hnew, (congrArg Slot.full hnew :), fun hr => ?_, fun ha he k => ?_,
      fun k hk => mget_mmod_ne wm hk, rfl, rfl, mget_mset wc, rfl, rfl, rfl, rfl, rfl, rfl, rfl, rfl⟩
    · exact (congrArg (fun o : Slot => elem o.data.toNat 8 k) hnew).trans (elem_mergeBytes _ _ _ _ hk)
    · exact congrArg (pre.mu.ends ++ ·) (cycleEnds_window hr)
    · exact full_settleEnds_landedMu (q := dropMarks pre now) rfl wm he ha k
  refine ⟨hland (fun _ _ => true) rfl _ rfl, fun hraw hmode =>
    hland (fun tl w => !w.raw && decide (wTagmode (mget 0 tl.mu.win w.win) = 2)) ?_ _ rfl⟩
  have hr : r = mget 0 pre.mu.win w.win := by simp [r, hraw]
  rw [hr] at hmode
  show (!w.raw && decide (wTagmode (mget 0 pre.mu.win w.win) = 2)) = true
  rw [hraw, hmode]
  rfl
theorem extensionMarks : ExtensionMarks := by
  intro s t ht hi pre now hf hm hb marked
  have hmarked : ∀ a id, (a, id) ∈ markWaiting pre (now + 1) → a + 15 ≤ now →
      (∀ y ∈ markWaiting pre (now + 1), y ≠ (a, id) → a < y.1) → marked id := fun a id hmem hold hleast => by
    refine (exec_extMark ht hi rfl hm hb hmem hold hleast).trans ?_
    rw [markedTile, closedTile_mu]
  constructor
  · intro w hw hmark hold hwrites hdrains
    refine hmarked w.since w.id ((mem_markWaiting hf _).mpr (.inl ⟨w, hw, hmark, rfl⟩)) hold fun y hy hne => ?_
    obtain ⟨v, hv, -, rfl⟩ | ⟨e, he, a, ha, -, -, rfl⟩ := (mem_markWaiting hf y).mp hy
    · exact hwrites v hv fun h => hne (by rw [h])
    · exact hdrains e he a ha
  · intro e he a ha hmark hlast hold hwrites hdrains
    refine hmarked a e.id ((mem_markWaiting hf _).mpr (.inr ⟨e, he, a, ha, hmark, by omega, rfl⟩)) hold fun y hy hne => ?_
    obtain ⟨v, hv, -, rfl⟩ | ⟨f, hf', b, hb', -, -, rfl⟩ := (mem_markWaiting hf y).mp hy
    · exact hwrites v hv
    · exact hdrains f hf' b (fun h => hne (by subst h; rw [ha] at hb'; cases hb'; rfl)) hb'

/-- Settles O26: the oldest of what may take a mark (markWaiting) takes it, and a write that lands leaves landedMu. -/
theorem windowsAndMarks : Obligations.WindowsAndMarks := ⟨extensionMarks, windowWritesLand⟩
end

/-! ## Packet reads (R154, R160, R211) -/

section
namespace Sys2Proof.Machine

variable {s : State} {t : TileId} {q : Tile} {r : PRead} {l : List PRead} {e : Ecc}

/-! ### Which read goes first (R160) -/

theorem bestRead_mem {b : PRead} (h : bestRead l = some b) : b ∈ l := by
  induction l with
  | nil => cases h
  | cons a l ih =>
    rw [bestRead] at h
    cases hb : bestRead l with
    | none => rw [hb] at h; cases h; simp
    | some c =>
      simp only [hb] at h
      split at h <;> cases h
      · exact List.mem_cons_of_mem _ (ih hb)
      · simp

/-- The read of the best issuer, when no other read is of an issuer as good. -/
theorem bestRead_of_best (hr : r ∈ l) (hl : ∀ v ∈ l, v ≠ r → issuerRank r.issuer < issuerRank v.issuer) :
    bestRead l = some r := by
  induction l with
  | nil => simp at hr
  | cons a l ih =>
    have hrest : ∀ v ∈ l, v ≠ r → issuerRank r.issuer < issuerRank v.issuer := fun v hv => hl v (by simp [hv])
    rw [bestRead]
    by_cases ha : a = r
    · subst ha
      cases hb : bestRead l with
      | none => rfl
      | some b =>
        have hle : ¬ issuerRank b.issuer < issuerRank a.issuer := fun hlt => by
          have := hrest b (bestRead_mem hb) fun h => by simp [h] at hlt
          omega
        simp only [if_neg hle]
    · rw [ih (by simpa [Ne.symm ha] using hr) hrest]
      simp only [if_pos (hl a (by simp) ha)]

theorem find?_claimed_eq_some (hr : r ∈ l) (hc : r.claimed = true) (hl : ∀ v ∈ l, v ≠ r → v.claimed = false) :
    l.find? (·.claimed) = some r := by
  cases h : l.find? (·.claimed) with
  | none => exact absurd hc (List.find?_eq_none.mp h r hr)
  | some v =>
    by_contra hne
    have := hl v (List.mem_of_find?_eq_some h) fun h => hne (by rw [h])
    rw [List.find?_some h] at this
    cases this

/-- A read that stands claimed, or in whose stead none does and whose issuer is the best, is given the port. -/
theorem readOwner_eq_some (hr : r ∈ q.mu.reads) (hl : ∀ v ∈ q.mu.reads, v ≠ r → v.claimed = false ∧
    (r.claimed = true ∨ issuerRank r.issuer < issuerRank v.issuer)) : readOwner q = some r := by
  rw [readOwner]
  by_cases hc : r.claimed = true
  · rw [find?_claimed_eq_some hr hc fun v hv hne => (hl v hv hne).1]
  · have hnone : q.mu.reads.find? (·.claimed) = none := List.find?_eq_none.mpr fun v hv => by
      by_cases h : v = r
      · rwa [h]
      · simp [(hl v hv h).1]
    rw [hnone]
    exact bestRead_of_best hr fun v hv hne => (hl v hv hne).2.resolve_left hc

theorem foldl_min_arr {a m : Nat} (ha : m ≤ a) (hl : ∀ v ∈ l, m ≤ v.arr) (h : a = m ∨ ∃ v ∈ l, v.arr = m) :
    l.foldl (fun a v => min a v.arr) a = m := by
  induction l generalizing a with
  | nil => simpa using h
  | cons v l ih =>
    have hv := hl v (by simp)
    refine ih (le_min ha hv) (fun w hw => hl w (by simp [hw])) ?_
    rcases h with rfl | ⟨w, hw, rfl⟩
    · exact .inl (min_eq_left hv)
    · rcases List.mem_cons.mp hw with rfl | hw
      · exact .inl (min_eq_right ha)
      · exact .inr ⟨w, hw, rfl⟩

/-! ### The claim (R160) -/

/-- The tile with a read's claim. -/
def claimedTile (r : PRead) (q : Tile) : Tile :=
  { q with mu := { q.mu with reads := q.mu.reads.map fun v => if v.id = r.id then { v with claimed := true } else v } }

theorem exec_packetReadClaim (ht : tileExists s t = true) (hi : issuing (tileOf s t) = true)
    (hr : r ∈ (tileOf s t).mu.reads) (hc : ∀ v ∈ (tileOf s t).mu.reads, v.claimed = false)
    (hw : r.arr + 15 ≤ (tileOf s t).tab.tc - 1)
    (hl : ∀ v ∈ (tileOf s t).mu.reads, v ≠ r →
      r.arr < v.arr ∨ r.arr = v.arr ∧ issuerRank r.issuer < issuerRank v.issuer) :
    exec (.packetReadClaim t) s = .next (withTile s t (claimedTile r (closedTile s t))) := by
  have htime : tileTime s.cycle (getTile s t.x t.y) = (tileOf s t).tab.tc - 1 := tileTime_of_issuing hi
  have hnone : (getTile s t.x t.y).mu.reads.any (·.claimed) = false := by
    rw [List.any_eq_false]
    exact fun v hv => by simp [hc v hv]
  have hle : ∀ v ∈ (tileOf s t).mu.reads, r.arr ≤ v.arr := fun v hv => by
    by_cases h : v = r
    · rw [h]
    · rcases hl v hv h with h | h <;> omega
  show execPacketReadClaim t s = _
  unfold execPacketReadClaim onTile
  rw [if_pos ht]
  simp only [htime, hnone, Bool.false_eq_true, if_false]
  have hold : r ∈ (getTile s t.x t.y).mu.reads.filter fun v => decide ((tileOf s t).tab.tc - 1 + 1 - v.arr ≥ 16) :=
    List.mem_filter.mpr ⟨hr, decide_eq_true (by omega)⟩
  rw [foldl_min_arr (m := r.arr) (by omega) (fun v hv => hle v (List.mem_filter.mp hv).1) (.inr ⟨r, hold, rfl⟩),
    bestRead_of_best (r := r) (List.mem_filter.mpr ⟨hold, by simp⟩) fun v hv hne => ?_]
  · rfl
  · obtain ⟨hv, harr⟩ := List.mem_filter.mp hv
    have harr := of_decide_eq_true harr
    rcases hl v (List.mem_filter.mp hv).1 hne with h | h
    · omega
    · exact h.2

/-! ### A slot is read (R154, R211) -/

/-- A read with one slot more. -/
def readMore (e : Ecc) (o : Slot) (r : PRead) : PRead :=
  { r with claimed := false, got := r.got ++ [(o.data, o.full, o.poison || decide (e = .double))] }

/-- Slot k of a tile has been read in tile cycle c, and the waiting reads are others. -/
def slotRead (core c k : Nat) (e : Ecc) (reads : List PRead) (q : Tile) : Tile :=
  { spadUpset core e k q with mu := { (spadUpset core e k q).mu with rUsed := c + 1, reads := reads } }

variable {core c k : Nat}

/-- Before its last slot a read goes on waiting. -/
theorem readSlotFor_of_more (hk : hOffset r.header + r.got.length = k) (hb : k < 2048)
    (hn : r.got.length + 1 < hNpay r.header) : readSlotFor core c e r q =
      slotRead core c k e (q.mu.reads.map fun v => if v.id = r.id then readMore e (mget {} q.mu.slots k) r else v) q := by
  have hmore : ¬ (readMore e (mget {} q.mu.slots k) r).got.length ≥ hNpay r.header := by
    simp only [readMore, List.length_append, List.length_singleton]
    omega
  subst hk
  unfold readSlotFor
  simp only [if_pos hb]
  rw [if_neg (by exact hmore)]
  cases e <;> rfl

/-- With its last slot a read's response enters the fret. -/
theorem readSlotFor_of_last (hk : hOffset r.header + r.got.length = k) (hb : k < 2048)
    (hn : hNpay r.header ≤ r.got.length + 1) : readSlotFor core c e r q =
      placePacket core (respPacket (readMore e (mget {} q.mu.slots k) r))
        (slotRead core c k e (q.mu.reads.filter fun v => decide (v.id ≠ r.id)) q) := by
  have hlast : (readMore e (mget {} q.mu.slots k) r).got.length ≥ hNpay r.header := by
    simpa only [readMore, List.length_append, List.length_singleton] using hn
  subst hk
  unfold readSlotFor
  simp only [if_pos hb]
  rw [if_pos (by exact hlast)]
  cases e <;> rfl

theorem copyClaims_eq_false (h : ∀ b, q.mu.bulk = some b → bOp b.cmd = 2 → bulkCycle b (c + 1) = false) :
    copyClaims q c = false := by
  unfold copyClaims
  split
  next b hb =>
    by_cases hop : bOp b.cmd = 2
    · rw [h b hb hop, Bool.and_false]
    · rw [decide_eq_false (show ¬ fld b.cmd.toNat 0 2 = 2 from hop), Bool.false_and]
  next => rfl

theorem exec_packetReadGrant (ht : tileExists s t = true) (hi : issuing (tileOf s t) = true)
    (ho : readOwner (tileOf s t) = some r) (hu : (tileOf s t).mu.rUsed ≤ (tileOf s t).tab.tc - 1)
    (hc : copyClaims (tileOf s t) ((tileOf s t).tab.tc - 1) = false) : exec (.packetReadGrant t e) s =
      .next (withTile s t (readSlotFor s.cycle ((tileOf s t).tab.tc - 1) e r (closedTile s t))) := by
  have htime : tileTime s.cycle (getTile s t.x t.y) = (tileOf s t).tab.tc - 1 := tileTime_of_issuing hi
  show execPacketReadGrant t e s = _
  unfold execPacketReadGrant onTile
  rw [if_pos ht]
  simp only [ho, htime]
  rw [if_pos hi, if_pos ⟨hu, by rw [hc]; rfl⟩]
  rfl

end Sys2Proof.Machine

open Sys2Proof Sys2Proof.Machine

/-- Settles O27: the claim by what waits longest, and the slot of a grant (readSlotFor_of_more, readSlotFor_of_last). -/
theorem packetReads : Obligations.PacketReads := by
  intro s t r ht hi pre now hr
  have hmu : pre.mu = (tileOf s t).mu := closedTile_mu s t
  have htc : pre.tab.tc = (tileOf s t).tab.tc := closedTile_tc s t
  refine ⟨fun hc hw hl => ?claim, fun e hb hu hcopy hl => ?grant⟩
  case claim =>
    rw [hmu] at hr hc hl
    exact exec_packetReadClaim ht hi hr hc (by omega) hl
  case grant =>
    intro k o r' up
    have hexec : exec (.packetReadGrant t e) s = .next (withTile s t (readSlotFor s.cycle now e r pre)) := by
      rw [hmu] at hr hl hu
      have hnow : now = (tileOf s t).tab.tc - 1 := by rw [← htc]
      rw [hmu, hnow] at hcopy
      rw [hnow]
      exact exec_packetReadGrant ht hi (readOwner_eq_some hr hl) (hnow ▸ hu) (copyClaims_eq_false hcopy)
    refine ⟨fun hn => hexec.trans ?_, fun hn => hexec.trans ?_⟩
    · rw [readSlotFor_of_more rfl hb hn]
      cases e <;> rfl
    · rw [readSlotFor_of_last rfl hb hn]
      cases e <;> rfl
end

/-! ## Requests that reach a tile (R159, R162, R211) -/

section
namespace Sys2Proof.Machine

variable {s : State} {t : TileId} {q : Tile} {p : Packet} {rest : List Packet} {core : Nat} {c : WClass} {d : Unit512}
  {poison : Bool}

theorem takeInbox_head {k : Nat} (h : hKind p.header = k) : takeInbox k (p :: rest) = some (p, rest) := if_pos h

/-- A tile whose terminal holds other packets. -/
def inboxLeft (rest : List Packet) (q : Tile) : Tile := { q with fret := { q.fret with inbox := rest } }

/-! ### WWRITE (R159, R165, R211) -/

/-- A write waits in the ingress buffer, under an identity of its own. -/
def ingressPut (w : MuWrite) (q : Tile) : Tile :=
  { q with mu := { q.mu with ingress := q.mu.ingress ++ [{ w with id := q.mu.nextId }], nextId := q.mu.nextId + 1 } }

/-- The write that a window makes of a flit. -/
def windowFlit (w ofs : Nat) (c : WClass) (boff bcnt : Nat) (d : Unit512) (poison : Bool) (now : Nat) (r : Reg64) : MuWrite :=
  { id := 0, cls := c, win := w, slot := wBase r + ofs, boff := boff, bcnt := bcnt, data := d, poison := poison, arr := now
    since := now }

theorem winViolation_eq_false {r : Reg64} {ofs : Nat} (hv : wValid r = true) (ho : ofs < wLen r) (ha : wAllows r c = true)
    (hacc : wAccum r = false) : winViolation r ofs c false = false := by
  simp [winViolation, hv, ha, hacc, ho]

theorem windowWrite_of_allowed {w ofs boff bcnt : Nat} (hv : wValid (mget 0 q.mu.win w) = true)
    (ho : ofs < wLen (mget 0 q.mu.win w)) (ha : wAllows (mget 0 q.mu.win w) c = true)
    (hacc : wAccum (mget 0 q.mu.win w) = false) : windowWrite core w ofs c false boff bcnt d poison none q =
      ingressPut (windowFlit w ofs c boff bcnt d poison (arrivalTime core q) (mget 0 q.mu.win w)) q := by
  simp only [windowWrite, winViolation_eq_false hv ho ha hacc, Bool.false_eq_true, if_false]
  rfl

theorem wwriteFlits_one {h : Unit512} {done : Nat} (hc : classCount q (issuerClass (hIssuer h)) < 4) :
    wwriteFlits core h 8 [(d, poison)] done q = (windowWrite core (hWin h) (hOffset h + done) (issuerClass (hIssuer h)) false
      (hBoff h) (hBcnt h) d poison none q, [], done + 1) := by
  simp [wwriteFlits, hc]

theorem exec_wwrite_one (ht : tileExists s t = true) (hb : (tileOf s t).fret.inbox = p :: rest) (hk : hKind p.header = 1)
    (hp : p.payload = [(d, poison)]) (hc : classCount (tileOf s t) (issuerClass (hIssuer p.header)) < 4) :
    exec (.wwrite t) s = .next (withTile s t (inboxLeft rest (windowWrite s.cycle (hWin p.header) (hOffset p.header + p.done)
      (issuerClass (hIssuer p.header)) false (hBoff p.header) (hBcnt p.header) d poison none (tileOf s t)))) := by
  show execWwrite t s = _
  unfold execWwrite onTile modTile
  rw [if_pos ht]
  simp only [show (getTile s t.x t.y).fret.inbox = _ from hb, takeInbox_head hk, hp, wwriteFlits_one hc, if_true]
  rfl

/-! ### MREAD and MU commands (R162, R211) -/

theorem exec_mread (ht : tileExists s t = true) (hb : (tileOf s t).fret.inbox = p :: rest) (hk : hKind p.header = 2) :
    exec (.mread t) s = .next (withTile s t (inboxLeft rest { tileOf s t with mu := { (tileOf s t).mu with
      nextId := (tileOf s t).mu.nextId + 1
      reads := (tileOf s t).mu.reads ++ [{ id := (tileOf s t).mu.nextId, issuer := hIssuer p.header, header := p.header
                                           arr := arrivalTime s.cycle (tileOf s t), epoch := p.epoch }] } })) := by
  show execMread t s = _
  unfold execMread onTile
  rw [if_pos ht]
  simp only [show (getTile s t.x t.y).fret.inbox = _ from hb, takeInbox_head hk]
  rfl

theorem exec_mcmd (ht : tileExists s t = true) (hb : (tileOf s t).fret.inbox = p :: rest) (hk : hKind p.header = 3) :
    exec (.mcmd t) s = .next (withTile s t (muCommand s.cycle (hIssuer p.header) (BitVec.ofNat 64 (hCmd p.header))
      p.payload.head? (inboxLeft rest (tileOf s t)))) := by
  show execMcmd t s = _
  unfold execMcmd onTile
  rw [if_pos ht]
  simp only [show (getTile s t.x t.y).fret.inbox = _ from hb, takeInbox_head hk]
  rfl

/-- The bulk operation that a command and its pattern ask for. -/
def bulkOf (core issuer : Nat) (w : Reg64) (pattern : Option (Unit512 × Bool)) (q : Tile) : Bulk :=
  { cmd := w, pattern := (pattern.getD (0, false)).1, patPoison := (pattern.getD (0, false)).2
    accepted := arrivalTime core q, issuer := issuer }

theorem muCommand_malformed {issuer : Nat} {w : Reg64} {pattern : Option (Unit512 × Bool)}
    (h : ¬ (muCmdBad w = false ∧ (bOp w = 1 → pattern ≠ none))) :
    muCommand core issuer w pattern q = tileEvent core .muCmd 0 w.toNat q := by
  have hbad : (muCmdBad w || (decide (bOp w = 1) && pattern.isNone)) = true := by
    by_contra hn
    simp only [Bool.or_eq_true, Bool.and_eq_true, decide_eq_true_eq, Option.isNone_iff_eq_none, not_or, not_and] at hn
    exact h ⟨by simpa using hn.1, hn.2⟩
  rw [muCommand, if_pos hbad]

theorem muCmdBad_or_eq_false {w : Reg64} {pattern : Option (Unit512 × Bool)}
    (h : muCmdBad w = false ∧ (bOp w = 1 → pattern ≠ none)) :
    (muCmdBad w || (decide (bOp w = 1) && pattern.isNone)) = false := by
  rw [h.1, Bool.false_or]
  by_cases hop : bOp w = 1
  · rw [Option.isNone_eq_false_iff.mpr (Option.isSome_iff_ne_none.mpr (h.2 hop)), Bool.and_false]
  · rw [decide_eq_false hop, Bool.false_and]

theorem muCommand_begins {issuer : Nat} {w : Reg64} {pattern : Option (Unit512 × Bool)}
    (h : muCmdBad w = false ∧ (bOp w = 1 → pattern ≠ none)) (hb : q.mu.bulk = none) : muCommand core issuer w pattern q =
      { q with mu := { q.mu with bulk := some (bulkOf core issuer w pattern q) } } := by
  simp only [muCommand, muCmdBad_or_eq_false h, Bool.false_eq_true, if_false, hb]
  rfl

theorem muCommand_waits {issuer : Nat} {w : Reg64} {pattern : Option (Unit512 × Bool)}
    (h : muCmdBad w = false ∧ (bOp w = 1 → pattern ≠ none)) (hb : q.mu.bulk ≠ none) : muCommand core issuer w pattern q =
      { q with mu := { q.mu with bulkWait := q.mu.bulkWait ++ [bulkOf core issuer w pattern q] } } := by
  obtain ⟨b, hb⟩ := Option.ne_none_iff_exists'.mp hb
  simp only [muCommand, muCmdBad_or_eq_false h, Bool.false_eq_true, if_false, hb]
  rfl

end Sys2Proof.Machine

open Sys2Proof Sys2Proof.Machine

theorem deliveredRequests : DeliveredRequests := by
  intro s t p rest ht hb pre now ends
  refine ⟨fun d poison hk hp hc hv ho ha hacc => ?write, fun hk => exec_mread ht hb hk, fun hk => ?cmd⟩
  case write =>
    refine (exec_wwrite_one ht hb hk hp hc).trans ?_
    rw [windowWrite_of_allowed (q := tileOf s t) hv ho ha hacc]
    rfl
  case cmd =>
    intro w pat b ok
    have hok : ok ↔ muCmdBad w = false ∧ (bOp w = 1 → p.payload.head? ≠ none) := by
      simp only [ok, ne_eq, List.head?_eq_none_iff]
    refine ⟨fun h => (exec_mcmd ht hb hk).trans ?_, fun h hn => (exec_mcmd ht hb hk).trans ?_,
      fun h hn => (exec_mcmd ht hb hk).trans ?_⟩
    · rw [muCommand_malformed (hok.not.mp h)]
      rfl
    · rw [muCommand_begins (q := inboxLeft rest (tileOf s t)) (hok.mp h) hn]
      rfl
    · rw [muCommand_waits (q := inboxLeft rest (tileOf s t)) (hok.mp h) hn]
      rfl
end

/-! ## Writes of the control space (R18, R213, R255) -/

section
namespace Sys2Proof.Machine

variable {s : State} {t : TileId} {q : Tile} {p : Packet} {rest : List Packet} {core a k : Nat} {c : WClass} {d : Unit512}
  {poison : Bool}

theorem noteWrote_cycle (b : Bool) (x : Nat) : (noteWrote b x s).cycle = s.cycle := by
  unfold noteWrote
  split <;> rfl

theorem noteWrote_tiles (b : Bool) (x : Nat) : (noteWrote b x s).tiles = s.tiles := by
  unfold noteWrote
  split <;> rfl

/-! ### What a CFGW does -/

/-- The address of a CFGW. -/
def cfgAddr (p : Packet) : Nat := fld (hCmd p.header) 0 20

/-- A CFGW comes from Sage. -/
def fromSage (p : Packet) : Bool := decide (hIssuer p.header = 1)

/-- So many flits at an address find a tile that does not run, a multiple of 8, and one region to its end (Table 9.6). -/
def cfgAllowed (a n : Nat) (st : TState) : Bool :=
  decide (a % 8 = 0) && decide (st ≠ .running) && (match cfgRegion a with
    | none => false
    | some (_, hi) => decide (a + 64 * n ≤ hi + 1))

/-- Some word of the flits at an address carries a RSVD bit. -/
def flitsRsvd (a : Nat) (l : List (Unit512 × Bool)) : Bool :=
  l.zipIdx.any fun ((d, _), m) => (List.range 8).any fun k => cfgRsvd (a + 64 * m + 8 * k) (fld d.toNat (64 * k) 64)

/-- A CFGW is obeyed. -/
def cfgwOk (p : Packet) (q : Tile) : Bool :=
  cfgAllowed (cfgAddr p) (p.payload.length + p.done) q.tab.st && !flitsRsvd (cfgAddr p) p.payload

/-- The device once Sage has noted a CFGW of its own. -/
def cfgwNoted (t : TileId) (p : Packet) (s : State) : State :=
  noteWrote (fromSage p && decide (cfgAddr p < 0x20000)) t.x s

/-- A tile once the flits of a CFGW to the scratchpad wait for the port, as many as have room. -/
def cfgwData (core : Nat) (p : Packet) (rest : List Packet) (q : Tile) : Tile :=
  let (q, left, done) := cfgwFlits core (cfgAddr p) (issuerClass (hIssuer p.header)) 8 p.payload p.done q
  inboxLeft (if left = [] then rest else { p with payload := left, done := done } :: rest) q

/-- A tile once the flits of a CFGW outside the scratchpad are written. -/
def cfgwWords (p : Packet) (rest : List Packet) (q : Tile) : Tile :=
  p.payload.zipIdx.foldl (fun q (f, m) => cfgFlit (fromSage p) (cfgAddr p + 64 * m) f.1 q) (inboxLeft rest q)

theorem exec_cfgw (ht : tileExists s t = true) (hb : (tileOf s t).fret.inbox = p :: rest) (hk : hKind p.header = 5) :
    exec (.cfgw t) s = .next (
      if !cfgwOk p (tileOf s t) then
        discardPacket .packetMalformed t.x t.y (cfgwNoted t p s).cycle p.header
          (modTile (cfgwNoted t p s) t.x t.y (inboxLeft rest))
      else if cfgAddr p ≥ 0x20000 then
        modTile (cfgwNoted t p s) t.x t.y (cfgwData (cfgwNoted t p s).cycle p rest)
      else outside t (fun _ => cfgwWords p rest) (cfgwNoted t p s)) := by
  have htake : takeInbox 5 (getTile s t.x t.y).fret.inbox = some (p, rest) := by
    rw [show (getTile s t.x t.y).fret.inbox = _ from hb, takeInbox_head hk]
  show execCfgw t s = _
  unfold execCfgw onTile
  rw [if_pos ht]
  beta_reduce
  rw [htake]
  rfl

theorem cfgwNoted_tiles : (cfgwNoted t p s).tiles = s.tiles := noteWrote_tiles ..
theorem cfgwNoted_cycle : (cfgwNoted t p s).cycle = s.cycle := noteWrote_cycle ..

/-! ### A CFGW that is discarded (R213, R255) -/

/-- A flit that lies in no region to its end. -/
theorem cfgAllowed_outside {n : Nat} (h : ∀ r ∈ [(0, 0x800), (0x8000, 0x8100), (0x10000, 0x14280), (0x20000, 0x40000)],
    a < r.1 ∨ r.2 < a + 64 * n) (st : TState) : cfgAllowed a n st = false := by
  unfold cfgAllowed
  rw [Bool.and_eq_false_iff]
  right
  split
  next => rfl
  next lo hi hr =>
    have hin : lo ≤ a ∧ a ≤ hi := by simpa using List.find?_some hr
    have hmem := List.mem_of_find?_eq_some hr
    have hout := h (lo, hi + 1) (by
      simp only [List.mem_cons, Prod.mk.injEq, List.not_mem_nil, or_false] at hmem ⊢
      omega)
    exact decide_eq_false (by rcases hout with h | h <;> omega)

theorem exec_cfgw_discarded (h : OnGrid s t) (hb : (tileOf s t).fret.inbox = p :: rest) (hk : hKind p.header = 5)
    (hno : cfgwOk p (tileOf s t) = false) : ∃ s', exec (.cfgw t) s = .next s' ∧ ∃ v,
      tileOf s' t = { inboxLeft rest (tileOf s t) with ctr := counted .discard 1 (tileOf s t), ev := v } := by
  have wm : mwf {} (cfgwNoted t p s).tiles = true := by
    rw [cfgwNoted_tiles]
    exact h.maps
  obtain ⟨v, hv⟩ := bump_eq_counted s.cycle .discard 1 (inboxLeft rest (tileOf s t))
  refine ⟨discardPacket .packetMalformed t.x t.y (cfgwNoted t p s).cycle p.header
    (modTile (cfgwNoted t p s) t.x t.y (inboxLeft rest)), ?_,
    raisePort v (mkEv .packetMalformed (hIssuer p.header) (pktDetail p.header) s.cycle), ?_⟩
  · rw [exec_cfgw h.tile hb hk, hno]
    rfl
  · rw [discardPacket, tileOf, getTile_modTile _ _ _ (modTile_wf _ _ _ wm), getTile_modTile _ _ _ wm, cfgwNoted_cycle,
      show getTile (cfgwNoted t p s) t.x t.y = tileOf s t from tileOf_noteWrote .., hv]
    rfl

/-! ### A CFGW to the scratchpad (R159, R255) -/

theorem flitsRsvd_one (h : ∀ k < 8, cfgRsvd (a + 8 * k) (fld d.toNat (64 * k) 64) = false) :
    flitsRsvd a [(d, poison)] = false := by
  simpa [flitsRsvd] using h

theorem cfgRsvd_scratchpad {v : Nat} (h : 0x20000 ≤ a) : cfgRsvd a v = false := by
  simp only [cfgRsvd, if_neg (show ¬ a < 0x14000 by omega), if_neg (show ¬ a < 0x14108 by omega),
    if_neg (show ¬ a < 0x14118 by omega), if_neg (show ¬ a < 0x14138 by omega), if_neg (show ¬ a < 0x14158 by omega),
    if_neg (show ¬ a < 0x14218 by omega), if_neg (show ¬ a < 0x14258 by omega), if_neg (show ¬ a < 0x14278 by omega),
    show ¬ a < 0x14280 by omega, false_and, decide_false]

theorem cfgAllowed_inside {lo hi n : Nat} {st : TState} (ha : a % 8 = 0) (hst : st ≠ .running)
    (hr : cfgRegion a = some (lo, hi)) (hn : a + 64 * n ≤ hi + 1) : cfgAllowed a n st = true := by
  simp [cfgAllowed, ha, hst, hr, hn]

theorem cfgRegion_scratchpad (h : k < 2048) : cfgRegion (0x20000 + 64 * k) = some (0x20000, 0x3FFFF) := by
  simp [cfgRegion, List.find?, show ¬ 0x20000 + 64 * k ≤ 0x7FF by omega, show ¬ 0x20000 + 64 * k ≤ 0x80FF by omega,
    show ¬ 0x20000 + 64 * k ≤ 0x1427F by omega, show 0x20000 + 64 * k ≤ 0x3FFFF by omega]

theorem cfgRegion_tab (h : k < 256) : cfgRegion (0x10000 + 64 * k) = some (0x10000, 0x1427F) := by
  simp [cfgRegion, List.find?, show ¬ 0x10000 + 64 * k ≤ 0x7FF by omega, show ¬ 0x10000 + 64 * k ≤ 0x80FF by omega,
    show 0x10000 + 64 * k ≤ 0x1427F by omega]

/-- The write that a flit at slot k makes: all of its bytes, outside every window. -/
def slotFlit (k : Nat) (c : WClass) (d : Unit512) (poison : Bool) (now : Nat) : MuWrite :=
  { id := 0, cls := c, win := 0, slot := k, boff := 0, bcnt := 0, data := d, poison := poison, arr := now, since := now
    raw := true }

theorem cfgSlots_aligned : cfgSlots core (0x20000 + 64 * k) c d poison q =
    ingressPut (slotFlit k c d poison (arrivalTime core q)) q := by
  have hslot : (0x20000 + 64 * k - 0x20000) / 64 = k := by omega
  simp only [cfgSlots, show (0x20000 + 64 * k) % 64 = 0 by omega, if_true, hslot, BitVec.ofNat_toNat, BitVec.setWidth_eq]
  rfl

theorem cfgwData_one (hp : p.payload = [(d, poison)]) (hd : p.done = 0) (ha : cfgAddr p = 0x20000 + 64 * k)
    (hc : classCount q (issuerClass (hIssuer p.header)) < 4) : cfgwData core p rest q =
      inboxLeft rest (ingressPut (slotFlit k (issuerClass (hIssuer p.header)) d poison (arrivalTime core q)) q) := by
  rw [← cfgSlots_aligned]
  simp [cfgwData, hp, hd, ha, cfgwFlits, hc, show (0x20000 + 64 * k) % 64 = 0 by omega]

theorem exec_cfgw_scratchpad (h : OnGrid s t) (hb : (tileOf s t).fret.inbox = p :: rest) (hk : hKind p.header = 5)
    (hp : p.payload = [(d, poison)]) (hd : p.done = 0) (hst : (tileOf s t).tab.st ≠ .running) (hn : k < 2048)
    (ha : cfgAddr p = 0x20000 + 64 * k) (hc : classCount (tileOf s t) (issuerClass (hIssuer p.header)) < 4) :
    ∃ s', exec (.cfgw t) s = .next s' ∧ tileOf s' t = inboxLeft rest (ingressPut
      (slotFlit k (issuerClass (hIssuer p.header)) d poison (arrivalTime s.cycle (tileOf s t))) (tileOf s t)) := by
  have hok : cfgwOk p (tileOf s t) = true := by
    rw [cfgwOk, ha, hp, hd, cfgAllowed_inside (by omega) hst (cfgRegion_scratchpad hn) (by simp; omega),
      flitsRsvd_one fun j _ => cfgRsvd_scratchpad (by omega)]
    rfl
  have wm : mwf {} (cfgwNoted t p s).tiles = true := by
    rw [cfgwNoted_tiles]
    exact h.maps
  refine ⟨modTile (cfgwNoted t p s) t.x t.y (cfgwData (cfgwNoted t p s).cycle p rest), ?_, ?_⟩
  · rw [exec_cfgw h.tile hb hk, hok, if_neg (by simp), if_pos (by omega)]
  · rw [tileOf, getTile_modTile _ _ _ wm, cfgwNoted_cycle,
      show getTile (cfgwNoted t p s) t.x t.y = tileOf s t from tileOf_noteWrote .., cfgwData_one hp hd ha hc]

/-! ### A CFGW to tab memory (R18, R255) -/

/-- Word n of 64 bits of tab memory. -/
def wordAt (m : SMap TabEntry) (n : Nat) : Nat := elem (mget 0 m (n / 2)).toNat 64 (n % 2)

/-- Tab memory with word n written. -/
def tabWord (m : SMap TabEntry) (n v : Nat) : SMap TabEntry :=
  mset 0 m (n / 2) (BitVec.ofNat 128 (setFld (mget 0 m (n / 2)).toNat (64 * (n % 2)) 64 v))

/-- A tile with other tab memory. -/
def withTabMem (m : SMap TabEntry) (q : Tile) : Tile := { q with tab := { q.tab with mem := m } }

/-- The entry that a CFGW's word lies in, with that half of it replaced. -/
theorem cfgWord_entry {v : Nat} (h1 : 0x10000 ≤ a) (h2 : a < 0x14000) : cfgWord a v q =
    withTabMem (mset 0 q.tab.mem ((a - 0x10000) / 16) (BitVec.ofNat 128
      (if (a - 0x10000) % 16 = 8 then setFld (mget 0 q.tab.mem ((a - 0x10000) / 16)).toNat 64 64 v
        else setFld (mget 0 q.tab.mem ((a - 0x10000) / 16)).toNat 0 64 v))) q := by
  unfold cfgWord
  extract_lets w64 window setTab setReg
  rw [if_neg (by omega), if_neg (by omega), if_neg (by omega), if_neg (by omega), if_pos h2]
  simp only [setTab, decide_eq_true_eq]
  rfl

theorem cfgWord_tab {n v : Nat} (h : n < 2048) (ha : a = 0x10000 + 8 * n) : cfgWord a v q =
    withTabMem (tabWord q.tab.mem n v) q := by
  have hentry : (a - 0x10000) / 16 = n / 2 := by omega
  rw [cfgWord_entry (by omega) (by omega), tabWord, hentry]
  rcases Nat.mod_two_eq_zero_or_one n with h0 | h0
  · rw [if_neg (by omega), h0]
  · rw [if_pos (by omega), h0]

/-- Tab memory with the first n words of a flit written from entry 4 k on. -/
def tabFlit (k : Nat) (d : Unit512) (n : Nat) (m : SMap TabEntry) : SMap TabEntry :=
  (List.range n).foldl (fun m j => tabWord m (8 * k + j) (fld d.toNat (64 * j) 64)) m

theorem tabFlit_succ {m : SMap TabEntry} (n : Nat) :
    tabFlit k d (n + 1) m = tabWord (tabFlit k d n m) (8 * k + n) (fld d.toNat (64 * n) 64) := by
  rw [tabFlit, List.range_succ, List.foldl_append]
  rfl

/-- One word of a flit at an address: tab words of Sage are lost. -/
def flitWord (sage : Bool) (a : Nat) (d : Unit512) (q : Tile) (j : Nat) : Tile :=
  if sage ∧ 0x10000 ≤ a + 8 * j ∧ a + 8 * j < 0x14000 then q else cfgWord (a + 8 * j) (fld d.toNat (64 * j) 64) q

theorem cfgFlit_flitWord (sage : Bool) : cfgFlit sage a d q = (List.range 8).foldl (flitWord sage a d) q := rfl

theorem cfgFlit_sage (h : k < 256) : cfgFlit true (0x10000 + 64 * k) d q = q := by
  have hlost : ∀ n ≤ 8, (List.range n).foldl (flitWord true (0x10000 + 64 * k) d) q = q := by
    intro n hn
    induction n with
    | zero => rfl
    | succ n ih =>
      rw [List.range_succ, List.foldl_append, ih (by omega), List.foldl_cons, List.foldl_nil, flitWord,
        if_pos ⟨rfl, by omega, by omega⟩]
  exact (cfgFlit_flitWord true).trans (hlost 8 le_rfl)

theorem cfgFlit_tab (h : k < 256) : cfgFlit false (0x10000 + 64 * k) d q = withTabMem (tabFlit k d 8 q.tab.mem) q := by
  have hwords : ∀ n ≤ 8, (List.range n).foldl (flitWord false (0x10000 + 64 * k) d) q =
      withTabMem (tabFlit k d n q.tab.mem) q := by
    intro n hn
    induction n with
    | zero => rfl
    | succ n ih =>
      rw [List.range_succ, List.foldl_append, ih (by omega), List.foldl_cons, List.foldl_nil, flitWord, if_neg (by simp),
        cfgWord_tab (n := 8 * k + n) (by omega) (by omega), tabFlit_succ]
      rfl
  exact (cfgFlit_flitWord false).trans (hwords 8 le_rfl)

/-! The words of tab memory after a flit, and the entries they make up. -/

theorem wordAt_tabWord {m : SMap TabEntry} (w : mwf 0 m = true) (n v i : Nat) :
    wordAt (tabWord m n v) i = if i = n then elem v 64 0 else wordAt m i := by
  unfold wordAt tabWord
  by_cases he : i / 2 = n / 2
  · have hset := elem_setFld_run (mget 0 m (n / 2)).toNat 64 (n % 2) 1 v (i % 2)
    rw [he, mget_mset w, elem_toNat_ofNat_of_lt _ (by omega), show (64 : Nat) = 64 * 1 from rfl, hset]
    by_cases hi : i = n
    · rw [if_pos hi, if_pos (by omega), hi, Nat.sub_self]
    · rw [if_neg hi, if_neg (by omega)]
  · rw [mget_mset_ne w he, if_neg (by rintro rfl; exact he rfl)]

theorem tabFlit_wf {m : SMap TabEntry} (w : mwf 0 m = true) : ∀ n, mwf 0 (tabFlit k d n m) = true
  | 0 => w
  | n + 1 => by
    rw [tabFlit_succ]
    exact mwf_mset (tabFlit_wf w n)

theorem elem_elem_zero (v b n : Nat) : elem (elem v b n) b 0 = elem v b n := by
  apply Nat.eq_of_testBit_eq
  intro j
  by_cases hj : j < b <;> simp [testBit_elem, hj]

theorem wordAt_tabFlit {m : SMap TabEntry} (w : mwf 0 m = true) (n i : Nat) : wordAt (tabFlit k d n m) i =
    if 8 * k ≤ i ∧ i < 8 * k + n then elem d.toNat 64 (i - 8 * k) else wordAt m i := by
  induction n with
  | zero =>
    rw [if_neg (by omega)]
    rfl
  | succ n ih =>
    rw [tabFlit_succ, wordAt_tabWord (tabFlit_wf w n), ih, show fld d.toNat (64 * n) 64 = elem d.toNat 64 n from rfl,
      elem_elem_zero]
    by_cases hi : i = 8 * k + n
    · rw [if_pos hi, if_pos (by omega), hi, Nat.add_sub_cancel_left]
    · rw [if_neg hi]
      exact if_congr (by omega) rfl rfl

/-- Numbers of 128 bits with the same two words are equal. -/
theorem eq_of_words {u v : Nat} (hu : u < 2 ^ 128) (hv : v < 2 ^ 128) (h : ∀ i < 2, elem u 64 i = elem v 64 i) : u = v := by
  apply Nat.eq_of_testBit_eq
  intro j
  by_cases hj : j < 128
  · have hbit := congrArg (·.testBit (j % 64)) (h (j / 64) (by omega))
    simpa [testBit_elem, Nat.mod_lt, Nat.div_add_mod] using hbit
  · have hpow : 2 ^ 128 ≤ 2 ^ j := Nat.pow_le_pow_right two_pos (by omega)
    rw [Nat.testBit_lt_two_pow (hu.trans_le hpow), Nat.testBit_lt_two_pow (hv.trans_le hpow)]

theorem elem_elem_word (v n i : Nat) (h : i < 2) : elem (elem v 128 n) 64 i = elem v 64 (2 * n + i) := by
  apply Nat.eq_of_testBit_eq
  intro j
  by_cases hj : j < 64
  · simp only [testBit_elem, hj, show 64 * i + j < 128 by omega, decide_true, Bool.true_and]
    congr 1
    omega
  · simp [testBit_elem, hj]

/-- The four entries that a flit writes, and no other. -/
theorem mget_tabFlit {m : SMap TabEntry} (w : mwf 0 m = true) (e : Nat) : (mget 0 (tabFlit k d 8 m) e).toNat =
    if 4 * k ≤ e ∧ e < 4 * k + 4 then elem d.toNat 128 (e - 4 * k) else (mget 0 m e).toNat := by
  have hword : ∀ i < 2, elem (mget 0 (tabFlit k d 8 m) e).toNat 64 i =
      if 4 * k ≤ e ∧ e < 4 * k + 4 then elem d.toNat 64 (2 * e + i - 8 * k) else elem (mget 0 m e).toNat 64 i := by
    intro i hi
    have hw := wordAt_tabFlit (k := k) (d := d) w 8 (2 * e + i)
    unfold wordAt at hw
    rw [show (2 * e + i) / 2 = e by omega, show (2 * e + i) % 2 = i by omega] at hw
    exact hw.trans (if_congr (by omega) rfl rfl)
  split
  next he =>
    refine eq_of_words (BitVec.isLt _) (fld_lt ..) fun i hi => ?_
    rw [hword i hi, if_pos he, elem_elem_word _ _ _ hi]
    congr 1
    omega
  next he =>
    refine eq_of_words (BitVec.isLt _) (BitVec.isLt _) fun i hi => ?_
    rw [hword i hi, if_neg he]

theorem cfgRsvd_tab {v : Nat} (h : a < 0x14000) : cfgRsvd a v = false := by rw [cfgRsvd, if_pos h]

theorem closeCycle_of_stopped (h : q.tab.st ≠ .running) : closeCycle core q = q := by
  simp [closeCycle, issuing, h]

theorem cfgwWords_one (hp : p.payload = [(d, poison)]) :
    cfgwWords p rest q = cfgFlit (fromSage p) (cfgAddr p) d (inboxLeft rest q) := by
  rw [cfgwWords, hp]
  rfl

theorem exec_cfgw_tab (h : OnGrid s t) (hb : (tileOf s t).fret.inbox = p :: rest) (hk : hKind p.header = 5)
    (hp : p.payload = [(d, poison)]) (hd : p.done = 0) (hst : (tileOf s t).tab.st ≠ .running) (hn : k < 256)
    (ha : cfgAddr p = 0x10000 + 64 * k) : ∃ s', exec (.cfgw t) s = .next s' ∧ tileOf s' t = inboxLeft rest
      (if fromSage p then tileOf s t else withTabMem (tabFlit k d 8 (tileOf s t).tab.mem) (tileOf s t)) := by
  have hok : cfgwOk p (tileOf s t) = true := by
    rw [cfgwOk, ha, hp, hd, cfgAllowed_inside (by omega) hst (cfgRegion_tab hn) (by simp; omega),
      flitsRsvd_one fun j _ => cfgRsvd_tab (by omega)]
    rfl
  have wm : mwf {} (cfgwNoted t p s).tiles = true := by
    rw [cfgwNoted_tiles]
    exact h.maps
  refine ⟨outside t (fun _ => cfgwWords p rest) (cfgwNoted t p s), ?_, ?_⟩
  · rw [exec_cfgw h.tile hb hk, hok, if_neg (by simp), if_neg (by omega)]
  · rw [tileOf_outside wm, show tileOf (cfgwNoted t p s) t = tileOf s t from tileOf_noteWrote ..,
      closeCycle_of_stopped hst, cfgwWords_one hp, ha]
    cases fromSage p
    · rw [cfgFlit_tab hn]
      rfl
    · rw [cfgFlit_sage hn]
      rfl

end Sys2Proof.Machine

open Sys2Proof Sys2Proof.Machine

theorem controlSpaceWrites : ControlSpaceWrites := by
  intro s t p rest d poison ht pre hb hk hp hd a sage ends
  refine ⟨fun k hn hst ha hc => ?scratchpad, fun k hn hst ha wt => ?tab, fun hwrong wc => ?discarded⟩
  case scratchpad =>
    obtain ⟨s', hexec, htile⟩ := exec_cfgw_scratchpad ht hb hk hp hd hst hn ha hc
    refine ⟨s', hexec, ?_⟩
    beta_reduce
    rw [htile]
    exact ⟨⟨rfl, rfl⟩, rfl, rfl, rfl, rfl, rfl, rfl, rfl, rfl⟩
  case tab =>
    obtain ⟨s', hexec, htile⟩ := exec_cfgw_tab ht hb hk hp hd hst hn ha
    refine ⟨s', hexec, ?_⟩
    beta_reduce
    rw [htile]
    by_cases hs : sage
    · rw [if_pos (show fromSage p = true from decide_eq_true hs)]
      exact ⟨⟨rfl, fun _ => rfl, fun hns => absurd hs hns⟩, rfl, rfl, rfl, rfl, rfl, rfl, rfl, rfl⟩
    · rw [if_neg (show ¬ fromSage p = true from fun h => hs (of_decide_eq_true h))]
      exact ⟨⟨rfl, fun h => absurd h hs, fun _ => mget_tabFlit wt⟩, rfl, rfl, rfl, rfl, rfl, rfl, rfl, rfl⟩
  case discarded =>
    have hno : cfgwOk p pre = false := by
      have hall : cfgAllowed (cfgAddr p) (p.payload.length + p.done) pre.tab.st = false := by
        rw [hp, hd]
        rcases hwrong with hrun | hodd | hout
        · simp [cfgAllowed, hrun]
        · simp [cfgAllowed, show cfgAddr p % 8 ≠ 0 from hodd]
        · exact cfgAllowed_outside hout _
      rw [cfgwOk, hall, Bool.false_and]
    obtain ⟨s', hexec, v, htile⟩ := exec_cfgw_discarded ht hb hk hno
    refine ⟨s', hexec, ?_⟩
    beta_reduce
    rw [htile]
    refine ⟨⟨rfl, rfl, ?_⟩, rfl, rfl, rfl, rfl, rfl, rfl, rfl, rfl⟩
    exact mget_mset wc

/-- Settles O35: what a packet at the head of a terminal does, by its kind; a CFGW by the region its flit lies in. -/
theorem requestsAndConfiguration : Obligations.RequestsAndConfiguration := ⟨deliveredRequests, controlSpaceWrites⟩
end

/-! ## Partitions through events and repairs -/

section
namespace Sys2Proof.Machine

variable {s0 s : State} {p k n c : Nat} {f : Partition → Partition}

/-! ### The owner of a die -/

/-- What of a partition says which dies are its own. -/
def bandOf (q : Partition) : Bool × Nat × Nat := (q.set_, q.lo, q.hi)

theorem partOfDie_congr {s' : State} (h : ∀ i, bandOf (getPart s' i) = bandOf (getPart s i)) (n : Nat) :
    partOfDie s' n = partOfDie s n := by
  have hband : ∀ i, (mget {} s'.parts i).set_ = (mget {} s.parts i).set_ ∧
      (mget {} s'.parts i).lo = (mget {} s.parts i).lo ∧ (mget {} s'.parts i).hi = (mget {} s.parts i).hi := fun i => by
    have := h i
    simp only [bandOf, Prod.mk.injEq] at this
    exact this
  unfold partOfDie
  congr 1
  funext i
  obtain ⟨hset, hlo, hhi⟩ := hband i
  simp only [hset, hlo, hhi]

theorem getPart_modPart_same (w : mwf {} s.parts = true) : getPart (modPart s p f) p = f (getPart s p) := mget_mmod w

theorem modPart_wf (w : mwf {} s.parts = true) : mwf {} (modPart s p f).parts = true := mwf_mmod w

theorem bandOf_modPart (w : mwf {} s.parts = true) (hf : ∀ q, bandOf (f q) = bandOf q) (i : Nat) :
    bandOf (getPart (modPart s p f) i) = bandOf (getPart s i) := by
  unfold getPart modPart
  rw [mget_mmod_eq w]
  split
  next h => rw [hf, h]
  next => rfl

/-! ### The current entry of an engine ends -/

theorem endEntry_eq (eng st d0 d1 : Nat) (s : State) :
    ∃ ps a, endEntry p eng st d0 d1 s = { s with parts := ps, asked := a } := by
  unfold endEntry
  split
  · exact ⟨_, _, rfl⟩
  · split <;> exact ⟨_, _, rfl⟩

/-- Nothing of a partition but its engines changes, and no other partition. -/
theorem getPart_endEntry (w : mwf {} s.parts = true) (eng st d0 d1 : Nat) :
    mwf {} (endEntry p eng st d0 d1 s).parts = true ∧
      ∀ i, ∃ g, getPart (endEntry p eng st d0 d1 s) i = { getPart s i with eng := g } := by
  unfold endEntry
  split
  · exact ⟨w, fun i => ⟨_, rfl⟩⟩
  · have hmod : ∀ i, ∃ g, mget {} (modCur p eng (fun c => { c with ended := some (st, d0, d1) }) s).parts i =
        { getPart s i with eng := g } := by
      intro i
      unfold modCur modEngine modPart
      rw [mget_mmod_eq w]
      split
      next h => exact ⟨_, by rw [h]; rfl⟩
      next => exact ⟨_, rfl⟩
    have wm : mwf {} (modCur p eng (fun c => { c with ended := some (st, d0, d1) }) s).parts = true := modPart_wf w
    split <;> exact ⟨wm, hmod⟩

/-! ### The forced path, and the restore that Sage starts (R264, R300) -/

/-- The stream engine's entry on tiles ends as ABORTED. -/
def abortTiles (p : Nat) (s : State) : State :=
  match openEntry s p 1 with
  | some (_, e, c) => if tileEntry e ∧ c.started then endEntry p 1 0x402 (enMoved e c) c.poisoned s else s
  | none => s

theorem abortTiles_eq (s : State) : ∃ ps a, abortTiles p s = { s with parts := ps, asked := a } := by
  unfold abortTiles
  split
  · split
    · exact endEntry_eq ..
    · exact ⟨_, _, rfl⟩
  · exact ⟨_, _, rfl⟩

theorem getPart_abortTiles (w : mwf {} s.parts = true) : mwf {} (abortTiles p s).parts = true ∧
    ∃ g, getPart (abortTiles p s) p = { getPart s p with eng := g } := by
  unfold abortTiles
  split
  · split
    · exact (getPart_endEntry w ..).imp_right fun h => h p
    · exact ⟨w, _, rfl⟩
  · exact ⟨w, _, rfl⟩

theorem forcePath_abortTiles (m : SwitchKind) (s : State) : forcePath p m s = modPart (abortTiles p (startWave s p)) p
    fun q => { q with suspended := true, st := .halted, bunits := 0, sw := some { kind := m, phase := .inflight } } := rfl

theorem forcePath_eq (m : SwitchKind) (s : State) : ∃ ps a, forcePath p m s = { s with parts := ps, asked := a } := by
  obtain ⟨ps, a, h⟩ := abortTiles_eq (p := p) (startWave s p)
  exact ⟨_, a, by rw [forcePath_abortTiles, h]; rfl⟩

/-- A partition that the forced path of a switch halts. -/
def forcedPart (m : SwitchKind) (now : Nat) (g : SMap EngineQ) (q : Partition) : Partition :=
  { q with eng := g, wave := some now, suspended := true, st := .halted, bunits := 0
           sw := some { kind := m, phase := .inflight } }

theorem getPart_forcePath (m : SwitchKind) (w : mwf {} s.parts = true) :
    ∃ g, getPart (forcePath p m s) p = forcedPart m s.cycle g (getPart s p) := by
  obtain ⟨wa, g, h⟩ := getPart_abortTiles (p := p) (s := startWave s p) (modPart_wf w)
  rw [startWave, getPart_modPart_same w] at h
  exact ⟨g, by rw [forcePath_abortTiles, getPart_modPart_same wa, startWave, h]; rfl⟩

/-- A partition that waits for a restore, which the lifetime counters note. -/
def restoreCalled (p : Nat) (s : State) : State :=
  lifeBump lifeRestores 1 (modPart s p fun q => { q with behind := leftOver q, autoPending := true })

theorem autoRestore_eq (s : State) : ∃ ps a l, autoRestore p s =
    { s with parts := ps, asked := a, sage := { s.sage with life := l } } := by
  obtain ⟨ps, a, h⟩ := forcePath_eq (p := p) (.restore true) (restoreCalled p s)
  exact ⟨ps, a, _, h⟩

theorem getPart_autoRestore (w : mwf {} s.parts = true) : ∃ g, getPart (autoRestore p s) p =
    forcedPart (.restore true) s.cycle g { getPart s p with behind := leftOver (getPart s p), autoPending := true } := by
  have wc : mwf {} (restoreCalled p s).parts = true := by
    rw [restoreCalled, lifeBump_parts]
    exact modPart_wf w
  have hpart : getPart (restoreCalled p s) p =
      { getPart s p with behind := leftOver (getPart s p), autoPending := true } := by
    rw [restoreCalled, getPart, lifeBump_parts, modPart_parts, mget_mmod w]
    rfl
  obtain ⟨g, h⟩ := getPart_forcePath (p := p) (.restore true) wc
  exact ⟨g, h.trans (by rw [hpart]; rfl)⟩

/-! ### A deadlocked section (R181, R182) -/

theorem exec_sectionDeadlock {p : Fin 4} (hst : (getPart s p.val).st = .running)
    (hrun : (getPart s p.val).run = (getPart s p.val).dlNow) : exec (.sectionDeadlock p) s = .next (modPart
      (startWave (sageEvent s .sectionDeadlock 0 0 (some p.val)) p.val) p.val fun q =>
        { q with run := q.run + 1, stallMap := [], mapping := true }) := by
  show execSectionDeadlock p s = _
  unfold execSectionDeadlock
  exact if_pos ⟨hst, hrun⟩

/-! ### A faulty tile (R306, R307, R309) -/

theorem joinRepair_tiles (now n c a dead : Nat) (r : Option Repair) : (joinRepair now n c a dead r).tiles =
    if (n, c, a) ∈ (r.map (·.tiles)).getD [] then (r.map (·.tiles)).getD []
    else (r.map (·.tiles)).getD [] ++ [(n, c, a)] := by
  simp only [joinRepair, List.contains_iff_mem]

theorem mem_joinRepair (now n c a dead : Nat) (r : Option Repair) : (n, c, a) ∈ (joinRepair now n c a dead r).tiles := by
  rw [joinRepair_tiles]
  split
  next h => exact h
  next => simp

theorem mem_joinRepair_of_mem {now n c a dead : Nat} {r : Repair} {x : Nat × Nat × Nat} (h : x ∈ r.tiles) :
    x ∈ (joinRepair now n c a dead (some r)).tiles := by
  rw [joinRepair_tiles]
  split
  next => exact h
  next => exact List.mem_append_left _ h

/-- A tile that is suspect no more, and whose missed reductions count anew, before its repair starts. -/
def cleared (t : TileId) (p : Nat) (s : State) : State :=
  let pl := physPlace s t.x t.y
  modTile (modPart s p (clearSuspect t.x t.y (physNum pl.1 pl.2.1 pl.2.2))) t.x t.y fun tl => { tl with missed := 0 }

theorem getTile_cleared {t : TileId} (w : mwf {} s.tiles = true) :
    getTile (cleared t p s) t.x t.y = { getTile s t.x t.y with missed := 0 } := by
  rw [cleared, getTile_modTile _ _ _ (by rw [modPart_tiles]; exact w), getTile_modPart]

theorem physPlace_cleared {t : TileId} (w : mwf {} s.tiles = true) :
    physPlace (cleared t p s) t.x t.y = physPlace s t.x t.y := by
  unfold physPlace
  rw [getTile_cleared w]
  rfl

theorem partOfTile_cleared {t : TileId} (w : mwf {} s.parts = true) (x : Nat) :
    partOfTile (cleared t p s) x = partOfTile s x :=
  partOfDie_congr (bandOf_modPart (f := clearSuspect t.x t.y _) w fun _ => rfl) _

/-- The TILE_FAULT event of a tile. -/
def faultRaised (t : TileId) (trig p : Nat) (s : State) : State :=
  sageEvent s .tileFault 0 (packFields [(trig, 4), ((getTile s t.x t.y).lastAnswer.getD 0, 60)]) (some p) none (some (t.x, t.y))

/-- A partition whose repair starts with a tile, or is joined by it. -/
def repairJoined (s : State) (x : Nat × Nat × Nat) (q : Partition) : Partition :=
  { q with repair := some (joinRepair s.cycle x.1 x.2.1 x.2.2 (deadCount s x.1 x.2.1) q.repair) }

theorem exec_tileFault {t : TileId} {trig : Fin 5} (ht : OnGrid s t) (w : mwf {} s.parts = true)
    (hp : partOfTile s t.x = some p) (hf : faultOccasion s t.x t.y trig.val = true) : exec (.tileFault t trig) s = .next
      (modPart (faultRaised t trig.val p (cleared t p s)) p (repairJoined (cleared t p s) (physPlace s t.x t.y))) := by
  have hstart : exec (.tileFault t trig) s = .next (faultTile t.x t.y trig.val (cleared t p s)) := by
    show execTileFault t trig s = _
    unfold execTileFault onTile
    rw [if_pos ht.tile]
    beta_reduce
    rw [if_pos hf]
    simp only [hp]
    rfl
  rw [hstart]
  unfold faultTile
  rw [physPlace_cleared ht.maps]
  simp only [partOfTile_cleared w, hp]
  rfl

theorem repair_tileFault (t : TileId) (trig : Nat) (w : mwf {} s.parts = true) (x : Nat × Nat × Nat) :
    (getPart (modPart (faultRaised t trig p (cleared t p s)) p (repairJoined (cleared t p s) x)) p).repair =
      some (joinRepair s.cycle x.1 x.2.1 x.2.2 (deadCount (cleared t p s) x.1 x.2.1) (getPart s p).repair) := by
  have hpart : getPart (faultRaised t trig p (cleared t p s)) p = clearSuspect t.x t.y _ (getPart s p) :=
    getPart_modPart_same w
  rw [getPart_modPart_same (by exact modPart_wf w), hpart]
  rfl

/-! ### History (R307, R320) -/

theorem mem_dropSummaries {h : HistItem} (hs : ∀ m, h ≠ .summary m) :
    ∀ {l : List HistItem} (n : Nat), h ∈ l → h ∈ dropSummaries n l
  | a :: l, n, hmem => by
    unfold dropSummaries
    split
    next m =>
      split
      · exact hmem
      · exact mem_dropSummaries hs _ ((List.mem_cons.mp hmem).resolve_left (hs m))
    next => exact List.mem_cons.mpr ((List.mem_cons.mp hmem).imp_right fun hin => mem_dropSummaries hs n hin)

/-- Items that enter history leave the partitions, the map and the tiles as they are. -/
theorem foldl_addHistory_rest : ∀ (l : List HistItem) (s : State),
    let u := l.foldl (fun s h => addHistory h s) s
    u.parts = s.parts ∧ u.defects = s.defects ∧ u.tiles = s.tiles
  | [], _ => ⟨rfl, rfl, rfl⟩
  | a :: l, s => foldl_addHistory_rest l (addHistory a s)

theorem mem_foldl_addHistory {h : HistItem} (hs : ∀ m, h ≠ .summary m) : ∀ (l : List HistItem) (s : State),
    h ∈ s.sage.history ∨ h ∈ l → h ∈ (l.foldl (fun s h => addHistory h s) s).sage.history
  | [], _, hmem => hmem.resolve_right (List.not_mem_nil)
  | a :: l, s, hmem => by
    refine mem_foldl_addHistory hs l (addHistory a s) ?_
    rw [List.mem_cons, ← or_assoc] at hmem
    refine hmem.imp_left fun hin => mem_dropSummaries hs _ ?_
    rw [List.mem_append, List.mem_singleton]
    exact hin

/-- What REPAIR_HISTORY_WRITTEN puts into history: the fault records that it does not hold yet, then the tiles. -/
def repairItems (s : State) (p : Nat) (r : Repair) : List HistItem :=
  (newFaultRecords s p).map .record ++ r.tiles.map fun x => .repair x.1 x.2.1 x.2.2

theorem exec_repairHistoryWritten {p : Fin 4} {r : Repair} (hr : (getPart s p.val).repair = some r) (hstep : r.step = .halted) :
    exec (.repairHistoryWritten p) s = .next (modPart ((repairItems s p.val r).foldl (fun s h => addHistory h s) s) p.val
      fun q => { q with repair := some { r with step := .history } }) := by
  show execRepairHistoryWritten p s = _
  unfold execRepairHistoryWritten repairItems
  rw [hr, List.foldl_append, List.foldl_map, List.foldl_map]
  exact if_pos hstep

/-! ### The defect map (R304, R305, R309, R310) -/

/-- The parts of a state that a revision of the defect map leaves as they are. -/
structure MapOnly (s0 s : State) : Prop where
  parts : s.parts = s0.parts
  tiles : s.tiles = s0.tiles
  cycle : s.cycle = s0.cycle
  ports : s.ports = s0.ports
  afterDetach : s.afterDetach = s0.afterDetach
  suspectAt : s.sage.suspectAt = s0.sage.suspectAt

/-- A field record of a unit that the map does not name joins it. -/
theorem fieldDefect_new {d : DefectRec} (h : d ∉ s.defects) :
    (fieldDefect d s).defects = s.defects ++ [d] ∧ MapOnly s (fieldDefect d s) := by
  unfold fieldDefect addDefect setDefects
  rw [if_neg (by simpa using h), if_neg (by simp)]
  exact ⟨rfl, rfl, rfl, rfl, rfl, rfl, rfl⟩

theorem fieldDefect_spec (d : DefectRec) (s : State) : d ∈ (fieldDefect d s).defects ∧ MapOnly s (fieldDefect d s) := by
  by_cases h : d ∈ s.defects
  · unfold fieldDefect addDefect
    rw [if_pos (by simpa using h)]
    exact ⟨h, rfl, rfl, rfl, rfl, rfl, rfl⟩
  · obtain ⟨hd, hrest⟩ := fieldDefect_new h
    exact ⟨by simp [hd], hrest⟩

theorem retireColumn_eq (h : ({ kind := 3, die := n, c := c } : DefectRec) ∉ s.defects) :
    ∃ code part, retireColumn n c s = markDead (sageEvent (lifeBump lifeRetirements 1
      (fieldDefect { kind := 3, die := n, c := c } (addHistory (.retirement n c) s))) code (c % 256) 0 part (some n)) :=
  ⟨_, _, if_neg (by simpa using h)⟩

theorem retireColumn_new (h : ({ kind := 3, die := n, c := c } : DefectRec) ∉ s.defects) :
    (retireColumn n c s).defects = s.defects ++ [{ kind := 3, die := n, c := c }] ∧ MapOnly s (retireColumn n c s) := by
  obtain ⟨code, part, heq⟩ := retireColumn_eq h
  obtain ⟨hd, hparts, htiles, hcycle, hports, hafter, hsus⟩ := fieldDefect_new (s := addHistory (.retirement n c) s) h
  rw [heq]
  generalize fieldDefect { kind := 3, die := n, c := c } (addHistory (.retirement n c) s) = u
    at hd hparts htiles hcycle hports hafter hsus ⊢
  exact ⟨hd, hparts, htiles, hcycle, hports, hafter, hsus⟩

/-- The record that a dead tile leaves: its own while its column has a spare left, else the column's. -/
def deadRecord (s : State) (x : Nat × Nat × Nat) : DefectRec :=
  if deadCount s x.1 x.2.1 < 2 then { kind := 1, die := x.1, c := x.2.1, p := x.2.2 } else { kind := 3, die := x.1, c := x.2.1 }

theorem recordDead_new {x : Nat × Nat × Nat} (h : deadRecord s x ∉ s.defects) :
    (recordDead s x).defects = s.defects ++ [deadRecord s x] ∧ MapOnly s (recordDead s x) := by
  obtain ⟨n, c, a⟩ := x
  unfold deadRecord at h ⊢
  by_cases hd : deadCount s n c < 2
  · rw [if_pos hd] at h ⊢
    rw [show recordDead s (n, c, a) = _ from if_pos hd]
    exact fieldDefect_new h
  · rw [if_neg hd] at h ⊢
    rw [show recordDead s (n, c, a) = _ from if_neg hd]
    exact retireColumn_new h

/-- The map that Sage holds after a revision, in both its copies, in which nothing but the map has changed. -/
structure Remapped (s0 s : State) (ds : List DefectRec) : Prop where
  defects : s.defects = ds
  revision : s.sage.dmrev = s0.sage.dmrev + 1
  copyA : s.sage.mapA.dmrev = s0.sage.dmrev + 1
  copyB : s.sage.mapB = s.sage.mapA
  tiles : s.tiles = s0.tiles
  cycle : s.cycle = s0.cycle

/-- What keeps the map, the tiles and the clock keeps a revision. -/
theorem Remapped.of_eq {s' : State} {ds : List DefectRec} (h : Remapped s0 s ds) (hd : s'.defects = s.defects)
    (hr : s'.sage.dmrev = s.sage.dmrev) (ha : s'.sage.mapA = s.sage.mapA) (hb : s'.sage.mapB = s.sage.mapB)
    (ht : s'.tiles = s.tiles) (hc : s'.cycle = s.cycle) : Remapped s0 s' ds :=
  ⟨hd.trans h.defects, hr.trans h.revision, ha ▸ h.copyA, by rw [ha, hb, h.copyB], ht.trans h.tiles, hc.trans h.cycle⟩

theorem rejoinColumns_none {l : List (Nat × Nat × Nat)} (h : s.sage.returned = []) : rejoinColumns l s = s := by
  simp [rejoinColumns, h]

theorem suspectRecs_congr {s' : State} (h : MapOnly s s') (p : Nat) : suspectRecs s' p = suspectRecs s p := by
  unfold suspectRecs getPart
  rw [h.parts, h.suspectAt, h.cycle]

/-- The revision for a single dead tile, when no column returns and no tile was suspect three times. -/
theorem remap_one {x : Nat × Nat × Nat} (hret : s.sage.returned = []) (hsus : suspectRecs s p = [])
    (hnew : deadRecord s x ∉ s.defects) : Remapped s (remap p [x] s) (s.defects ++ [deadRecord s x]) ∧
      (remap p [x] s).parts = s.parts := by
  obtain ⟨hd, hrest⟩ := recordDead_new hnew
  have hremap : remap p [x] s = storeMap (markDead { recordDead s x with
      sage := { (recordDead s x).sage with dmrev := s.sage.dmrev + 1 } }) := by
    unfold remap
    rw [rejoinColumns_none hret, List.foldl_cons, List.foldl_nil]
    simp only [suspectRecs_congr hrest, hsus, List.foldl_nil]
  rw [hremap]
  exact ⟨⟨hd, rfl, rfl, rfl, hrest.tiles, hrest.cycle⟩, hrest.parts⟩

/-! ### REMAP_COMMITTED (R307-R310) -/

/-- A partition whose column has retired: its repair is over, and nothing starts it again. -/
def retired (q : Partition) : Partition := { dropPending q with repair := none, st := .faulted }

/-- A partition with other repair. -/
def withRepair (r : Option Repair) (q : Partition) : Partition := { q with repair := r }

/-- What follows a revision: the column's retirement, the restore that waits, or the end of the repair. -/
def afterRemap (p : Nat) (r : Repair) (auto : Bool) (s : State) : State :=
  if r.retire then modPart s p retired
  else if auto then restoreWhenReady p (modPart s p (withRepair (some { r with step := .committed })))
  else lifeBump lifeRepairs 1 (modPart s p (withRepair none))

theorem exec_remapCommitted {p : Fin 4} {r : Repair} (hr : (getPart s p.val).repair = some r) (hstep : r.step = .history)
    (hparts : (remap p.val r.tiles s).parts = s.parts) : exec (.remapCommitted p) s =
      .next (afterRemap p.val r (getPart s p.val).autoPending (remap p.val r.tiles s)) := by
  have hpart : getPart (remap p.val r.tiles s) p.val = getPart s p.val := by rw [getPart, hparts, getPart]
  show execRemapCommitted p s = _
  unfold execRemapCommitted afterRemap
  simp only [hr, if_pos hstep, hpart]
  by_cases hret : r.retire = true
  · rw [if_pos hret, if_pos hret]
    rfl
  · rw [if_neg hret, if_neg hret]
    by_cases hauto : (getPart s p.val).autoPending = true
    · rw [if_pos hauto, if_pos hauto]
      rfl
    · rw [if_neg hauto, if_neg hauto]
      rfl

theorem restoreWhenReady_eq (s : State) : ∃ ps a l, restoreWhenReady p s =
    { s with parts := ps, asked := a, sage := { s.sage with life := l } } := by
  have hor : restoreWhenReady p s = autoRestore p s ∨ restoreWhenReady p s = s := ite_eq_or_eq ..
  rcases hor with h | h <;> rw [h]
  · exact autoRestore_eq s
  · exact ⟨_, _, _, rfl⟩

/-- Whatever follows a revision leaves the map as it is. -/
theorem Remapped.afterRemap {ds : List DefectRec} (h : Remapped s0 s ds) (p : Nat) (r : Repair) (auto : Bool) :
    Remapped s0 (afterRemap p r auto s) ds := by
  unfold Machine.afterRemap
  split
  · exact h.of_eq rfl rfl rfl rfl rfl rfl
  · split
    · obtain ⟨ps, a, l, heq⟩ := restoreWhenReady_eq (p := p) (modPart s p (withRepair (some { r with step := .committed })))
      rw [heq]
      exact h.of_eq rfl rfl rfl rfl rfl rfl
    · exact h.of_eq rfl rfl rfl rfl rfl rfl

theorem afterRemap_retire {r : Repair} (hret : r.retire = true) (auto : Bool) :
    afterRemap p r auto s = modPart s p retired := if_pos hret

theorem afterRemap_restore {r : Repair} (hret : r.retire = false) : afterRemap p r true s =
    restoreWhenReady p (modPart s p (withRepair (some { r with step := .committed }))) := by
  rw [afterRemap, hret]
  rfl

theorem afterRemap_ends {r : Repair} (hret : r.retire = false) : afterRemap p r false s =
    lifeBump lifeRepairs 1 (modPart s p (withRepair none)) := by
  rw [afterRemap, hret]
  rfl

theorem restoreWhenReady_ready (hauto : (getPart s p).autoPending = true) (hsw : (getPart s p).sw = none)
    (hwait : mustWait (getPart s p) = false) : restoreWhenReady p s = autoRestore p s :=
  if_pos ⟨hauto, hsw, by rw [hwait]; rfl⟩

/-- The restore of a partition starts whose map is committed, when no test is left to wait for. -/
theorem getPart_restoreWhenReady {r : Repair} (w : mwf {} s.parts = true) (hauto : (getPart s p).autoPending = true)
    (hsw : (getPart s p).sw = none) (hsus : (getPart s p).suspects = []) (hlinks : (getPart s p).links = []) :
    let q := getPart (restoreWhenReady p (modPart s p (withRepair (some { r with step := .committed })))) p
    q.repair = some { r with step := .committed } ∧ q.st = .halted ∧ q.sw = some ⟨.restore true, .inflight⟩ ∧
      q.wave = some s.cycle := by
  have hpart : getPart (modPart s p (withRepair (some { r with step := .committed }))) p =
      withRepair (some { r with step := .committed }) (getPart s p) := getPart_modPart_same w
  have wm : mwf {} (modPart s p (withRepair (some { r with step := .committed }))).parts = true := modPart_wf w
  obtain ⟨g, hg⟩ := getPart_autoRestore (p := p) wm
  rw [restoreWhenReady_ready (by rw [hpart]; exact hauto) (by rw [hpart]; exact hsw)
    (by rw [hpart]; simp [mustWait, withRepair, hsus, hlinks]), hg, hpart]
  exact ⟨rfl, rfl, rfl, rfl⟩

end Sys2Proof.Machine
end

/-! ## A stack that fails (R294, R297, R312) -/

section
namespace Sys2Proof.Machine

variable {s0 s : State} {p n : Nat} {e : Ev} {pl : Place} {f : Partition → Partition}

/-- A value that is not the default reads back at its key, and every other key as before, in any map. -/
theorem mget_mset_of_ne {α : Type} [DecidableEq α] {d v : α} (hv : v ≠ d) (m : SMap α) (k j : Nat) :
    mget d (mset d m k v) j = if j = k then v else mget d m j := by
  induction m with
  | nil => simp [mset, hv, mget]
  | cons a m ih =>
    obtain ⟨i, b⟩ := a
    rw [mset]
    split
    next hki =>
      rw [mget, mget]
      by_cases hj : j = k
      · rw [if_pos hj, if_pos hj]
      · rw [if_neg hj, if_neg hj]
        split
        next hlt => rw [if_neg (by omega), if_pos (by omega)]
        next => rfl
    next hki =>
      split
      next heq =>
        rw [mget, mget, ← heq]
        split <;> rfl
      next hne =>
        rw [mget, ih, mget]
        split
        next hj => rw [if_neg (by omega)]
        next => split <;> [rw [if_neg (by omega)]; rfl]

/-- What the record of a spine's event leaves as it is: tiles, the clock, the bands of the partitions, and whether a DETACH is
under way. -/
structure Undisturbed (s0 s : State) : Prop where
  wf : mwf {} s.parts = true
  band : ∀ i, bandOf (getPart s i) = bandOf (getPart s0 i)
  tiles : s.tiles = s0.tiles
  cycle : s.cycle = s0.cycle
  detach : ∀ o, (getPort s o).detach = (getPort s0 o).detach
  afterDetach : s.afterDetach = s0.afterDetach

namespace Undisturbed

theorem refl (w : mwf {} s.parts = true) : Undisturbed s s := ⟨w, fun _ => rfl, rfl, rfl, fun _ => rfl, rfl⟩

theorem of_eq {s' : State} (h : Undisturbed s0 s) (hparts : s'.parts = s.parts) (hports : s'.ports = s.ports)
    (htiles : s'.tiles = s.tiles) (hcycle : s'.cycle = s.cycle) (hafter : s'.afterDetach = s.afterDetach) :
    Undisturbed s0 s' where
  wf := hparts ▸ h.wf
  band i := by rw [getPart, hparts]; exact h.band i
  tiles := htiles.trans h.tiles
  cycle := hcycle.trans h.cycle
  detach o := by rw [getPort, hports]; exact h.detach o
  afterDetach := hafter.trans h.afterDetach

theorem mapOnly {s' : State} (h : Undisturbed s0 s) (hm : MapOnly s s') : Undisturbed s0 s' :=
  h.of_eq hm.parts hm.ports hm.tiles hm.cycle hm.afterDetach

theorem modPart (h : Undisturbed s0 s) (hf : ∀ q, bandOf (f q) = bandOf q) : Undisturbed s0 (modPart s p f) where
  wf := modPart_wf h.wf
  band i := (bandOf_modPart h.wf hf i).trans (h.band i)
  tiles := h.tiles
  cycle := h.cycle
  detach := h.detach
  afterDetach := h.afterDetach

theorem portLearns (h : Undisturbed s0 s) (o k : Nat) : Undisturbed s0 (portLearns o k s) where
  wf := h.wf
  band := h.band
  tiles := h.tiles
  cycle := h.cycle
  detach i := by
    refine Eq.trans ?_ (h.detach i)
    unfold Machine.portLearns getPort modPort mmod
    rw [mget_mset_of_ne (fun heq => Bool.noConfusion (congrArg Port.evNew heq : true = false))]
    split
    next hi => rw [hi]
    next => rfl
  afterDetach := h.afterDetach

theorem foldl {α : Type} {g : State → α → State} (hg : ∀ s a, Undisturbed s0 s → Undisturbed s0 (g s a)) :
    ∀ (l : List α) {s : State}, Undisturbed s0 s → Undisturbed s0 (l.foldl g s)
  | [], _, h => h
  | a :: l, _, h => foldl hg l (hg _ a h)

theorem ite {c : Prop} [Decidable c] {a b : State} (ha : Undisturbed s0 a) (hb : Undisturbed s0 b) :
    Undisturbed s0 (if c then a else b) := by
  split <;> assumption

/-! ### Sage files a record -/

theorem addHistory (h : Undisturbed s0 s) (x : HistItem) : Undisturbed s0 (addHistory x s) := h.of_eq rfl rfl rfl rfl rfl

theorem ringStore (h : Undisturbed s0 s) (r : BitVec 256) : Undisturbed s0 (ringStore p r s) := by
  have hput : ∀ q, bandOf (ringPut r q) = bandOf q := fun q => by
    unfold ringPut
    dsimp only
    split <;> rfl
  exact (h.modPart (p := p) hput).of_eq rfl rfl rfl rfl rfl

theorem syslogSend (h : Undisturbed s0 s) (m : SyslogMsg) : Undisturbed s0 (syslogSend m s) :=
  ite (h.of_eq rfl rfl rfl rfl rfl) (h.of_eq rfl rfl rfl rfl rfl)

theorem tellOperator (h : Undisturbed s0 s) (r : BitVec 256) : Undisturbed s0 (tellOperator pl e r s) :=
  have hsent : Undisturbed s0 (mgmtSend (.event ("DreliaEvents.1.0." ++ evName e.code) r) s) := h.of_eq rfl rfl rfl rfl rfl
  ite (hsent.of_eq rfl rfl rfl rfl rfl) (hsent.syslogSend _)

theorem noteLifetime (h : Undisturbed s0 s) : Undisturbed s0 (noteLifetime pl e s) := by
  have hstop : ∀ k, Undisturbed s0 (if s.sage.lastStop.isSome then lifeBump k 1 s else s) := fun k =>
    ite (h.of_eq rfl rfl rfl rfl rfl) h
  have hjob : ∀ (c : Prop) [Decidable c] (k : Nat), Undisturbed s0 (if c then
      let u := if s.sage.lastStop.isSome then lifeBump k 1 s else s
      { u with sage := { u.sage with lastStop := some u.cycle } } else s) := fun c _ k =>
    ite ((hstop k).of_eq rfl rfl rfl rfl rfl) h
  exact ite ((hjob _ _).of_eq rfl rfl rfl rfl rfl) (hjob _ _)

theorem fileRecord (h : Undisturbed s0 s) (r : BitVec 256) : Undisturbed s0 (fileRecord pl e r s) := by
  unfold Machine.fileRecord
  extract_lets seq g s1 s2 s3 fatal s4 s5 k g5 s6
  have h3 : Undisturbed s0 s3 :=
    noteLifetime ((tellOperator (h.of_eq (s' := s1) rfl rfl rfl rfl rfl) r).of_eq rfl rfl rfl rfl rfl)
  have h4 : Undisturbed s0 s4 := foldl (fun _ _ hs => ite (hs.ringStore r) hs) _ h3
  have h5 : Undisturbed s0 s5 := foldl (fun _ _ hs => ite (hs.portLearns ..) hs) _ h4
  have h6 : Undisturbed s0 s6 := h5.addHistory _
  split
  · exact h5.of_eq rfl rfl rfl rfl rfl
  · exact h5.of_eq rfl rfl rfl rfl rfl
  · exact ite h6 (h6.addHistory _)

end Undisturbed

/-! ### The response (R294, R312) -/

namespace Undisturbed

theorem endEntry (h : Undisturbed s0 s) (eng st d0 d1 : Nat) : Undisturbed s0 (endEntry p eng st d0 d1 s) := by
  obtain ⟨wf, hpart⟩ := getPart_endEntry (p := p) h.wf eng st d0 d1
  obtain ⟨ps, a, heq⟩ := endEntry_eq (p := p) eng st d0 d1 s
  refine ⟨wf, fun i => ?_, by rw [heq]; exact h.tiles, by rw [heq]; exact h.cycle, by rw [heq]; exact h.detach,
    by rw [heq]; exact h.afterDetach⟩
  obtain ⟨g, hg⟩ := hpart i
  rw [hg]
  exact h.band i

theorem haltPart (h : Undisturbed s0 s) (p : Nat) (e : Ev) : Undisturbed s0 (haltPart p e s) := by
  have hwave : Undisturbed s0 (startWave s p) := h.modPart fun _ => rfl
  have hend : Undisturbed s0 (endStarted p (evNum e.code) 0 0 (startWave s p)) := ite (hwave.endEntry ..) hwave
  exact hend.modPart fun _ => rfl

/-- The event of a spine by which a stack fails halts the partition of its die. -/
theorem uncorrected (h : Undisturbed s0 s) (hcode : e.code = .stackFail) (p : Nat) (pl : Place) :
    Undisturbed s0 (uncorrected p pl e s) := by
  have heq : Machine.uncorrected p pl e s = Machine.haltPart p e s := by
    unfold Machine.uncorrected
    rw [hcode]
  rw [heq]
  exact h.haltPart p e

end Undisturbed

theorem refuseEntry_of_no_tile (h : pl.tile = none) : refuseEntry p pl e s = s := by
  unfold refuseEntry
  split
  · rw [if_neg (by simp [h])]
  · rfl

theorem suspicion_of_no_tile (h : pl.tile = none) : suspicion pl e s = s := by
  unfold suspicion
  rw [h]
  cases pl.part <;> rfl

/-- What the partition of a failed stack's die takes of the record, before the stack is lost. -/
def ownerHalts (pl : Place) (e : Ev) (s : State) : State :=
  match pl.part with
  | some p => if (getPart s p).set_ then uncorrected p pl e s else s
  | none => s

theorem respond_stackFail (r : BitVec 256) (ht : pl.tile = none) (hcode : e.code = .stackFail) (hcls : e.cls = .uncorrected) :
    respond pl e r s = stackLost pl e.sub (ownerHalts pl e s) := by
  unfold respond ownerHalts
  cases pl.part with
  | none => simp only [suspicion_of_no_tile ht, hcls, hcode, if_true]
  | some p => simp only [suspicion_of_no_tile ht, refuseEntry_of_no_tile ht, hcls, hcode, if_true]

theorem Undisturbed.ownerHalts (h : Undisturbed s0 s) (hcode : e.code = .stackFail) : Undisturbed s0 (ownerHalts pl e s) := by
  unfold Machine.ownerHalts
  split
  · exact ite (h.uncorrected hcode _ _) h
  · exact h

/-- A die column that goes out of service: it stays out, its partition is FAULTED, and the map does not change. -/
theorem columnOut_spec (h : Undisturbed s0 s) (n : Nat) : Undisturbed s0 (columnOut n s) ∧
    n / 6 ∈ (columnOut n s).boot.dead ∧ (columnOut n s).defects = s.defects ∧
    ∀ p, partOfDie s n = some p → (getPart (columnOut n s) p).st = .faulted ∧ (getPart (columnOut n s) p).sw = none := by
  unfold columnOut
  extract_lets dead boot u
  have hdead : n / 6 ∈ dead := by
    unfold dead
    split
    next hin => exact List.contains_iff_mem.mp hin
    next => simp
  have hu : Undisturbed s0 u := h.of_eq rfl rfl rfl rfl rfl
  have howner : partOfDie u n = partOfDie s n := partOfDie_congr (fun _ => rfl) n
  rw [howner]
  split
  next p hp =>
    have hwave : Undisturbed s0 (startWave u p) := hu.modPart fun _ => rfl
    refine ⟨hwave.modPart fun _ => rfl, hdead, rfl, fun k hk => ?_⟩
    obtain rfl : p = k := Option.some.inj (hp.symm.trans hk)
    rw [getPart_modPart_same hwave.wf]
    exact ⟨rfl, rfl⟩
  next hp => exact ⟨hu, hdead, rfl, fun k hk => absurd (hp.symm.trans hk) (by simp)⟩

/-! ### No DETACH goes on -/

theorem detachSweep_of_none {o : Nat} (h : (getPort s o).detach = none) : detachSweep o s = s := by
  unfold detachSweep
  rw [h]

theorem detachEnd_of_none {o : Nat} (h : (getPort s o).detach = none) : detachEnd o s = s := by
  unfold detachEnd
  rw [h]

theorem detachAll_of_noDetach (h : NoDetach s) : detachAll s = s := by
  obtain ⟨hafter, hports⟩ := h
  have hsweep : ∀ l : List Nat, (∀ o ∈ l, o < 4) → l.foldl (fun s o => detachEnd o (detachSweep o s)) s = s := by
    intro l hl
    induction l with
    | nil => rfl
    | cons o l ih =>
      have ho := hports o (hl o (by simp))
      rw [List.foldl_cons, detachSweep_of_none ho, detachEnd_of_none ho]
      exact ih fun i hi => hl i (by simp [hi])
  unfold detachAll
  rw [hsweep _ fun o ho => List.mem_range.mp ho]
  simp only [hafter]

theorem Undisturbed.noDetach (h : Undisturbed s0 s) (hno : NoDetach s0) : NoDetach s :=
  ⟨h.afterDetach.trans hno.1, fun o ho => (h.detach o).trans (hno.2 o ho)⟩

/-! ### The record of a stack's failure -/

/-- The place that a spine's event names. -/
def spinePlace (d : Fin 48) (s : State) : Place := { part := partOfDie s d.val, die := some d.val }

/-- A state whose spine holds the events after its oldest. -/
def spineTaken (d : Fin 48) (rest : List Ev) (s : State) : State :=
  modSpine s d.val fun sp => { sp with ev := { sp.ev with q := rest } }

/-- The record of a spine's event as Sage has filed it. -/
def spineFiled (d : Fin 48) (e : Ev) (rest : List Ev) (s : State) : State :=
  fileRecord (spinePlace d s) e (packRecord (spinePlace d s) e s.sage.nextSeq.toNat) (spineTaken d rest s)

theorem spineFiled_undisturbed (w : mwf {} s.parts = true) (d : Fin 48) (rest : List Ev) :
    Undisturbed s (spineFiled d e rest s) := by
  have htaken : Undisturbed s (spineTaken d rest s) := (Undisturbed.refl w).of_eq rfl rfl rfl rfl rfl
  exact htaken.fileRecord _

theorem exec_eventRecord_stackFail {d : Fin 48} {rest : List Ev} (hq : (getSpine s d.val).ev.q = e :: rest)
    (hcode : e.code = .stackFail) (hcls : e.cls = .uncorrected) : exec (.eventRecord (.spine d)) s = .next
      (detachAll (columnOut d.val (fieldDefect { kind := 5, die := d.val, stack := e.sub }
        (ownerHalts (spinePlace d s) e (spineFiled d e rest s))))) := by
  have hexec : exec (.eventRecord (.spine d)) s = .next (detachAll (respond (spinePlace d s) e
      (packRecord (spinePlace d s) e s.sage.nextSeq.toNat) (spineFiled d e rest s))) := by
    show execEventRecord (.spine d) s = _
    unfold execEventRecord takeEvent
    simp only [hq]
    rfl
  rw [hexec, respond_stackFail _ rfl hcode hcls]
  rfl

/-- Once history holds the record, the map names the stack and its die column is out of service. -/
theorem eventRecord_stackFail {d : Fin 48} {rest : List Ev} (w : mwf {} s.parts = true) (hno : NoDetach s)
    (hq : (getSpine s d.val).ev.q = e :: rest) (hcode : e.code = .stackFail) (hcls : e.cls = .uncorrected) :
    ∃ s', exec (.eventRecord (.spine d)) s = .next s' ∧ d.val / 6 ∈ s'.boot.dead ∧
      ({ kind := 5, die := d.val, stack := e.sub } : DefectRec) ∈ s'.defects ∧
      (partOfDie s d.val = some p → (getPart s' p).st = .faulted ∧ (getPart s' p).sw = none) ∧
      s'.tiles = s.tiles ∧ s'.cycle = s.cycle := by
  have hhalt := (spineFiled_undisturbed (e := e) w d rest).ownerHalts (pl := spinePlace d s) hcode
  obtain ⟨hmem, hmap⟩ := fieldDefect_spec { kind := 5, die := d.val, stack := e.sub }
    (ownerHalts (spinePlace d s) e (spineFiled d e rest s))
  have hlost := hhalt.mapOnly hmap
  obtain ⟨hall, hdead, hdefects, hpart⟩ := columnOut_spec hlost d.val
  refine ⟨_, (exec_eventRecord_stackFail hq hcode hcls).trans (by rw [detachAll_of_noDetach (hall.noDetach hno)]), hdead,
    hdefects ▸ hmem, fun hp => hpart p ((partOfDie_congr hlost.band _).trans hp), hall.tiles, hall.cycle⟩

end Sys2Proof.Machine

open Sys2Proof Sys2Proof.Machine

/-- Settles O44: what each command of a fault leaves of the state, through the map's one revision and the record that Sage
files. -/
theorem faultsAndRepair : Obligations.FaultsAndRepair := by
  intro s p w q
  refine ⟨fun hst hrun => ?deadlock, fun t trig ht hp hf => ?fault, fun r hr hstep => ?history,
    fun r x hr hstep htiles hret hsus => ?remap, fun d k hup ws => ?stack,
    fun d e rest hno hq hcode hcls => eventRecord_stackFail w hno hq hcode hcls, rfl⟩
  case deadlock =>
    refine ⟨_, exec_sectionDeadlock hst hrun, ?_⟩
    have hwave : getPart (startWave (sageEvent s .sectionDeadlock 0 0 (some p.val)) p.val) p.val =
        { q with wave := some s.cycle } := getPart_modPart_same w
    rw [getPart_modPart_same (by exact modPart_wf w), hwave]
    exact ⟨rfl, rfl, rfl, hst, rfl, rfl, rfl⟩
  case fault =>
    refine ⟨_, _, exec_tileFault ht w hp hf, repair_tileFault t trig.val w _, mem_joinRepair .., rfl,
      congrArg Tile.missed (getTile_cleared ht.maps), fun r0 hr0 x hx => ?_, rfl, rfl⟩
    rw [show (getPart s p.val).repair = some r0 from hr0]
    exact mem_joinRepair_of_mem hx
  case history =>
    obtain ⟨hparts, hdefects, htiles⟩ := foldl_addHistory_rest (repairItems s p.val r) s
    refine ⟨_, exec_repairHistoryWritten hr hstep, ?_, fun x hx => ?_, fun h hh hs => ?_, hdefects, htiles⟩
    · rw [getPart_modPart_same (by rw [hparts]; exact w)]
    · exact mem_foldl_addHistory (by simp) _ _ (.inr (List.mem_append_right _ (List.mem_map_of_mem hx)))
    · exact mem_foldl_addHistory hs _ _ (.inl hh)
  case remap =>
    intro dead column hdead hcolumn
    have hnew : deadRecord s x ∉ s.defects := by
      unfold deadRecord
      split <;> assumption
    obtain ⟨hmap, hparts⟩ := remap_one hret hsus hnew
    have wr : mwf {} (remap p.val [x] s).parts = true := hparts ▸ w
    have hq : getPart (remap p.val [x] s) p.val = q := by rw [getPart, hparts]; rfl
    have hafter := hmap.afterRemap p.val r q.autoPending
    have hremap : remap p.val r.tiles s = remap p.val [x] s := by rw [htiles]
    refine ⟨_, exec_remapCommitted hr hstep (hremap ▸ hparts), ?_⟩
    rw [hremap]
    refine ⟨hafter.defects, hafter.revision, hafter.copyA.trans hafter.revision.symm, hafter.copyB, hafter.tiles,
      hafter.cycle, fun hretire => ?_, fun hretire hauto => ?_, fun hretire hauto hsw hs hl => ?_⟩
    · rw [afterRemap_retire hretire, getPart_modPart_same wr]
      exact ⟨rfl, rfl⟩
    · rw [hauto, afterRemap_ends hretire, getPart, lifeBump_parts, ← getPart, getPart_modPart_same wr, hq]
      exact ⟨rfl, rfl⟩
    · rw [hauto, afterRemap_restore hretire, ← hmap.cycle]
      rw [← hq] at hauto hsw hs hl
      exact getPart_restoreWhenReady wr hauto hsw hs hl
  case stack =>
    refine ⟨_, if_pos hup, ?_⟩
    have hget (f g : Spine → Spine) : getSpine (modSpine (modSpine s d.val f) d.val g) d.val = g (f (getSpine s d.val)) := by
      rw [getSpine, modSpine_spines, mget_mmod (by exact mwf_mmod ws), modSpine_spines, mget_mmod ws]
      rfl
    simp only [spineEvent, hget]
    split
    · exact ⟨rfl, rfl, rfl, rfl, rfl, rfl⟩
    · exact ⟨rfl, rfl, rfl, rfl, rfl, rfl⟩
end

/-! ## Credits and tokens that come back to a fret (R199, R200, R201) -/

section
namespace Sys2Proof.Machine

variable {s : State} {t : TileId} {x y inp now : Nat}

/-- With an empty input nothing is under way to it. -/
theorem settleInput_of_empty (h : mget [] (getTile s x y).fret.bufs inp = []) : settleInput x y inp now s = s := by
  rw [settleInput, h, List.foldl_nil]

@[simp] theorem closeCycle_fret (core : Nat) (q : Tile) : (closeCycle core q).fret = q.fret := by
  unfold closeCycle
  split <;> rfl

theorem exec_course5Aged {d : Dir} {r : Nat} (ht : tileExists s t = true)
    (hr : leastOf (course5From s t.x t.y (dirNum d)) = some r) :
    exec (.course5Aged t d) s = .next (modTile (advanceTo s (max s.cycle (r + 16))) t.x t.y fun q =>
      { q with fret := { q.fret with c5Aged := mset false q.fret.c5Aged (dirNum d) true } }) := by
  show execCourse5Aged t d s = _
  unfold execCourse5Aged onTile
  rw [if_pos ht]
  dsimp only
  rw [hr]

/-- The fret once a credit that counts from cycle c on has come back to lane k of link output d (R200). -/
def creditBack (d lane c now : Nat) (f : Fret) : Fret :=
  let k := 8 * d + lane
  { f with
    credit := mset [] f.credit k (removeOne c (mget [] f.credit k))
    used := mset 0 f.used k (mget 0 f.used k - 1)
    c5Since := if lane = 5 ∧ mget 0 f.used k = 8 then mmod 0 f.c5Since d (max (max now c)) else f.c5Since }

theorem exec_hopCreditReturn {d : Dir} {lane : Fin 7} {c : Nat} (ht : tileExists s t = true)
    (hc : leastOf (mget [] (tileOf s t).fret.credit (8 * dirNum d + lane.val)) = some c)
    (hempty : ∀ x2 y2, neighbour s t.x t.y (dirNum d) = some (x2, y2) →
      mget [] (getTile s x2 y2).fret.bufs (8 * oppDir (dirNum d) + lane.val) = []) :
    exec (.hopCreditReturn t d lane) s = .next (modTile (advanceTo s (max s.cycle c)) t.x t.y fun q =>
      { q with fret := creditBack (dirNum d) lane.val c s.cycle q.fret }) := by
  show execHopCreditReturn t d lane s = _
  unfold execHopCreditReturn onTile
  rw [if_pos ht]
  beta_reduce
  extract_lets k u q
  have hu : u = s := by
    unfold u
    split
    next hn => exact settleInput_of_empty (hempty _ _ hn)
    next => rfl
  clear_value u
  subst hu
  unfold q
  rw [hc]
  rfl

theorem exec_windowTokenReturn {ch : Fin 9} {o : Outst} {rest : List Outst} (ht : tileExists s t = true)
    (ho : takeToken ch.val (tileOf s t).fret.outst = some (o, rest)) :
    exec (.windowTokenReturn t ch) s = .next (modTile (advanceTo s (max s.cycle o.due)) t.x t.y fun q =>
      { closeCycle (o.due - 1) q with fret := { q.fret with
          outst := rest, win := mset 0 q.fret.win ch.val (mget 0 q.fret.win ch.val + 1) } }) := by
  show execWindowTokenReturn t ch s = _
  unfold execWindowTokenReturn onTile
  rw [if_pos ht]
  dsimp only
  rw [ho]
  simp only [closeCycle_fret]
  rfl

end Sys2Proof.Machine

open Sys2Proof Sys2Proof.Machine

/-- Settles O33: each return is one change of the tile's fret, in the cycle in which it counts. -/
theorem creditsAndTokens : Obligations.CreditsAndTokens := by
  intro s t ht pre ends
  refine ⟨fun d r hr => ?aged, fun d lane c => ?credit, fun ch o rest ho => ?token⟩
  case aged => exact exec_course5Aged ht hr
  case credit => exact exec_hopCreditReturn ht
  case token => exact exec_windowTokenReturn ht ho
end

/-! ## Bridge wires (R205, R206, R207, R316) -/

section
namespace Sys2Proof.Machine

variable {s : State} {w : WireGroup}

theorem exec_bridgeWireTuning_free {bad : Bool} (hw : wireExists s w = true)
    (hfree : (mget {} s.wires (wireNum w)).steered = none) :
    let g := mget {} s.wires (wireNum w)
    exec (.bridgeWireTuning w bad) s = .next { s with wires := mset {} s.wires (wireNum w) { g with
      tune := (g.tune + 1) % 16
      bad := if bad = true ∧ g.tune ∉ g.bad then g.bad ++ [g.tune] else g.bad } } := by
  intro g
  show execBridgeWireTuning w bad s = _
  unfold execBridgeWireTuning
  simp [hw, hfree, g]

theorem exec_bridgeWireTuning_steered {bad : Bool} (hw : wireExists s w = true)
    (hused : (mget {} s.wires (wireNum w)).steered ≠ none) :
    exec (.bridgeWireTuning w bad) s = .next (if bad then failLane w s else s) := by
  show execBridgeWireTuning w bad s = _
  unfold execBridgeWireTuning
  simp [hw, hused]

theorem exec_wireSteer {b : Nat} {more : List Nat} (hbad : (mget {} s.wires (wireNum w)).bad = b :: more)
    (hfree : (mget {} s.wires (wireNum w)).steered = none) (hq : dieQuiet s w.die = true)
    (hacross : dieQuiet s (acrossBridge w) = true) :
    let g := mget {} s.wires (wireNum w)
    let steered := sageEvent
      { s with wires := mset {} s.wires (wireNum w) { g with steered := some b, bad := [] } }
      .wireSteered (w.group % 256) (packFields [(w.lane, 8), (w.edge, 2), (b2n w.outward, 1), (b, 4)])
      (partOfDie s w.die) (some w.die) none
    exec (.wireSteer w) s = .next (if more = [] then steered else failLane w steered) := by
  intro g steered
  show execWireSteer w s = _
  unfold execWireSteer
  simp only [hbad]
  exact if_pos ⟨hfree, hq, hacross⟩

end Sys2Proof.Machine

open Sys2Proof Sys2Proof.Machine

theorem bridgeWires : BridgeWires := by
  intro s w g
  refine ⟨fun bad hw hfree => ?free, fun hw hused => ?steered, fun b more hbad hfree hq hacross => ?steer⟩
  case free => exact exec_bridgeWireTuning_free hw hfree
  case steered => exact ⟨exec_bridgeWireTuning_steered hw hused, exec_bridgeWireTuning_steered hw hused⟩
  case steer => exact exec_wireSteer hbad hfree hq hacross
end

/-! ## Retries and failures of a link (R204, R205) -/

section
namespace Sys2Proof.Machine

variable {s : State} {t : TileId} {q : Tile} {k now by_ l d x y x2 y2 : Nat} {net : Net} {b : SMap (List Flit)}

/-! ### What is crossing a link arrives later -/

/-- A flit of an input that arrives later when it would arrive from a cycle on. -/
def delayFlit (q : Tile) (inp now by_ : Nat) (f : Flit) : Flit :=
  if f.arr = false ∧ now ≤ arrivedAt q inp f then { f with ready := f.ready + by_ } else f

theorem delayInput_eq (q : Tile) (inp now by_ : Nat) (b : SMap (List Flit)) :
    delayInput { q with fret := { q.fret with bufs := b } } inp now by_ =
      mmod [] b inp (·.map (delayFlit q inp now by_)) := by
  unfold delayInput
  congr 1
  funext fs
  refine List.map_congr_left fun f _ => ?_
  unfold delayFlit
  simp only [Bool.and_eq_true, Bool.not_eq_true', decide_eq_true_eq, ge_iff_le]
  rfl

/-- The inputs of a port, once what crosses the link to some of its lanes arrives later. -/
def delayedBufs (q : Tile) (k now by_ : Nat) (lanes : List Nat) (b : SMap (List Flit)) : SMap (List Flit) :=
  lanes.foldl (fun b l => mmod [] b (8 * k + l) (·.map (delayFlit q (8 * k + l) now by_))) b

theorem mget_delayedBufs_of_not_mem {lanes : List Nat} (w : mwf [] b = true) (h : l ∉ lanes) :
    mget [] (delayedBufs q k now by_ lanes b) (8 * k + l) = mget [] b (8 * k + l) := by
  induction lanes generalizing b with
  | nil => rfl
  | cons j lanes ih =>
    obtain ⟨hj, hrest⟩ := (List.mem_cons.not.trans not_or).mp h
    rw [delayedBufs, List.foldl_cons, ← delayedBufs, ih (mwf_mmod w) hrest, mget_mmod_ne w (by omega)]

theorem mget_delayedBufs {lanes : List Nat} (w : mwf [] b = true) (hl : l ∈ lanes) (hn : lanes.Nodup) :
    mget [] (delayedBufs q k now by_ lanes b) (8 * k + l) =
      (mget [] b (8 * k + l)).map (delayFlit q (8 * k + l) now by_) := by
  induction lanes generalizing b with
  | nil => simp at hl
  | cons j lanes ih =>
    obtain ⟨hj, hrest⟩ := List.nodup_cons.mp hn
    rw [delayedBufs, List.foldl_cons, ← delayedBufs]
    rcases List.mem_cons.mp hl with rfl | hl
    · rw [mget_delayedBufs_of_not_mem (mwf_mmod w) hj, mget_mmod w]
    · have hlj : l ≠ j := fun h => hj (h ▸ hl)
      rw [ih (mwf_mmod w) hl hrest, mget_mmod_ne w (by omega)]

theorem netLanes_nodup (net : Net) : (netLanes net).Nodup := by cases net <;> decide

/-- The course-5 flits of a port, once those that would arrive from a cycle on arrive later. -/
def delayedPkts (k : Nat) (net : Net) (now by_ : Nat) (m : SMap (List PFlit)) : SMap (List PFlit) :=
  if net = .vector then
    mmod [] m k (·.map fun g => if now ≤ g.ready then { g with ready := g.ready + by_ } else g)
  else m

theorem delayLink_eq (k : Nat) (net : Net) (now by_ : Nat) (q : Tile) : delayLink k net now by_ q =
    { q with fret := { q.fret with bufs := delayedBufs q k now by_ (netLanes net) q.fret.bufs
                                   pkts := delayedPkts k net now by_ q.fret.pkts } } := by
  unfold delayLink
  simp only [delayInput_eq]
  rfl

/-! ### A retry request (R204, R205) -/

/-- A port counts a request for a retry, and what crosses its link waits for the replay. -/
def retried (k : Nat) (net : Net) (a h n ticks : Nat) (q : Tile) : Tile :=
  let q := delayLink k net a (2 * h) (bump a (.retry k) 1 q)
  { q with fret := { q.fret with
      attempts := mset (0, 0) q.fret.attempts (3 * k + netNum net) (n + 1, a + 2 * h)
      tickRetries := mset 0 q.fret.tickRetries k ticks } }

/-- Retry requests of a port in the tick of a cycle, that cycle's among them. -/
def retriesIn (k a : Nat) (q : Tile) : Nat :=
  let prev := mget 0 q.fret.tickRetries k
  (if prev / 1024 = a / tickCycles then prev % 1024 else 0) + 1

/-- Both ends of the link of port d after a retry request of the item that arrives in cycle a. -/
def bothRetried (t : TileId) (d x2 y2 : Nat) (net : Net) (a : Nat) (s : State) : State :=
  let q := tileOf s t
  let h := hopLat s t.x t.y x2 y2
  modTile (modTile (advanceTo s a) t.x t.y (retried d net a h (attemptsOf q d net a)
    (1024 * (a / tickCycles) + min (retriesIn d a q) 1023))) x2 y2 (replayFrom (oppDir d) net (a + h) (2 * h))

/-- Sage's report of many requests is the only other change. -/
theorem exec_retryRequest {d : Dir} {a : Nat} (ht : tileExists s t = true)
    (hnb : neighbour s t.x t.y (dirNum d) = some (x2, y2))
    (hok : bit (tileOf s t).fret.failed.toNat (dirNum d) = false)
    (ha : nextArrival (tileOf s t) (dirNum d) s.cycle net = some a)
    (hn : attemptsOf (tileOf s t) (dirNum d) net a < 3) :
    ∃ s', exec (.retryRequest t d net) s = .next s' ∧ s'.cycle = max s.cycle a ∧
      s'.tiles = (bothRetried t (dirNum d) x2 y2 net a s).tiles := by
  have hgo : ¬ (attemptsOf (tileOf s t) (dirNum d) net a ≥ 3 ∨ bit (tileOf s t).fret.failed.toNat (dirNum d) = true) := by
    simp [hn, hok]
  have hexec : exec (.retryRequest t d net) s = .next (if retriesIn (dirNum d) a (tileOf s t) = 65 then
      sageEvent (bothRetried t (dirNum d) x2 y2 net a s) .linkDegraded (dirNum d) 0
        (partOfTile (bothRetried t (dirNum d) x2 y2 net a s) t.x) none (some (t.x, t.y))
      else bothRetried t (dirNum d) x2 y2 net a s) := by
    show execRetryRequest t d net s = _
    unfold execRetryRequest onTile
    rw [if_pos ht]
    simp only [hnb, ha]
    rw [if_neg hgo]
    rfl
  rw [hexec]
  split
  · exact ⟨_, rfl, rfl, rfl⟩
  · exact ⟨_, rfl, rfl, rfl⟩

variable {a h n ticks : Nat}

theorem retried_attempts (w : mwf (0, 0) q.fret.attempts = true) :
    mget (0, 0) (retried k net a h n ticks q).fret.attempts (3 * k + netNum net) = (n + 1, a + 2 * h) := by
  obtain ⟨m, v, hb⟩ := bump_eq a (.retry k) 1 q
  rw [retried, delayLink_eq, hb]
  exact mget_mset w

theorem retried_ctr (w : mwf 0 q.ctr = true) :
    ctrVal (retried k net a h n ticks q) (.retry k) = min (ctrVal q (.retry k) + 1) ctrMax := by
  rw [← ctrVal_bump (core := a) w, retried, delayLink_eq]
  exact ctrVal_congr rfl

theorem retried_bufs (w : mwf [] q.fret.bufs = true) (hl : l ∈ netLanes net) :
    mget [] (retried k net a h n ticks q).fret.bufs (8 * k + l) =
      (mget [] q.fret.bufs (8 * k + l)).map (delayFlit q (8 * k + l) a (2 * h)) := by
  obtain ⟨m, v, hb⟩ := bump_eq a (.retry k) 1 q
  rw [retried, delayLink_eq, hb]
  exact mget_delayedBufs w hl (netLanes_nodup net)

theorem retried_pkts (w : mwf [] q.fret.pkts = true) (hv : net = .vector) :
    mget [] (retried k net a h n ticks q).fret.pkts k =
      (mget [] q.fret.pkts k).map fun g => if a ≤ g.ready then { g with ready := g.ready + 2 * h } else g := by
  obtain ⟨m, v, hb⟩ := bump_eq a (.retry k) 1 q
  rw [retried, delayLink_eq, hb]
  dsimp only [delayedPkts]
  rw [if_pos hv]
  exact mget_mmod w

theorem retried_frame : (retried k net a h n ticks q).mu = q.mu ∧ (retried k net a h n ticks q).tab = q.tab ∧
    (retried k net a h n ticks q).fret.failed = q.fret.failed := by
  obtain ⟨m, v, hb⟩ := bump_eq a (.retry k) 1 q
  rw [retried, delayLink_eq, hb]
  exact ⟨rfl, rfl, rfl⟩

theorem replayFrom_retryTo {at_ : Nat} (hnet : net ≠ .control) (w : mwf (0, 0) q.fret.retryTo = true) :
    mget (0, 0) (replayFrom d net at_ by_ q).fret.retryTo (netKey (decide (net = .scalar)) d) = (at_, by_) := by
  rw [replayFrom, if_neg hnet]
  exact mget_mset w

/-! ### A link that fails (R205) -/

theorem dirNum_lt (d : Dir) : dirNum d < 4 := by cases d <;> decide

theorem oppDir_lt (k : Nat) : oppDir k < 4 := Nat.mod_lt _ (by decide)

/-- A tile one of whose ports has stopped for good. -/
def portFailed (d now : Nat) (q : Tile) : Tile :=
  { q with fret := { q.fret with
      failed := BitVec.ofNat 4 (q.fret.failed.toNat ||| 2 ^ d), failAt := mset 0 q.fret.failAt d now } }

theorem portFailed_failed (hd : d < 4) : bit (portFailed d now q).fret.failed.toNat d = true := by
  rw [bit_toNat, portFailed, BitVec.getLsbD_ofNat, Nat.testBit_or, Nat.testBit_two_pow_self]
  simp [hd]

theorem failPort_eq (x y d : Nat) (s : State) : failPort x y d s = modTile s x y (portFailed d s.cycle) := rfl

theorem failLink_of_ok (hnb : neighbour s x y k = some (x2, y2)) (hok : bit (getTile s x y).fret.failed.toNat k = false) :
    failLink x y k s = modTile (failPort x2 y2 (oppDir k) (failPort x y k s)) x y (tileEvent s.cycle .linkFail k 0) := by
  unfold failLink
  rw [hnb]
  exact if_neg (by simp [hok])

/-- The cycles in which a fourth attempt of a link's item fails: the replay of an item that has failed three (R205). -/
theorem linkFail_dues {α : Type} {v : Net → Nat × Nat} {g : Nat × Nat → Option α} {r : α} (hnet : g (v net) = some r)
    (hother : ∀ n, n ≠ net → g (v n) = none) : ([Net.vector, .scalar, .control].map v).filterMap g = [r] := by
  cases net <;> simp_all

theorem exec_linkFail {d : Dir} (ht : tileExists s t = true)
    (hnb : neighbour s t.x t.y (dirNum d) = some (x2, y2))
    (hok : bit (tileOf s t).fret.failed.toNat (dirNum d) = false)
    (htries : 3 ≤ (mget (0, 0) (tileOf s t).fret.attempts (3 * dirNum d + netNum net)).1)
    (hdue : s.cycle ≤ (mget (0, 0) (tileOf s t).fret.attempts (3 * dirNum d + netNum net)).2)
    (hother : ∀ n, n ≠ net → (mget (0, 0) (tileOf s t).fret.attempts (3 * dirNum d + netNum n)).1 < 3) :
    let due := (mget (0, 0) (tileOf s t).fret.attempts (3 * dirNum d + netNum net)).2
    exec (.linkFail t d) s = .next (modTile (modTile (modTile (advanceTo s due) t.x t.y (portFailed (dirNum d) due)) x2 y2
      (portFailed (oppDir (dirNum d)) due)) t.x t.y (tileEvent due .linkFail (dirNum d) 0)) := by
  intro due
  have hcycle : max s.cycle due = due := max_eq_right hdue
  show execLinkFail t d s = _
  unfold execLinkFail onTile
  rw [if_pos ht]
  beta_reduce
  extract_lets k tl dues
  have hdues : dues = [due] :=
    linkFail_dues (net := net) (if_pos ⟨htries, hdue⟩) fun n hn => if_neg fun h => absurd h.1 (Nat.not_le.mpr (hother n hn))
  rw [hdues]
  show Host.Outcome.next (failLink t.x t.y k (advanceTo s due)) = _
  rw [failLink_of_ok (s := advanceTo s due) hnb hok, failPort_eq, failPort_eq]
  simp only [modTile_cycle, advanceTo_cycle, hcycle]

end Sys2Proof.Machine

open Sys2Proof Sys2Proof.Machine

theorem linkRetriesAndFailures : LinkRetriesAndFailures := by
  intro s t d x2 y2 ht pre k hnb hne hok h tries
  refine ⟨fun net a ha hn watt wctr wbufs wpkts => ?retry, fun net htries hdue hother => ?fail⟩
  case retry =>
    obtain ⟨s', hexec, hcycle, htiles⟩ := exec_retryRequest ht.tile hnb hok ha hn
    have hget : ∀ x y, getTile s' x y = getTile (bothRetried t k x2 y2 net a s) x y := fun x y => by
      rw [getTile, htiles]
      rfl
    have w1 := modTile_wf (s := advanceTo s a) t.x t.y (retried k net a h (attemptsOf pre k net a)
      (1024 * (a / tickCycles) + min (retriesIn k a pre) 1023)) ht.maps
    have hpost : tileOf s' t = retried k net a h (attemptsOf pre k net a)
        (1024 * (a / tickCycles) + min (retriesIn k a pre) 1023) pre :=
      (hget ..).trans ((getTile_modTile_ne _ w1 hne.symm).trans (getTile_modTile (s := advanceTo s a) _ _ _ ht.maps))
    have hthere : getTile s' x2 y2 = replayFrom (oppDir k) net (a + h) (2 * h) (getTile s x2 y2) :=
      (hget ..).trans ((getTile_modTile _ _ _ w1).trans
        (congrArg _ (getTile_modTile_ne (s := advanceTo s a) _ ht.maps hne)))
    refine ⟨s', hexec, hcycle, ?_⟩
    rw [hpost, hthere]
    exact ⟨retried_attempts watt, retried_ctr wctr, fun l hl => retried_bufs wbufs hl, retried_pkts wpkts,
      replayFrom_retryTo, retried_frame⟩
  case fail =>
    have w1 : mwf {} (modTile (advanceTo s (tries net).2) t.x t.y (portFailed k (tries net).2)).tiles = true :=
      modTile_wf _ _ _ ht.maps
    have w2 := modTile_wf x2 y2 (portFailed (oppDir k) (tries net).2) w1
    refine ⟨_, exec_linkFail ht.tile hnb hok htries hdue hother, max_eq_right hdue, ?_⟩
    rw [tileOf, getTile_modTile _ _ _ w2, getTile_modTile_ne _ w1 hne.symm, getTile_modTile _ _ _ (by exact ht.maps),
      getTile_modTile_ne _ w2 hne, getTile_modTile _ _ _ w1, getTile_modTile_ne _ (by exact ht.maps) hne]
    exact ⟨portFailed_failed (dirNum_lt d), portFailed_failed (oppDir_lt k), rfl, rfl, rfl, rfl⟩

/-- Settles O36: the two ends of a link after a request and after a failure, and one command on a group of wires. -/
theorem linksAndWires : Obligations.LinksAndWires := ⟨linkRetriesAndFailures, bridgeWires⟩
end

/-! ## The end of a section and its drain (R220, R260, R261, R279) -/

section
namespace Sys2Proof.Machine

variable {s : State} {p c : Nat} {q : Partition} {code : EvCode} {st : PState}

/-! ### What a round over dies, tiles or residuals leaves of the device -/

theorem foldl_spines {α : Type} {g : State → α → State} (hg : ∀ s a, ∃ m, g s a = { s with spines := m }) :
    ∀ (l : List α) (s : State), ∃ m, l.foldl g s = { s with spines := m }
  | [], s => ⟨s.spines, rfl⟩
  | a :: l, s => by
    obtain ⟨m, hm⟩ := hg s a
    obtain ⟨m', hm'⟩ := foldl_spines hg l { s with spines := m }
    exact ⟨m', by rw [List.foldl_cons, hm, hm']⟩

theorem foldl_sage {α : Type} {g : State → α → State} (hg : ∀ s a, ∃ m, g s a = { s with sage := m }) :
    ∀ (l : List α) (s : State), ∃ m, l.foldl g s = { s with sage := m }
  | [], s => ⟨s.sage, rfl⟩
  | a :: l, s => by
    obtain ⟨m, hm⟩ := hg s a
    obtain ⟨m', hm'⟩ := foldl_sage hg l { s with sage := m }
    exact ⟨m', by rw [List.foldl_cons, hm, hm']⟩

theorem foldl_tiles {α : Type} {g : State → α → State} (hg : ∀ s a, ∃ m, g s a = { s with tiles := m }) :
    ∀ (l : List α) (s : State), ∃ m, l.foldl g s = { s with tiles := m }
  | [], s => ⟨s.tiles, rfl⟩
  | a :: l, s => by
    obtain ⟨m, hm⟩ := hg s a
    obtain ⟨m', hm'⟩ := foldl_tiles hg l { s with tiles := m }
    exact ⟨m', by rw [List.foldl_cons, hm, hm']⟩

theorem stopStreams_eq (p : Nat) (s : State) : ∃ m, stopStreams p s = { s with spines := m } :=
  foldl_spines (fun _ _ => ⟨_, rfl⟩) _ s

theorem clearAsks_eq (p : Nat) (s : State) : ∃ m, clearAsks p s = { s with spines := m } :=
  foldl_spines (fun _ _ => ⟨_, rfl⟩) _ s

theorem clearAsks_frame (p : Nat) (s : State) :
    (clearAsks p s).parts = s.parts ∧ (clearAsks p s).cycle = s.cycle ∧ (clearAsks p s).stk = s.stk := by
  obtain ⟨m, hm⟩ := clearAsks_eq p s
  rw [hm]
  exact ⟨rfl, rfl, rfl⟩

theorem raiseMismatch_eq (p : Nat) (s : State) : ∃ m, raiseMismatch p s = { s with sage := m } :=
  foldl_sage (fun _ _ => ⟨_, rfl⟩) _ s

theorem raiseResiduals_eq (p : Nat) (rs : List Residual) (s : State) : ∃ m, raiseResiduals p rs s = { s with sage := m } :=
  foldl_sage (fun _ _ => ⟨_, rfl⟩) _ s

theorem catchUpBand_eq (p : Nat) (s : State) : ∃ m, catchUpBand p s = { s with tiles := m } :=
  foldl_tiles (fun _ _ => ⟨_, rfl⟩) _ s

/-! ### A switch that fails -/

theorem failSwitch_eq (p : Nat) (code : EvCode) (st : PState) (s : State) :
    ∃ m a, failSwitch p code st s = { s with parts := m, asked := a } := by
  unfold failSwitch endStarted
  split
  · obtain ⟨m, a, h⟩ := endEntry_eq (p := p) 0 (evNum code) 0 0 s
    exact ⟨_, a, by rw [h]; rfl⟩
  · exact ⟨_, _, rfl⟩

/-- The partition of a switch that fails has its event's state, and nothing else of it that a load has set changes. -/
theorem getPart_failSwitch (w : mwf {} s.parts = true) :
    ∃ g, getPart (failSwitch p code st s) p = { dropPending { getPart s p with eng := g } with st := st } := by
  unfold failSwitch endStarted
  split
  · obtain ⟨we, hpart⟩ := getPart_endEntry (p := p) w 0 (evNum code) 0 0
    obtain ⟨g, hg⟩ := hpart p
    exact ⟨g, by rw [getPart_modPart_same we, hg]⟩
  · exact ⟨_, getPart_modPart_same w⟩

theorem failSwitch_spec (w : mwf {} s.parts = true) : let s' := failSwitch p code st s
    (getPart s' p).st = st ∧ (getPart s' p).sw = none ∧ (getPart s' p).endSeen = (getPart s p).endSeen ∧
      (getPart s' p).epoch = (getPart s p).epoch ∧ s'.tiles = s.tiles ∧ s'.cycle = s.cycle ∧ s'.stk = s.stk := by
  obtain ⟨m, a, h⟩ := failSwitch_eq p code st s
  obtain ⟨g, hg⟩ := getPart_failSwitch (p := p) (code := code) (st := st) w
  intro s'
  rw [show getPart s' p = _ from hg, show s' = _ from h]
  exact ⟨rfl, rfl, rfl, rfl, rfl, rfl, rfl⟩

/-! ### The ENDED reduction (R220, R259, R279) -/

/-- A partition whose band has been seen ENDED in a cycle. -/
def bandSeen (c : Nat) (q : Partition) : Partition := { q with endSeen := some c, gap := true }

/-- Every tile of a list says that it has ended. -/
theorem all_saysEnded_iff {ts : List (Nat × Nat)} : (ts.all fun xy => saysEnded (getTile s xy.1 xy.2)) = true ↔
    ∀ xy ∈ ts, (getTile s xy.1 xy.2).tab.st = .ended ∧ (getTile s xy.1 xy.2).missed = 0 := by
  simp [saysEnded]

/-- The next multiple of 1,024 (R220). -/
theorem next_multiple (n : Nat) : n + (1024 - n % 1024) % 1024 = (n + 1023) / 1024 * 1024 := by omega

/-- The device when the reduction of a partition is formed: streams to tiles that have ended have stopped. -/
def reduced (p : Nat) (s : State) : State := stopStreams p (advanceTo s ((s.cycle + 1023) / 1024 * 1024))

theorem reduced_eq (p : Nat) (s : State) :
    ∃ m, reduced p s = { s with spines := m, cycle := (s.cycle + 1023) / 1024 * 1024 } := by
  obtain ⟨m, hm⟩ := stopStreams_eq p (advanceTo s ((s.cycle + 1023) / 1024 * 1024))
  exact ⟨m, by rw [reduced, hm, advanceTo, max_eq_right (by omega)]⟩

/-- The band as the reduction finds it. -/
theorem reduced_frame (p : Nat) (s : State) : (reduced p s).cycle = (s.cycle + 1023) / 1024 * 1024 ∧
    (reduced p s).parts = s.parts ∧ (reduced p s).tiles = s.tiles ∧ (reduced p s).stk = s.stk ∧
    workTiles (reduced p s) p = workTiles s p := by
  obtain ⟨m, hm⟩ := reduced_eq p s
  rw [hm]
  exact ⟨rfl, rfl, rfl, rfl, rfl⟩

/-- The device when the reduction shows the band ENDED for the first time. -/
def endNoted (p : Nat) (s : State) : State := modPart (reduced p s) p (bandSeen (reduced p s).cycle)

theorem exec_endedReduction {p : Fin 4} (hrun : (getPart s p.val).st = .running) (hseen : (getPart s p.val).endSeen = none) :
    exec (.endedReduction p) s = .next
      (if (workTiles s p.val).all fun xy => saysEnded (getTile s xy.1 xy.2) then
        if (workTiles s p.val).any fun xy => planBad (getTile s xy.1 xy.2) then
          failSwitch p.val .reportMismatch .faulted (raiseMismatch p.val (endNoted p.val s))
        else modPart (endNoted p.val s) p.val wakeSwitch
      else reduced p.val s) := by
  obtain ⟨-, hparts, htiles, -, hwork⟩ := reduced_frame p.val s
  have hget : ∀ x y, getTile (reduced p.val s) x y = getTile s x y := fun x y => by rw [getTile, htiles, getTile]
  have hnone : (getPart (reduced p.val s) p.val).endSeen = none := by rw [getPart, hparts]; exact hseen
  show execEndedReduction p s = _
  unfold execEndedReduction
  rw [if_neg (by simp [hrun]), next_multiple]
  extract_lets s1 u q ts v
  have hu : u = reduced p.val s := rfl
  clear_value u
  subst hu
  have hts : ts = workTiles s p.val := hwork
  have hq : q.endSeen.isSome = false := by rw [show q.endSeen = none from hnone]; rfl
  simp only [hts, hq, v, hget, getTile_modPart, Bool.false_eq_true, if_false]
  split_ifs <;> rfl

theorem logLoad_frame (o : LoadOpts) (q : Partition) :
    (logLoad o q).st = q.st ∧ (logLoad o q).endSeen = q.endSeen ∧ (logLoad o q).gap = q.gap := by
  unfold logLoad
  split <;> exact ⟨rfl, rfl, rfl⟩

theorem logLoad_bandSeen (o : LoadOpts) (c : Nat) (q : Partition) :
    (logLoad o (bandSeen c q)).replay = (logLoad o q).replay := by
  unfold logLoad
  by_cases h : q.replay.length ≥ 63
  · rw [if_pos h, if_pos (show (bandSeen c q).replay.length ≥ 63 from h)]
    rfl
  · rw [if_neg h, if_neg (show ¬ (bandSeen c q).replay.length ≥ 63 from h)]
    rfl

theorem wakeSwitch_frame (q : Partition) :
    (wakeSwitch q).st = q.st ∧ (wakeSwitch q).endSeen = q.endSeen ∧ (wakeSwitch q).gap = q.gap := by
  unfold wakeSwitch
  split
  next k hk =>
    cases k with
    | load o => exact logLoad_frame o q
    | finish b => exact ⟨rfl, rfl, rfl⟩
    | restore b => exact ⟨rfl, rfl, rfl⟩
    | replay o => exact ⟨rfl, rfl, rfl⟩
  next => exact ⟨rfl, rfl, rfl⟩

theorem wakeSwitch_load {o : LoadOpts} (h : q.sw = some ⟨.load o, .ended⟩) :
    wakeSwitch q = { logLoad o q with sw := some ⟨.load o, .drain⟩ } := by
  rw [wakeSwitch, h]

theorem wakeSwitch_finish {b : Bool} (h : q.sw = some ⟨.finish b, .ended⟩) :
    wakeSwitch q = { q with sw := some ⟨.finish b, .drain⟩ } := by
  rw [wakeSwitch, h]

/-! ### The drain (R260, R261) -/

theorem getPart_setPhase {k : SwitchKind} {f0 f : SwitchPhase} (w : mwf {} s.parts = true)
    (h : (getPart s p).sw = some ⟨k, f0⟩) : getPart (setPhase p f s) p = { getPart s p with sw := some ⟨k, f⟩ } := by
  rw [setPhase, getPart_modPart_same w, h]
  rfl

theorem exec_drainStart {p : Fin 4} {k : SwitchKind} (h : (getPart s p.val).sw = some ⟨k, .drain⟩) :
    exec (.drainStart p) s = .next (setPhase p.val (.settle s.cycle) (modPart s p.val fun q =>
      { q with st := .draining, suspended := true, gap := false, bunits := 0 })) :=
  if_pos (show (getPart s p.val).sw.map _ = _ by rw [h]; rfl)

/-- The band when the settle period of its drain is over, with what has come due. -/
def settled (p since : Nat) (s : State) : State := catchUpBand p (advanceTo s (max s.cycle (since + 2048)))

theorem settled_eq (p since : Nat) (s : State) :
    ∃ m, settled p since s = { s with tiles := m, cycle := max s.cycle (since + 2048) } := by
  obtain ⟨m, hm⟩ := catchUpBand_eq p (advanceTo s (max s.cycle (since + 2048)))
  exact ⟨m, by rw [settled, hm, advanceTo, max_eq_right (le_max_left ..)]⟩

theorem exec_drainSample {p : Fin 4} {k : SwitchKind} {since : Nat} {u : State}
    (h : (getPart s p.val).sw = some ⟨k, .settle since⟩) (hu : settled p.val since s = u) :
    exec (.drainSample p) s = .next (if residuals u p.val = [] then clearAsks p.val (setPhase p.val .spill u)
      else failSwitch p.val .residualToken .faulted (raiseResiduals p.val (residuals u p.val) u)) := by
  have hsw : switchAt s p.val = some (.settle since) := by rw [switchAt, h]; rfl
  show execDrainSample p s = _
  unfold execDrainSample
  rw [hsw]
  dsimp only
  rw [show catchUpBand p.val (advanceTo s (max s.cycle (since + 2048))) = u from hu]
  split
  next hnil => rw [if_pos hnil]
  next hne => rw [if_neg hne]

end Sys2Proof.Machine

open Sys2Proof Sys2Proof.Machine

/-- Settles O40: what the reduction finds of the band decides between three states, and the sample of a drain between two. -/
theorem sectionEndsAndDrains : Obligations.SectionEndsAndDrains := by
  intro s p w q ends
  refine ⟨fun hrun hseen => ?reduction, fun k hsw => ?start, fun k since hsw => ?sample⟩
  case reduction =>
    intro c all bad
    have hexec := exec_endedReduction hrun hseen
    have hall : ((workTiles s p.val).all fun xy => saysEnded (getTile s xy.1 xy.2)) = true ↔ all := all_saysEnded_iff
    have hbad : ((workTiles s p.val).any fun xy => planBad (getTile s xy.1 xy.2)) = true ↔ bad := List.any_eq_true
    obtain ⟨hcycle, hparts, htiles, hstk, -⟩ := reduced_frame p.val s
    have hq : getPart (reduced p.val s) p.val = q := by rw [getPart, hparts]; rfl
    have wu : mwf {} (reduced p.val s).parts = true := hparts ▸ w
    have hv : getPart (endNoted p.val s) p.val = bandSeen c q := by rw [endNoted, getPart_modPart_same wu, hq, hcycle]
    have wv : mwf {} (endNoted p.val s).parts = true := modPart_wf wu
    refine ⟨fun hna => ?running, fun ha hb => ?missed, fun ha hnb => ?met⟩
    case running =>
      rw [if_neg (hall.not.mpr hna)] at hexec
      exact ⟨_, hexec, hcycle, ⟨hq, htiles⟩, hstk⟩
    case missed =>
      rw [if_pos (hall.mpr ha), if_pos (hbad.mpr hb)] at hexec
      obtain ⟨g, hg⟩ := raiseMismatch_eq p.val (endNoted p.val s)
      rw [hg] at hexec
      obtain ⟨hst, hsw, hend, -, ht, hc, hk⟩ := failSwitch_spec (p := p.val) (code := .reportMismatch) (st := .faulted)
        (s := { endNoted p.val s with sage := g }) wv
      exact ⟨_, hexec, hc.trans hcycle, ⟨hst, hsw, hend.trans (congrArg Partition.endSeen hv), ht.trans htiles⟩,
        hk.trans hstk⟩
    case met =>
      rw [if_pos (hall.mpr ha), if_neg (hbad.not.mpr hnb)] at hexec
      obtain ⟨hst, hseen', hgap⟩ := wakeSwitch_frame (bandSeen c q)
      refine ⟨_, hexec, hcycle, ?_, hstk⟩
      rw [getPart_modPart_same wv, hv]
      refine ⟨hst.trans hrun, hseen', hgap, htiles, fun o hsw => ?_, fun b hsw => ?_⟩
      · rw [wakeSwitch_load (q := bandSeen c q) hsw]
        exact ⟨rfl, logLoad_bandSeen o c q⟩
      · rw [wakeSwitch_finish (q := bandSeen c q) hsw]
        exact ⟨rfl, rfl⟩
  case start =>
    refine ⟨_, exec_drainStart hsw, rfl, ?_, rfl⟩
    rw [getPart_setPhase (modPart_wf w) (by rw [getPart_modPart_same w]; exact hsw), getPart_modPart_same w]
    exact ⟨rfl, rfl, rfl, rfl⟩
  case sample =>
    intro c rs
    obtain ⟨m, hm⟩ := settled_eq p.val since s
    have hexec := exec_drainSample hsw hm
    rw [show residuals _ p.val = rs from congrArg (residuals · p.val) hm.symm] at hexec
    refine ⟨fun hnil => ?settles, fun hne => ?residual⟩
    case settles =>
      rw [if_pos hnil] at hexec
      obtain ⟨hparts, hcycle, hstk⟩ := clearAsks_frame p.val (setPhase p.val .spill { s with tiles := m, cycle := c })
      have hpart : getPart (clearAsks p.val (setPhase p.val .spill { s with tiles := m, cycle := c })) p.val =
          { q with sw := some ⟨k, .spill⟩ } := by
        rw [getPart, hparts]
        exact getPart_setPhase (s := { s with tiles := m, cycle := c }) w hsw
      refine ⟨_, hexec, hcycle, ?_, hstk⟩
      rw [hpart]
      exact ⟨rfl, rfl, rfl⟩
    case residual =>
      obtain ⟨g, hg⟩ := raiseResiduals_eq p.val rs { s with tiles := m, cycle := c }
      rw [if_neg hne, hg] at hexec
      obtain ⟨hst, hsw, -, hepoch, -, hcycle, hstk⟩ := failSwitch_spec (p := p.val) (code := .residualToken) (st := .faulted)
        (s := { s with tiles := m, cycle := c, sage := g }) w
      exact ⟨_, hexec, hcycle, ⟨hsw, hst, hepoch⟩, hstk⟩
end

/-! ## A flit at the head of an input (R197, R198, R199, R200, R204, R213, R302) -/

section
namespace Sys2Proof.Machine

variable {s : State} {q : Tile} {f : Flit} {x y x2 y2 inp o c c0 : Nat}

/-! ### A flit that stands alone in its fret -/

/-- A flit has arrived at an input of a fret, may go on, and is all that the fret holds. -/
structure Alone (q : Tile) (inp : Nat) (f : Flit) : Prop where
  bufs : q.fret.bufs = [(inp, [f])]
  term : q.fret.term = []
  arr : f.arr = true
  left : f.left = []
  epoch : f.epoch = q.fret.epoch
  free : heldOnLink q inp f = false

theorem Alone.head (h : Alone q inp f) : mget [] q.fret.bufs inp = [f] := by
  rw [h.bufs]
  simp [mget]

theorem Alone.headTerm (h : Alone q inp f) : headTerm q inp = none := by
  rw [Machine.headTerm, h.term, List.find?_nil]

theorem Alone.termBlocks (h : Alone q inp f) : termBlocks q inp = 0 := by
  rw [Machine.termBlocks, termBeyond, h.term, h.head]
  simp [h.left]

theorem splitFlit_eq_none {k : Flit → Bool} : ∀ {l : List Flit}, (∀ f ∈ l, k f = false) → splitFlit k l = none
  | [], _ => rfl
  | f :: l, h => by
    obtain ⟨hf, hl⟩ := List.forall_mem_cons.mp h
    simp [splitFlit, hf, splitFlit_eq_none hl]

/-- With nothing under way to an input, time changes nothing of it. -/
theorem settleInput_of_arrived (h : ∀ f ∈ mget [] (getTile s x y).fret.bufs inp, f.arr = true) :
    settleInput x y inp c s = s := by
  have hone : settleOne x y inp c s = s := by
    unfold settleOne
    dsimp only
    rw [splitFlit_eq_none fun f hf => by simp [h f hf]]
  unfold settleInput
  generalize mget [] (getTile s x y).fret.bufs inp = l
  induction l with
  | nil => rfl
  | cons f l ih => rw [List.foldl_cons, hone, ih]

theorem Alone.settleInput (h : Alone (getTile s x y) inp f) : settleInput x y inp c s = s :=
  settleInput_of_arrived fun g hg => by
    rw [h.head, List.mem_singleton] at hg
    rw [hg, h.arr]

/-! ### Its cases (R197, R213, R302) -/

/-- A tile that reports the uncorrectable flit at the head of an input and poisons it. -/
def upsetHead (inp c : Nat) (f : Flit) (q : Tile) : Tile :=
  tileEvent c .spadUncorrected (0x20 + inp) 0
    { q with fret := { q.fret with bufs := mset [] q.fret.bufs inp [{ f with poison := true }] } }

theorem hopFlit_of_alone {u : Upset} (h : Alone (getTile s x y) inp f) : hopFlit x y inp u s =
    let q := getTile s x y
    let c := max s.cycle f.ready
    if u.parity then modTile (advanceTo s c) x y fun q => haltAny c .tabParity 1 inp (closeCycle c q)
    else if !rValid (routeOf q inp) then popInput x y inp c (modTile (advanceTo s c) x y fun q =>
      tileEvent c .routeMissing inp 0 (bump c .discard 1 q))
    else if u.flit then forwardFlit x y inp c { f with poison := true } (modTile s x y (upsetHead inp c f))
    else forwardFlit x y inp c f s := by
  have hstale : splitFlit (fun f => decide (f.epoch ≠ (getTile s x y).fret.epoch))
      (mget [] (getTile s x y).fret.bufs inp) = none := by
    rw [h.head]
    simp [splitFlit, h.epoch]
  have hterm : windowTermFirst s x y inp f = false := by
    unfold windowTermFirst
    dsimp only
    rw [h.headTerm]
  unfold hopFlit
  dsimp only
  rw [hstale, h.head]
  dsimp only
  rw [if_neg (by simp [h.free]), if_neg (by simp [hterm])]
  rfl

/-! ### A flit leaves its input, and its slot (R198, R200) -/

/-- A credit on its way is all that the fret upstream takes. -/
theorem returnCredit_proj {α : Sort*} (p : Tile → α)
    (hp : ∀ q m, p { q with fret := { q.fret with credit := m } } = p q) (w : mwf {} s.tiles = true) (i j : Nat) :
    p (getTile (returnCredit x y inp c s) i j) = p (getTile s i j) := by
  unfold returnCredit
  split
  · rfl
  · split
    · rfl
    · exact getTile_modTile_proj p w (fun q => hp q _) i j

theorem returnCredit_cycle : (returnCredit x y inp c s).cycle = s.cycle := by
  unfold returnCredit
  split
  · rfl
  · split <;> rfl

/-- The tile whose input has given away its only flit. -/
def popped (inp c : Nat) (q : Tile) : Tile :=
  let q := if inp ≥ 32 then closeCycle c q else q
  { q with fret := { q.fret with bufs := mset [] q.fret.bufs inp [] } }

theorem popped_eq (inp c : Nat) (q : Tile) : ∃ tb, popped inp c q =
    { q with tab := tb, fret := { q.fret with bufs := mset [] q.fret.bufs inp [] } } := by
  unfold popped
  dsimp only
  split
  · obtain ⟨n, hn⟩ := closeCycle_eq c q
    exact ⟨_, by rw [hn]⟩
  · exact ⟨_, rfl⟩

/-- The pop of an input's only flit, with the credit that it may send upstream. -/
theorem popInput_eq (h : mget [] (getTile s x y).fret.bufs inp = [f]) (harr : f.arr = true) :
    popInput x y inp c s = modTile s x y (popped inp c) ∨
      popInput x y inp c s = returnCredit x y inp c (modTile s x y (popped inp c)) := by
  have hset : settleInput x y inp c s = s := settleInput_of_arrived fun g hg => by
    rw [h, List.mem_singleton] at hg
    rw [hg, harr]
  unfold popInput
  rw [hset]
  extract_lets u t l rest t1 t2 t' v
  have hrest : rest = [] := by
    unfold rest l t u
    rw [h]
    rfl
  have hv : v = modTile s x y (popped inp c) := by
    unfold v t'
    rw [hrest]
    rfl
  rw [hv]
  split
  · exact .inr rfl
  · exact .inl rfl

theorem popInput_proj {α : Sort*} (p : Tile → α) (hp : ∀ q m, p { q with fret := { q.fret with credit := m } } = p q)
    (w : mwf {} s.tiles = true) (h : mget [] (getTile s x y).fret.bufs inp = [f]) (harr : f.arr = true) (i j : Nat) :
    p (getTile (popInput x y inp c s) i j) = p (getTile (modTile s x y (popped inp c)) i j) := by
  rcases popInput_eq (c := c) h harr with heq | heq
  · rw [heq]
  · rw [heq]
    exact returnCredit_proj p hp (modTile_wf _ _ (popped inp c) w) i j

theorem popInput_cycle (h : mget [] (getTile s x y).fret.bufs inp = [f]) (harr : f.arr = true) :
    (popInput x y inp c s).cycle = s.cycle := by
  rcases popInput_eq (c := c) h harr with heq | heq
  · rw [heq]
    rfl
  · rw [heq]
    exact returnCredit_cycle

/-! ### A link output that a flit may take (R199, R204) -/

theorem outFree_ge (q : Tile) (sc : Bool) (d c : Nat) : c ≤ outFree q sc d c := by
  unfold outFree
  dsimp only
  generalize mget 0 q.fret.outAt _ = n
  split <;> exact Nat.le_max_left ..

/-- The lane of a link output that a flit of an input takes. -/
def linkLane (q : Tile) (inp : Nat) : Nat := if scalarInput inp then 6 else rCourse (routeOf q inp)

/-- An input's entry is valid and names one link output, which has a credit for the flit's lane. -/
structure OneWay (s : State) (x y inp o x2 y2 : Nat) : Prop where
  valid : rValid (routeOf (getTile s x y) inp) = true
  outs : routeOuts (routeOf (getTile s x y) inp) = [o]
  port : o < 4
  link : linkTo s x y o = some (x2, y2)
  credit : mget 0 (getTile s x y).fret.used (8 * o + linkLane (getTile s x y) inp) < 8
  aged : mget false (getTile s x y).fret.c5Aged o = false

theorem OneWay.rOut (h : OneWay s x y inp o x2 y2) : rOut (routeOf (getTile s x y) inp) o = true := by
  have hmem : o ∈ routeOuts (routeOf (getTile s x y) inp) := by rw [h.outs]; exact List.mem_singleton_self o
  exact (List.mem_filter.mp hmem).2

/-- It is granted the output as the only flit that waits for it. -/
theorem eligible_of_alone (h : Alone (getTile s x y) inp f) (hw : OneWay s x y inp o x2 y2) (hsc : scalarInput inp = false)
    (hready : f.ready ≤ c) : eligible (getTile s x y) o c = [rCourse (routeOf (getTile s x y) inp)] := by
  have hcredit := hw.credit
  rw [linkLane, hsc, if_neg (by decide)] at hcredit
  unfold eligible
  rw [h.bufs]
  simp [hsc, hw.valid, hw.rOut, h.left, hready, hcredit]

theorem outReady_of_alone (h : Alone (getTile s x y) inp f) (hw : OneWay s x y inp o x2 y2) (hready : f.ready ≤ c0) :
    outReady s x y inp o c0 f = some (outFree (getTile s x y) (scalarInput inp) o c0) := by
  have hcredit := hw.credit
  unfold outReady
  dsimp only
  rw [if_pos hw.port, if_neg (by simp [hw.link])]
  cases hsc : scalarInput inp with
  | true =>
    rw [linkLane, hsc, if_pos rfl] at hcredit
    exact if_pos hcredit
  | false =>
    rw [linkLane, hsc, if_neg (by decide)] at hcredit
    rw [if_neg (by decide), eligible_of_alone h hw hsc (hready.trans (outFree_ge ..))]
    simp [hw.aged, hcredit, granted]

/-- The flit at the head of an input has left on an output. -/
def leftHead (inp o : Nat) (q : Tile) : Tile :=
  { q with fret := { q.fret with bufs := mmod [] q.fret.bufs inp fun l =>
    match l with
    | g :: gs => { g with left := g.left ++ [o] } :: gs
    | [] => [] } }

/-- The only flit of an input leaves on output o, and its slot is free. -/
def leaveHead (x y inp o c : Nat) (s : State) : State := popInput x y inp c (modTile s x y (leftHead inp o))

/-- Its flit leaves on that output. -/
theorem forwardFlit_of_alone (h : Alone (getTile s x y) inp f) (hw : OneWay s x y inp o x2 y2) (hready : f.ready ≤ c0) :
    let c := outFree (getTile s x y) (scalarInput inp) o c0
    forwardFlit x y inp c0 f s =
      leaveHead x y inp o c (sendOn x y inp o c f (advanceTo s c)) := by
  intro c
  have hset : settleInput x y inp c (advanceTo s c) = advanceTo s c := Alone.settleInput (s := advanceTo s c) h
  unfold forwardFlit
  extract_lets r outs times blocked
  have houts : outs = [o] := by
    unfold outs r
    rw [hw.outs]
    simp [h.left]
  have htimes : times = [(o, c)] := by
    unfold times
    rw [houts]
    simp [outReady_of_alone h hw hready, c]
  have hblocked : blocked = false := by
    unfold blocked
    simp [h.termBlocks]
  rw [hblocked, htimes, houts]
  simp only [List.map_cons, List.map_nil, leastOf, if_false, Bool.false_eq_true, List.filter_cons, List.filter_nil, le_refl,
    decide_true, if_true, List.foldl_cons, List.foldl_nil, hset]
  have hleave : leaveOn x y inp c f o (advanceTo s c) = sendOn x y inp o c f (advanceTo s c) := if_pos hw.port
  rw [if_pos (by simp), if_pos h.left, show routeOuts r = [o] from hw.outs, List.length_singleton, branchTokens,
    if_pos rfl, hleave]
  rfl

/-! ### A flit goes out on a link (R197, R200, R204) -/

/-- A tile that sends the flit of an input on a link. -/
def sentFrom (inp o c h : Nat) (f : Flit) (q : Tile) : Tile :=
  let sc := scalarInput inp
  let lane := linkLane q inp
  let lat := linkLat q sc o h c
  let q := noteSent sc o c lat h (.str f) (bump c (if sc then .sOut o else .vOut o) 1 (noteStall sc o c q))
  { q with fret := { q.fret with
    used := mmod 0 q.fret.used (8 * o + lane) (· + 1), rr := if sc then q.fret.rr else mset 0 q.fret.rr o (lane + 1) } }

/-- A flit is on its way to an input, which it reaches in a cycle. -/
def comingTile (inp a : Nat) (f : Flit) (q : Tile) : Tile :=
  let pad := rPad (scalarInput inp) (routeOf q inp)
  { q with fret := { q.fret with
      bufs := mset [] q.fret.bufs inp (mget [] q.fret.bufs inp ++ [{ f with ready := a + pad, arr := false }]) } }

theorem sendOn_of_link (hl : linkTo s x y o = some (x2, y2)) :
    let q := getTile s x y
    let h := hopLat s x y x2 y2
    sendOn x y inp o c f s = modTile (setTile s x y (sentFrom inp o c h f q)) x2 y2
      (comingTile (8 * oppDir o + linkLane q inp) (c + linkLat q (scalarInput inp) o h c)
        { f with lat := f.lat + h, left := [] }) := by
  unfold sendOn
  rw [hl]
  rfl

/-- Both ends of the link, and nothing else. -/
theorem sendOn_tiles (w : mwf {} s.tiles = true) (hl : linkTo s x y o = some (x2, y2))
    (hne : tileKey x2 y2 ≠ tileKey x y) :
    let q := getTile s x y
    let h := hopLat s x y x2 y2
    let u := sendOn x y inp o c f s
    mwf {} u.tiles = true ∧ u.cycle = s.cycle ∧ getTile u x y = sentFrom inp o c h f q ∧
      getTile u x2 y2 = comingTile (8 * oppDir o + linkLane q inp) (c + linkLat q (scalarInput inp) o h c)
        { f with lat := f.lat + h, left := [] } (getTile s x2 y2) := by
  intro q h u
  have w1 : mwf {} (setTile s x y (sentFrom inp o c h f q)).tiles = true := setTile_wf _ _ _ w
  rw [show u = _ from sendOn_of_link hl]
  refine ⟨modTile_wf _ _ _ w1, rfl, ?_, ?_⟩
  · rw [getTile_modTile_ne _ w1 hne.symm, getTile_setTile _ _ _ w]
  · rw [getTile_modTile _ _ _ w1, getTile_setTile_ne _ w hne]

variable {h : Nat}

theorem noteStall_eq (sc : Bool) (o c : Nat) (q : Tile) : ∃ v m, noteStall sc o c q =
    { q with ctr := counted (if sc then .sStall o else .vStall o) (stallsBefore q sc o c) q, ev := v
             fret := { q.fret with stallTo := m } } := by
  obtain ⟨v, hv⟩ := bump_eq_counted c (if sc then .sStall o else .vStall o) (stallsBefore q sc o c) q
  exact ⟨v, _, by rw [noteStall, hv]⟩

/-- What the tile keeps, and the credit it takes. -/
theorem sentFrom_frame (inp o c h : Nat) (f : Flit) (q : Tile) : (sentFrom inp o c h f q).mu = q.mu ∧
    (sentFrom inp o c h f q).arr = q.arr ∧ (sentFrom inp o c h f q).fret.bufs = q.fret.bufs ∧
    (sentFrom inp o c h f q).fret.used = mmod 0 q.fret.used (8 * o + linkLane q inp) (· + 1) := by
  obtain ⟨v, m, hs⟩ := noteStall_eq (scalarInput inp) o c q
  obtain ⟨n, v', hb⟩ := bump_eq c (if scalarInput inp then .sOut o else .vOut o) 1 (noteStall (scalarInput inp) o c q)
  rw [sentFrom, hb, hs]
  exact ⟨rfl, rfl, rfl, rfl⟩

/-- An output's items and its stalls are counted apart. -/
theorem outCtr_ne_stallCtr (sc : Bool) (o : Nat) :
    ctrOffset (if sc then .sOut o else .vOut o) ≠ ctrOffset (if sc then .sStall o else .vStall o) := by
  cases sc <;> simp [ctrOffset]

theorem sentFrom_ctr (w : mwf 0 q.ctr = true) :
    let k : TileCtr := if scalarInput inp then .sOut o else .vOut o
    ctrVal (sentFrom inp o c h f q) k = min (ctrVal q k + 1) ctrMax := by
  intro k
  obtain ⟨v, m, hs⟩ := noteStall_eq (scalarInput inp) o c q
  have wc : mwf 0 (noteStall (scalarInput inp) o c q).ctr = true := by
    rw [hs]
    exact mwf_mset w
  have hstall : ctrVal (noteStall (scalarInput inp) o c q) k = ctrVal q k := by
    rw [hs]
    exact mget_mset_ne w (outCtr_ne_stallCtr _ o)
  rw [← hstall, ← ctrVal_bump (core := c) wc]
  exact ctrVal_congr rfl

/-! ### The hop of a flit that stands alone -/

theorem head_leftHead (h : q.fret.bufs = [(inp, [f])]) :
    mget [] (leftHead inp o q).fret.bufs inp = [{ f with left := f.left ++ [o] }] := by
  rw [leftHead, h]
  simp [mmod, mget, mset]

theorem leaveHead_cycle (w : mwf {} s.tiles = true) (h : (getTile s x y).fret.bufs = [(inp, [f])]) (ha : f.arr = true) :
    (leaveHead x y inp o c s).cycle = s.cycle :=
  popInput_cycle (f := { f with left := f.left ++ [o] }) (by rw [getTile_modTile _ _ _ w, head_leftHead h]) ha

/-- Tab, buffers and a credit are all that changes of the tile. -/
theorem leaveHead_here {α : Sort*} (p : Tile → α) (hp : ∀ q m, p { q with fret := { q.fret with credit := m } } = p q)
    (w : mwf {} s.tiles = true) (h : (getTile s x y).fret.bufs = [(inp, [f])]) (ha : f.arr = true) :
    ∃ tb, p (getTile (leaveHead x y inp o c s) x y) =
      p { getTile s x y with tab := tb, fret := { (getTile s x y).fret with bufs := [] } } := by
  obtain ⟨tb, hpop⟩ := popped_eq inp c (leftHead inp o (getTile s x y))
  have hempty : mset [] (leftHead inp o (getTile s x y)).fret.bufs inp [] = [] := by
    rw [leftHead, h]
    simp [mmod, mget, mset]
  refine ⟨tb, ?_⟩
  rw [leaveHead, popInput_proj (f := { f with left := f.left ++ [o] }) p hp (modTile_wf _ _ _ w)
      (by rw [getTile_modTile _ _ _ w, head_leftHead h]) ha,
    getTile_modTile _ _ _ (modTile_wf _ _ _ w), getTile_modTile _ _ _ w, hpop, hempty]
  rfl

theorem leaveHead_there {α : Sort*} (p : Tile → α) (hp : ∀ q m, p { q with fret := { q.fret with credit := m } } = p q)
    (w : mwf {} s.tiles = true) (h : (getTile s x y).fret.bufs = [(inp, [f])]) (ha : f.arr = true)
    (hne : tileKey x2 y2 ≠ tileKey x y) : p (getTile (leaveHead x y inp o c s) x2 y2) = p (getTile s x2 y2) := by
  rw [leaveHead, popInput_proj (f := { f with left := f.left ++ [o] }) p hp (modTile_wf _ _ _ w)
      (by rw [getTile_modTile _ _ _ w, head_leftHead h]) ha,
    getTile_modTile_ne _ (modTile_wf _ _ _ w) hne, getTile_modTile_ne _ w hne]

/-- Its input is empty, its lane has a credit less, and it is on the link. -/
theorem forwardFlit_spec (w : mwf {} s.tiles = true) (ha : Alone (getTile s x y) inp f) (hw : OneWay s x y inp o x2 y2)
    (hne : tileKey x2 y2 ≠ tileKey x y) (hnow : s.cycle ≤ c0) (hready : f.ready ≤ c0)
    (wc : mwf 0 (getTile s x y).ctr = true)
    (wused : mwf 0 (getTile s x y).fret.used = true) (wbufs : mwf [] (getTile s x2 y2).fret.bufs = true) :
    let q := getTile s x y
    let sc := scalarInput inp
    let c := outFree q sc o c0
    let h := hopLat s x y x2 y2
    let inp2 := 8 * oppDir o + linkLane q inp
    let there := getTile s x2 y2
    let k : TileCtr := if sc then .sOut o else .vOut o
    let u := forwardFlit x y inp c0 f s
    let post := getTile u x y
    u.cycle = c ∧ mget [] post.fret.bufs inp = [] ∧
    mget 0 post.fret.used (8 * o + linkLane q inp) = mget 0 q.fret.used (8 * o + linkLane q inp) + 1 ∧
    ctrVal post k = min (ctrVal q k + 1) ctrMax ∧
    mget [] (getTile u x2 y2).fret.bufs inp2 = mget [] there.fret.bufs inp2 ++
      [{ f with lat := f.lat + h, arr := false
                ready := c + linkLat q sc o h c + rPad (scalarInput inp2) (routeOf there inp2) }] ∧
    post.mu = q.mu ∧ post.arr = q.arr ∧ (getTile u x2 y2).mu = there.mu := by
  intro q sc c h inp2 there k u post
  obtain ⟨ws, hcycle, hhere, hthere⟩ := sendOn_tiles (s := advanceTo s c) (inp := inp) (c := c) (f := f) w hw.link hne
  obtain ⟨hmu, harr, hbufs, hused⟩ := sentFrom_frame inp o c h f q
  have hleave : u = leaveHead x y inp o c (sendOn x y inp o c f (advanceTo s c)) := forwardFlit_of_alone ha hw hready
  have hone : (getTile (sendOn x y inp o c f (advanceTo s c)) x y).fret.bufs = [(inp, [f])] := by
    rw [hhere]
    exact hbufs.trans ha.bufs
  have here {α : Type} (p : Tile → α) (hp : ∀ q m, p { q with fret := { q.fret with credit := m } } = p q) :
      ∃ tb, p post =
        p { sentFrom inp o c h f q with tab := tb, fret := { (sentFrom inp o c h f q).fret with bufs := [] } } := by
    have := leaveHead_here (o := o) (c := c) p hp ws hone ha.arr
    rwa [← hleave, hhere] at this
  have far {α : Type} (p : Tile → α) (hp : ∀ q m, p { q with fret := { q.fret with credit := m } } = p q) :
      p (getTile u x2 y2) = p (comingTile inp2 (c + linkLat q sc o h c) { f with lat := f.lat + h, left := [] } there) := by
    rw [hleave, leaveHead_there p hp ws hone ha.arr hne, hthere]
    rfl
  refine ⟨?_, ?_, ?_, ?_, ?_, ?_, ?_, ?_⟩
  · rw [hleave, leaveHead_cycle ws hone ha.arr, hcycle]
    exact max_eq_right (hnow.trans (outFree_ge ..))
  · obtain ⟨tb, e⟩ := here (fun q => mget [] q.fret.bufs inp) fun _ _ => rfl
    exact e
  · obtain ⟨tb, e⟩ := here (fun q => mget 0 q.fret.used _) fun _ _ => rfl
    exact e.trans ((congrArg (mget 0 · _) hused).trans (mget_mmod wused))
  · obtain ⟨tb, e⟩ := here (fun q => ctrVal q k) fun _ _ => rfl
    exact e.trans (sentFrom_ctr (h := h) (f := f) wc)
  · rw [far (fun q => mget [] q.fret.bufs inp2) fun _ _ => rfl, ← ha.left]
    exact mget_mset wbufs
  · obtain ⟨tb, e⟩ := here (·.mu) fun _ _ => rfl
    exact e.trans hmu
  · obtain ⟨tb, e⟩ := here (·.arr) fun _ _ => rfl
    exact e.trans harr
  · rw [far (·.mu) fun _ _ => rfl]
    rfl

/-! ### An uncorrectable flit (R213) -/

theorem upsetHead_bufs (h : q.fret.bufs = [(inp, [f])]) :
    (upsetHead inp c f q).fret.bufs = [(inp, [{ f with poison := true }])] := by
  show mset [] q.fret.bufs inp _ = _
  rw [h]
  simp [mset]

theorem Alone.upsetHead (h : Alone q inp f) : Alone (upsetHead inp c f q) inp { f with poison := true } where
  bufs := upsetHead_bufs h.bufs
  term := h.term
  arr := h.arr
  left := h.left
  epoch := h.epoch
  free := h.free

/-- Where a tile lies does not change with its flit. -/
theorem hopLat_upsetHead (w : mwf {} s.tiles = true) :
    hopLat (modTile s x y (upsetHead inp c f)) x y x2 y2 = hopLat s x y x2 y2 := by
  have hplace (a b : Nat) : physPlace (modTile s x y (upsetHead inp c f)) a b = physPlace s a b := by
    show (match locate s.grade s.defects a b with
      | none => (0, 0, 0)
      | some (n, c', p) => (n, (getTile (modTile s x y (upsetHead inp c f)) a b).phys.getD (c', p))) = _
    rw [getTile_modTile_proj (f := upsetHead inp c f) (·.phys) w (fun _ => rfl)]
    rfl
  unfold hopLat
  rw [hplace, hplace]

theorem linkTo_upsetHead (w : mwf {} s.tiles = true) :
    linkTo (modTile s x y (upsetHead inp c f)) x y o = linkTo s x y o := by
  have hfailed : (getTile (modTile s x y (upsetHead inp c f)) x y).fret.failed = (getTile s x y).fret.failed :=
    getTile_modTile_proj (f := upsetHead inp c f) (·.fret.failed) w (fun _ => rfl) x y
  unfold linkTo
  rw [hfailed]
  rfl

theorem OneWay.upsetHead (w : mwf {} s.tiles = true) (h : OneWay s x y inp o x2 y2) :
    OneWay (modTile s x y (upsetHead inp c f)) x y inp o x2 y2 where
  valid := by rw [getTile_modTile _ _ _ w]; exact h.valid
  outs := by rw [getTile_modTile _ _ _ w]; exact h.outs
  port := h.port
  link := (linkTo_upsetHead w).trans h.link
  credit := by rw [getTile_modTile _ _ _ w]; exact h.credit
  aged := by rw [getTile_modTile _ _ _ w]; exact h.aged

end Sys2Proof.Machine

open Sys2Proof Sys2Proof.Machine

variable {s : State} {t : TileId} {i : FlitIn} {f : Flit} {u : Upset}

theorem exec_flitHop (hg : OnGrid s t) (hon : fretOn s t.x t.y = true) :
    exec (.flitHop t i u) s = .next (hopFlit t.x t.y (inputNum i) u s) := by
  show execFlitHop t i u s = _
  rw [execFlitHop, onTile, if_pos hg.tile, if_pos hon]

/-- R302: a parity error of the entry halts the tile. -/
theorem hopFlit_of_parity (hg : OnGrid s t) (h : Alone (tileOf s t) (inputNum i) f) (hu : u.parity = true)
    (hst : (tileOf s t).tab.st ≠ .halted) :
    let s' := hopFlit t.x t.y (inputNum i) u s
    let post := tileOf s' t
    s'.cycle = max s.cycle f.ready ∧ post.tab.st = .halted ∧ post.fret.bufs = (tileOf s t).fret.bufs ∧
      post.ev = raisePort (tileOf s t).ev (mkEv .tabParity 1 (inputNum i) (max s.cycle f.ready)) ∧
      post.mu = (tileOf s t).mu := by
  obtain ⟨n, hn⟩ := closeCycle_eq (max s.cycle f.ready) (tileOf s t)
  have hhalt : haltAny (max s.cycle f.ready) .tabParity 1 (inputNum i) (closeCycle (max s.cycle f.ready) (tileOf s t)) =
      haltWith (max s.cycle f.ready) .tabParity 1 (inputNum i)
        { tileOf s t with tab := { (tileOf s t).tab with nextCore := n } } := by
    rw [hn]
    exact if_neg hst
  intro s' post
  have hs' : s' = modTile (advanceTo s (max s.cycle f.ready)) t.x t.y fun q =>
      haltAny (max s.cycle f.ready) .tabParity 1 (inputNum i) (closeCycle (max s.cycle f.ready) q) :=
    (hopFlit_of_alone h).trans (if_pos hu)
  have hpost : post = haltAny (max s.cycle f.ready) .tabParity 1 (inputNum i)
      (closeCycle (max s.cycle f.ready) (tileOf s t)) := by
    rw [show post = getTile s' t.x t.y from rfl, hs']
    exact getTile_modTile (s := advanceTo s (max s.cycle f.ready)) _ _ _ hg.maps
  rw [hpost, hhalt, hs']
  exact ⟨max_eq_right (Nat.le_max_left ..), rfl, rfl, rfl, rfl⟩

/-- R197: without a valid entry the flit is discarded and counted. -/
theorem hopFlit_of_invalid (hg : OnGrid s t) (h : Alone (tileOf s t) (inputNum i) f) (hu : u.parity = false)
    (hr : rValid (routeOf (tileOf s t) (inputNum i)) = false) (wc : mwf 0 (tileOf s t).ctr = true) :
    let s' := hopFlit t.x t.y (inputNum i) u s
    let post := tileOf s' t
    s'.cycle = max s.cycle f.ready ∧ mget [] post.fret.bufs (inputNum i) = [] ∧
      ctrVal post .discard = min (ctrVal (tileOf s t) .discard + 1) ctrMax ∧ post.mu = (tileOf s t).mu := by
  generalize inputNum i = inp at *
  intro s' post
  let c := max s.cycle f.ready
  let s1 := modTile (advanceTo s c) t.x t.y fun q => tileEvent c .routeMissing inp 0 (bump c .discard 1 q)
  have w1 : mwf {} s1.tiles = true := modTile_wf _ _ _ hg.maps
  have hs' : s' = popInput t.x t.y inp c s1 :=
    (hopFlit_of_alone h).trans ((if_neg (by rw [hu]; decide)).trans (if_pos (by rw [Bool.not_eq_true', ← hr])))
  have htile : getTile s1 t.x t.y = tileEvent c .routeMissing inp 0 (bump c .discard 1 (tileOf s t)) :=
    getTile_modTile _ _ _ hg.maps
  obtain ⟨n, v, hb⟩ := bump_eq c .discard 1 (tileOf s t)
  have hbufs : (getTile s1 t.x t.y).fret.bufs = [(inp, [f])] := by
    rw [htile, hb]
    exact h.bufs
  have hhead : mget [] (getTile s1 t.x t.y).fret.bufs inp = [f] := by
    rw [hbufs]
    simp [mget]
  obtain ⟨tb, hpop⟩ := popped_eq inp c (getTile s1 t.x t.y)
  have here {α : Type} (p : Tile → α) (hp : ∀ q m, p { q with fret := { q.fret with credit := m } } = p q) :
      p post = p (popped inp c (getTile s1 t.x t.y)) := by
    rw [show post = getTile s' t.x t.y from rfl, hs', popInput_proj p hp w1 hhead h.arr, getTile_modTile _ _ _ w1]
  refine ⟨?_, ?_, ?_, ?_⟩
  · rw [hs', popInput_cycle hhead h.arr]
    exact max_eq_right (Nat.le_max_left ..)
  · rw [here (fun q => mget [] q.fret.bufs inp) fun _ _ => rfl, hpop, hbufs]
    simp [mset, mget]
  · rw [here (ctrVal · .discard) fun _ _ => rfl, hpop, ← ctrVal_bump (core := c) wc, htile]
    rfl
  · rw [here (·.mu) fun _ _ => rfl, hpop, htile, hb]
    rfl

/-- Settles O32: a flit that stands alone meets one branch of the hop, and on its link output two tiles change. -/
theorem flitHops : Obligations.FlitHops := by
  unfold Obligations.FlitHops
  intro s t i f u hg hon pre inp r sc lane hbufs hterm harr hleft hepoch hfree wc
  have ha : Alone (tileOf s t) inp f := ⟨hbufs, hterm, harr, hleft, hepoch, hfree⟩
  refine ⟨fun hu hst => ⟨_, exec_flitHop hg hon, hopFlit_of_parity hg ha hu hst⟩,
    fun hu hr => ⟨_, exec_flitHop hg hon, hopFlit_of_invalid hg ha hu hr wc⟩, ?_⟩
  intro o x2 y2 hu hr houts hport hlink hne hcredit haged wused wbufs
  have hw : OneWay s t.x t.y inp o x2 y2 := ⟨hr, houts, hport, hlink, hcredit, haged⟩
  have hready : f.ready ≤ max s.cycle f.ready := Nat.le_max_right ..
  have hhop : hopFlit t.x t.y inp u s = if u.flit then forwardFlit t.x t.y inp (max s.cycle f.ready)
        { f with poison := true } (modTile s t.x t.y (upsetHead inp (max s.cycle f.ready) f))
      else forwardFlit t.x t.y inp (max s.cycle f.ready) f s :=
    (hopFlit_of_alone ha).trans
      ((if_neg (by rw [hu]; decide)).trans (if_neg (by rw [Bool.not_eq_true', Bool.not_eq_false]; exact hr)))
  refine ⟨_, exec_flitHop hg hon, ?_⟩
  rw [show hopFlit t.x t.y (inputNum i) u s = _ from hhop]
  cases hflit : u.flit with
  | false =>
    rw [if_neg (by decide), Bool.or_false]
    exact forwardFlit_spec hg.maps ha hw hne (Nat.le_max_left ..) hready wc wused wbufs
  | true =>
    rw [if_pos rfl, Bool.or_true]
    have hq : getTile (modTile s t.x t.y (upsetHead inp (max s.cycle f.ready) f)) t.x t.y =
      upsetHead inp (max s.cycle f.ready) f pre := getTile_modTile _ _ _ hg.maps
    have hq2 : getTile (modTile s t.x t.y (upsetHead inp (max s.cycle f.ready) f)) x2 y2 = getTile s x2 y2 :=
      getTile_modTile_ne _ hg.maps hne
    have hq1 : Alone (getTile (modTile s t.x t.y (upsetHead inp (max s.cycle f.ready) f)) t.x t.y) inp
        { f with poison := true } := by
      rw [hq]
      exact ha.upsetHead
    have := forwardFlit_spec (modTile_wf _ _ (upsetHead inp (max s.cycle f.ready) f) hg.maps) hq1
      (hw.upsetHead hg.maps) hne (Nat.le_max_left ..) hready (hq ▸ wc) (hq ▸ wused) (hq2 ▸ wbufs)
    rw [hq, hq2, hopLat_upsetHead hg.maps] at this
    exact this
end

/-! ## The stream engine's entry: what every step of it keeps (R333, R355, R356) -/

section
namespace Sys2Proof.Machine

variable {s s' s'' : State} {p : Nat}

/-! ### What an entry goes by -/

/-- What of a partition the entry of its stream engine goes by, but for the entry itself. -/
structure EngView where
  st : PState
  suspended : Bool
  port : Nat
  epoch : BitVec 4
  lo : Nat
  lists : List CmdList

def engView (q : Partition) : EngView := ⟨q.st, q.suspended, q.port, q.epoch, q.lo, (getEng q 1).lists⟩

/-- What of a port an entry goes by. -/
structure PortView where
  up : Bool
  filter : List Nat

def portView (q : Port) : PortView := ⟨q.up, q.filter⟩

/-- The stacks of a die that are in service. -/
structure StackView where
  up0 : Bool
  up1 : Bool

def stackView (sp : Spine) : StackView := ⟨sp.up0, sp.up1⟩

/-- The parts of the device that an entry reads and never changes. -/
structure DeviceView where
  tiles : Tiles
  defects : List DefectRec
  grade : Grade
  power : Power
  boot : Boot

def deviceView (s : State) : DeviceView := ⟨s.tiles, s.defects, s.grade, s.power, s.boot⟩

/-- An entry of a partition's stream engine has gone on from s to s': what it goes by is as before. -/
structure Works (p : Nat) (s s' : State) : Prop where
  device : deviceView s' = deviceView s
  maps : EngineMaps s' p
  part : engView (getPart s' p) = engView (getPart s p)
  port : ∀ o, portView (getPort s' o) = portView (getPort s o)
  spine : ∀ n, stackView (getSpine s' n) = stackView (getSpine s n)

namespace Works

theorem refl (w : EngineMaps s p) : Works p s s := ⟨rfl, w, rfl, fun _ => rfl, fun _ => rfl⟩

theorem trans (h : Works p s s') (h' : Works p s' s'') : Works p s s'' where
  device := h'.device.trans h.device
  maps := h'.maps
  part := h'.part.trans h.part
  port o := (h'.port o).trans (h.port o)
  spine n := (h'.spine n).trans (h.spine n)

theorem tiles (h : Works p s s') : s'.tiles = s.tiles := congrArg DeviceView.tiles h.device

theorem defects (h : Works p s s') : s'.defects = s.defects := congrArg DeviceView.defects h.device

theorem portNum (h : Works p s s') : (getPart s' p).port = (getPart s p).port := congrArg EngView.port h.part

theorem epoch (h : Works p s s') : (getPart s' p).epoch = (getPart s p).epoch := congrArg EngView.epoch h.part

theorem up (h : Works p s s') (o : Nat) : (getPort s' o).up = (getPort s o).up := congrArg PortView.up (h.port o)

theorem paToDa (h : Works p s s') (pa : Nat) : paToDa (getPart s' p) pa = paToDa (getPart s p) pa := by
  have hlo : (getPart s' p).lo = (getPart s p).lo := congrArg EngView.lo h.part
  rw [Machine.paToDa, hlo]
  rfl

theorem tileGate (h : Works p s s') : tileGate (getPart s' p) = tileGate (getPart s p) := by
  have hst : (getPart s' p).st = (getPart s p).st := congrArg EngView.st h.part
  have hsus : (getPart s' p).suspended = (getPart s p).suspended := congrArg EngView.suspended h.part
  unfold Machine.tileGate stateStatus
  rw [hst, hsus]

theorem trackedLines (h : Works p s s') (pa n : Nat) : trackedLines s' p pa n = trackedLines s p pa n := by
  have hf (o : Nat) : (getPort s' o).filter = (getPort s o).filter := congrArg PortView.filter (h.port o)
  unfold Machine.trackedLines
  rw [h.portNum, hf]

theorem stackServes (h : Works p s s') (da : Nat) : stackServes s' da = stackServes s da := by
  have hboot : s'.boot = s.boot := congrArg DeviceView.boot h.device
  have hup0 : (getSpine s' (da / 2 ^ 37)).up0 = (getSpine s (da / 2 ^ 37)).up0 := congrArg StackView.up0 (h.spine _)
  have hup1 : (getSpine s' (da / 2 ^ 37)).up1 = (getSpine s (da / 2 ^ 37)).up1 := congrArg StackView.up1 (h.spine _)
  unfold Machine.stackServes sliceUp
  rw [hboot, hup0, hup1]

theorem tileTap (h : Works p s s') (e : Unit512) : tileTap s' e = tileTap s e := by
  have hgrade : s'.grade = s.grade := congrArg DeviceView.grade h.device
  unfold Machine.tileTap tileDie
  rw [hgrade]

theorem runList (h : Works p s s') : runList (getEng (getPart s' p) 1) = runList (getEng (getPart s p) 1) := by
  have hl : (getEng (getPart s' p) 1).lists = (getEng (getPart s p) 1).lists := congrArg EngView.lists h.part
  unfold Machine.runList
  rw [hl]

end Works

/-- The open entry is the one at the index of the list that runs. -/
theorem openEntry_eq_some {l : CmdList} {e : Unit512} {c : Entry} : openEntry s p 1 = some (l, e, c) ↔
    runList (getEng (getPart s p) 1) = some l ∧ (curOf s p).ended = none ∧ nth l.entries l.index 0 = e ∧ curOf s p = c := by
  unfold openEntry curOf
  dsimp only
  cases runList (getEng (getPart s p) 1) with
  | none => simp
  | some k =>
    cases hend : (getEng (getPart s p) 1).cur.ended with
    | some r => simp
    | none => simp; grind

theorem Works.openEntry {l : CmdList} {e : Unit512} {c : Entry} (h : Works p s s')
    (ho : openEntry s p 1 = some (l, e, c)) {c' : Entry} (hc : curOf s' p = c') (hend : c'.ended = none) :
    openEntry s' p 1 = some (l, e, c') := by
  obtain ⟨hl, -, he, -⟩ := openEntry_eq_some.mp ho
  exact openEntry_eq_some.mpr ⟨h.runList.trans hl, by rw [hc, hend], he, hc⟩

/-- Whether a packet may go depends on those that are out. -/
theorem mayIssue_congr (hi : s'.issued = s.issued) (ha : s'.asked = s.asked) (hk : s'.pktSeq = s.pktSeq) (i : Nat)
    (t : Option Nat) (g : Nat) : mayIssue s' i t g = mayIssue s i t g := by
  unfold mayIssue seqsOut
  rw [hi, ha, hk]

/-! ### The entry changes -/

variable {f : Entry → Entry}

theorem getEng_modEng {q : Partition} {k : Nat} {g : EngineQ → EngineQ} (w : mwf {} q.eng = true) :
    getEng (modEng q k g) k = g (getEng q k) := mget_mmod w

theorem modEng_wf {q : Partition} {k : Nat} {g : EngineQ → EngineQ} (w : mwf {} q.eng = true) :
    mwf {} (modEng q k g).eng = true := mwf_mmod w

theorem modPort_wf {o : Nat} {g : Port → Port} (w : mwf {} s.ports = true) : mwf {} (modPort s o g).ports = true := mwf_mmod w

theorem getPart_modCur (w : mwf {} s.parts = true) :
    getPart (modCur p 1 f s) p = modEng (getPart s p) 1 fun g => { g with cur := f g.cur } := getPart_modPart_same w

theorem getEng_modCur (w : EngineMaps s p) :
    getEng (getPart (modCur p 1 f s) p) 1 = { getEng (getPart s p) 1 with cur := f (curOf s p) } := by
  rw [getPart_modCur w.parts, getEng_modEng w.eng]
  rfl

theorem curOf_modCur (w : EngineMaps s p) : curOf (modCur p 1 f s) p = f (curOf s p) := by
  rw [curOf, getEng_modCur w]

theorem works_modCur (w : EngineMaps s p) : Works p s (modCur p 1 f s) where
  device := rfl
  maps := ⟨modPart_wf w.parts, w.ports, by rw [getPart_modCur w.parts]; exact modEng_wf w.eng, w.spines⟩
  part := by
    rw [engView, getEng_modCur w, getPart_modCur w.parts]
    rfl
  port _ := rfl
  spine _ := rfl

/-- Of the partition something else changes. -/
theorem works_modPart {g : Partition → Partition} (w : EngineMaps s p) (hv : engView (g (getPart s p)) = engView (getPart s p))
    (he : (g (getPart s p)).eng = (getPart s p).eng) :
    Works p s (modPart s p g) ∧ curOf (modPart s p g) p = curOf s p := by
  have hg : getPart (modPart s p g) p = g (getPart s p) := getPart_modPart_same w.parts
  refine ⟨⟨rfl, ⟨modPart_wf w.parts, w.ports, by rw [hg, he]; exact w.eng, w.spines⟩, by rw [hg, hv], fun _ => rfl,
    fun _ => rfl⟩,
    ?_⟩
  rw [curOf, hg, getEng, he]
  rfl

/-- The entry ends. -/
theorem endEntry_spec {l : CmdList} {e : Unit512} {c : Entry} (w : EngineMaps s p) (ho : openEntry s p 1 = some (l, e, c))
    (st d0 d1 : Nat) : Works p s (endEntry p 1 st d0 d1 s) ∧
      curOf (endEntry p 1 st d0 d1 s) p = { c with ended := some (st, d0, d1) } ∧
      ∃ ps a, endEntry p 1 st d0 d1 s = { s with parts := ps, asked := a } := by
  obtain ⟨-, -, -, hc⟩ := openEntry_eq_some.mp ho
  let f : Entry → Entry := fun c => { c with ended := some (st, d0, d1) }
  have hw : Works p s (modCur p 1 f s) := works_modCur w
  have heq : endEntry p 1 st d0 d1 s =
      { modCur p 1 f s with asked := s.asked.filter fun r => !decide (r.part = p ∧ 2 ≤ r.issuer ∧ r.issuer ≤ 5) } := by
    rw [endEntry, ho]
    rfl
  refine ⟨?_, ?_, endEntry_eq ..⟩
  · rw [heq]
    exact ⟨hw.device, ⟨hw.maps.parts, hw.maps.ports, hw.maps.eng, hw.maps.spines⟩, hw.part, hw.port, hw.spine⟩
  · rw [heq, ← hc]
    exact curOf_modCur w

theorem endMoved_spec {l : CmdList} {e0 e : Unit512} {c0 c : Entry} (w : EngineMaps s p)
    (ho : openEntry s p 1 = some (l, e0, c0)) (st : Nat) : Works p s (endMoved p st e c s) ∧
      curOf (endMoved p st e c s) p = { c0 with ended := some (st, enMoved e c, c.poisoned) } ∧
      ∃ ps a, endMoved p st e c s = { s with parts := ps, asked := a } :=
  endEntry_spec w ho st (enMoved e c) c.poisoned

/-! ### What the engine counts and folds -/

/-- Counts, check channels and reports change: the entry, and what the ports sent, are as before. -/
structure Tallied (p : Nat) (s s' : State) : Prop extends Works p s s' where
  cur : curOf s' p = curOf s p
  out : ∀ o, (getPort s' o).out = (getPort s o).out
  rest : s' = { s with parts := s'.parts, ports := s'.ports, sage := s'.sage }

/-- No packet has left or come, stack memory and the clock stand. -/
structure Kept (s s' : State) : Prop where
  issued : s'.issued = s.issued
  asked : s'.asked = s.asked
  pktSeq : s'.pktSeq = s.pktSeq
  resps : s'.resps = s.resps
  stk : s'.stk = s.stk
  cycle : s'.cycle = s.cycle

theorem Kept.trans (h : Kept s s') (h' : Kept s' s'') : Kept s s'' where
  issued := h'.issued.trans h.issued
  asked := h'.asked.trans h.asked
  pktSeq := h'.pktSeq.trans h.pktSeq
  resps := h'.resps.trans h.resps
  stk := h'.stk.trans h.stk
  cycle := h'.cycle.trans h.cycle

theorem kept_modCur : Kept s (modCur p 1 f s) := ⟨rfl, rfl, rfl, rfl, rfl, rfl⟩

theorem Tallied.kept (h : Tallied p s s') : Kept s s' := by
  rw [h.rest]
  exact ⟨rfl, rfl, rfl, rfl, rfl, rfl⟩

theorem Tallied.trans (h : Tallied p s s') (h' : Tallied p s' s'') : Tallied p s s'' where
  toWorks := h.toWorks.trans h'.toWorks
  cur := h'.cur.trans h.cur
  out o := (h'.out o).trans (h.out o)
  rest := by rw [h'.rest, h.rest]

theorem tallied_foldChannels (w : EngineMaps s p) (k : Nat → Chan → Bool) (bs : List Byte) :
    Tallied p s (foldChannels p k bs s) where
  toWorks := (works_modPart w rfl rfl).1
  cur := (works_modPart w rfl rfl).2
  out _ := rfl
  rest := rfl

/-- A count of a port changes. -/
theorem tallied_modPort {g : Port → Port} (w : EngineMaps s p) (o : Nat)
    (hg : portView (g (getPort s o)) = portView (getPort s o)) (hout : (g (getPort s o)).out = (getPort s o).out) :
    Tallied p s (modPort s o g) := by
  have hport (k : Nat) : getPort (modPort s o g) k = if k = o then g (getPort s o) else getPort s k := mget_mmod_eq w.ports o k
  refine ⟨⟨rfl, ⟨w.parts, modPort_wf w.ports, w.eng, w.spines⟩, rfl, fun k => ?_, fun _ => rfl⟩, rfl, fun k => ?_, rfl⟩
  · rw [hport]
    split
    next h => rw [hg, h]
    next => rfl
  · rw [hport]
    split
    next h => rw [hout, h]
    next => rfl

theorem tallied_sageEvent (w : EngineMaps s p) (c : EvCode) (a b : Nat) (q : Option Nat) :
    Tallied p s (sageEvent s c a b q) :=
  ⟨⟨rfl, ⟨w.parts, w.ports, w.eng, w.spines⟩, rfl, fun _ => rfl, fun _ => rfl⟩, rfl, fun _ => rfl, rfl⟩

theorem tallied_steCount (w : EngineMaps s p) (o n : Nat) (wr : Bool) : Tallied p s (steCount o wr n s) := by
  unfold steCount
  extract_lets q old new s1
  have h1 : Tallied p s s1 := tallied_modPort w o (by cases wr <;> rfl) (by cases wr <;> rfl)
  split
  · exact h1.trans (tallied_sageEvent h1.maps ..)
  · exact h1

theorem tallied_foldSnoop (w : EngineMaps s p) (e : Unit512) (src : Nat) (bs : List Byte) :
    Tallied p s (foldSnoop p e src bs s) :=
  tallied_foldChannels w (fun k c => bit (enSnoop e) k && decide (c.src.toNat = src)) bs

theorem tallied_steReads (w : EngineMaps s p) (e : Unit512) (bs : List Byte) : Tallied p s (steReads p e bs s) := by
  have h := tallied_steCount w (getPart s p).port bs.length false
  exact h.trans (tallied_foldSnoop h.maps ..)

theorem tallied_steWrites (w : EngineMaps s p) (e : Unit512) (bs : List Byte) : Tallied p s (steWrites p e bs s) := by
  have h := tallied_steCount w (getPart s p).port bs.length true
  exact h.trans (tallied_foldSnoop h.maps ..)

end Sys2Proof.Machine
end

/-! ## What an entry of the stream engine sends: packets, and requests to the host (R209, R214, R333, R356, Table 7.9) -/

section
namespace Sys2Proof.Machine

variable {s : State} {p : Nat}

/-! ### Fields of a header -/

/-- The first field of a word. -/
theorem fld_packFields_head (v n : Nat) (l : List (Nat × Nat)) : fld (packFields ((v, n) :: l)) 0 n = v % 2 ^ n := by
  rw [packFields, fld, Nat.shiftRight_zero, Nat.shiftLeft_eq, Nat.add_mul_mod_self_right, Nat.mod_mod]

/-- A field above the first. -/
theorem fld_packFields_skip {v n lo k : Nat} {l : List (Nat × Nat)} (h : n ≤ lo) :
    fld (packFields ((v, n) :: l)) lo k = fld (packFields l) (lo - n) k := by
  obtain ⟨j, rfl⟩ := Nat.exists_eq_add_of_le h
  have hpos := Nat.two_pow_pos n
  rw [packFields, fld, fld, Nat.shiftRight_add, Nat.add_sub_cancel_left, Nat.shiftLeft_eq, Nat.shiftRight_eq_div_pow _ n,
    Nat.add_mul_div_right _ _ hpos, Nat.div_eq_of_lt (Nat.mod_lt _ hpos), Nat.zero_add]

theorem header_fields (h : Hdr) : hKind (packHdr h) = h.kind % 2 ^ 4 ∧ hDx (packHdr h) = h.dx % 2 ^ 10 ∧
    hDy (packHdr h) = h.dy % 2 ^ 9 ∧ hTag (packHdr h) = h.tag % 2 ^ 16 ∧ hSeq (packHdr h) = h.seq % 2 ^ 16 ∧
    hNpay (packHdr h) = h.npay % 2 ^ 4 ∧ hWin (packHdr h) = h.win % 2 ^ 2 ∧ hOffset (packHdr h) = h.offset % 2 ^ 11 ∧
    hIssuer (packHdr h) = h.issuer % 2 ^ 4 := by
  refine ⟨?_, ?_, ?_, ?_, ?_, ?_, ?_, ?_, ?_⟩ <;>
    exact (fld_toNat_ofNat _ _ _ (by decide)).trans (by simp only [fld_packFields_skip, fld_packFields_head, Nat.reduceSub,
      Nat.reduceLeDiff])

/-! ### A packet to the entry's tile -/

/-- A packet of a partition's entry goes to the entry's tile. -/
def Addressed (q : Partition) (p : Nat) (e : Unit512) (kind npay : Nat) (pk : Packet) : Prop :=
  hKind pk.header = kind ∧ hDx pk.header = enX e ∧ hDy pk.header = enY e ∧ hNpay pk.header = npay ∧
    hIssuer pk.header = 2 + q.port ∧ hTag pk.header = p ∧ pk.epoch = q.epoch ∧ (kind = 1 → hWin pk.header = enWin e)

variable {tap : Option Nat} {kind npay ofs cmd : Nat} {rsegs : List (Nat × Nat)} {pay : List (Unit512 × Bool)} {e : Unit512}

/-- What the header of an entry's packet holds, but for its SEQ. -/
def tileHdr (s : State) (p kind npay ofs cmd : Nat) (rsegs : List (Nat × Nat)) (e : Unit512) : Hdr :=
  { kind := kind, dx := enX e, dy := enY e, tag := p, npay := npay, win := if kind = 1 then enWin e else 0
    offset := ofs, issuer := streamIssuer (getPart s p).port, rsegs := rsegs, cmd := cmd }

/-- The state once the packet has left: the entry counts it, and a write is noted. -/
theorem sendTile_eq : sendTile p tap kind npay ofs cmd rsegs pay e s =
    let s := modCur p 1 (fun c => { c with packets := c.packets + 1, lastSent := some s.cycle })
      (issuePacket p tap (tileHdr s p kind npay ofs cmd rsegs e) pay s)
    if kind = 2 then s else modPart s p fun q => { q with tileio := true } := rfl

/-- A packet leaves, and nothing else but its partition changes. -/
theorem sendTile_spec (w : EngineMaps s p) :
    let u := sendTile p tap kind npay ofs cmd rsegs pay e s
    Works p s u ∧ curOf u p = { curOf s p with packets := (curOf s p).packets + 1, lastSent := some s.cycle } ∧
      u = { s with parts := u.parts, issued := u.issued, asked := u.asked, pktSeq := u.pktSeq } ∧
      (kind ≠ 2 → (getPart u p).tileio = true) := by
  intro u
  let s1 := issuePacket p tap (tileHdr s p kind npay ofs cmd rsegs e) pay s
  let f : Entry → Entry := fun c => { c with packets := c.packets + 1, lastSent := some s.cycle }
  have w1 : EngineMaps s1 p := ⟨w.parts, w.ports, w.eng, w.spines⟩
  have h1 : Works p s s1 := ⟨rfl, w1, rfl, fun _ => rfl, fun _ => rfl⟩
  have h2 : Works p s (modCur p 1 f s1) := h1.trans (works_modCur w1)
  have hcur : curOf (modCur p 1 f s1) p = f (curOf s p) := curOf_modCur w1
  have hu : u = if kind = 2 then modCur p 1 f s1 else modPart (modCur p 1 f s1) p fun q => { q with tileio := true } :=
    sendTile_eq
  rw [hu]
  split
  next hk => exact ⟨h2, hcur, rfl, fun h => absurd hk h⟩
  next =>
    obtain ⟨hw, hc⟩ := works_modPart (g := fun q => { q with tileio := true }) h2.maps rfl rfl
    exact ⟨h2.trans hw, hc.trans hcur, rfl, fun _ => by rw [getPart_modPart_same h2.maps.parts]⟩

/-- The packet that leaves; a read is outstanding from then on. -/
theorem sendTile_packet (hp : p < 4) (ho : (getPart s p).port < 4) (hk : kind < 16) (hn : npay < 16) (hofs : ofs < 2048) :
    let u := sendTile p tap kind npay ofs cmd rsegs pay e s
    ∃ pk, u.issued = s.issued ++ [(pk, tap)] ∧ Addressed (getPart s p) p e kind npay pk ∧ hOffset pk.header = ofs ∧
      pk.payload = pay ∧ (kind = 2 → ∃ r, u.asked = s.asked ++ [r] ∧ r.issuer = 2 + (getPart s p).port ∧ r.tag = p ∧
        r.seq % 65536 = hSeq pk.header ∧ r.npay = npay) := by
  intro u
  let h := tileHdr s p kind npay ofs cmd rsegs e
  let seq := mget 0 s.pktSeq (seqKey h.issuer tap h.tag)
  obtain ⟨hkind, hdx, hdy, htag, hseq, hnpay, hwin, hoffset, hissuer⟩ := header_fields { h with seq := seq }
  have hissued : u.issued = (issuePacket p tap h pay s).issued := by
    rw [show u = _ from sendTile_eq]
    dsimp only
    split <;> rfl
  have hasked : u.asked = (issuePacket p tap h pay s).asked := by
    rw [show u = _ from sendTile_eq]
    dsimp only
    split <;> rfl
  refine ⟨_, hissued, ⟨hkind.trans (Nat.mod_eq_of_lt hk), hdx.trans (Nat.mod_eq_of_lt (fld_lt ..)),
    hdy.trans (Nat.mod_eq_of_lt (fld_lt ..)), hnpay.trans (Nat.mod_eq_of_lt hn), ?_, ?_, rfl, fun h1 => ?_⟩,
    hoffset.trans (Nat.mod_eq_of_lt hofs), rfl, fun h2 => ⟨_, hasked.trans (if_pos h2), rfl, rfl, hseq.symm, rfl⟩⟩
  · exact hissuer.trans (Nat.mod_eq_of_lt (show 2 + (getPart s p).port < 16 by omega))
  · exact htag.trans (Nat.mod_eq_of_lt (show p < 65536 by omega))
  · rw [hwin]
    show (if kind = 1 then enWin e else 0) % 2 ^ 2 = enWin e
    rw [if_pos h1]
    exact Nat.mod_eq_of_lt (fld_lt ..)

/-- The last packet has left. -/
theorem sentAll_eq (p : Nat) (e : Unit512) (s : State) : ∃ ps a, sentAll p e s = { s with parts := ps, asked := a } := by
  unfold sentAll
  split
  · exact ⟨_, _, rfl⟩
  · split
    · exact endEntry_eq ..
    · exact ⟨_, _, rfl⟩

theorem sentAll_of_confirm (w : EngineMaps s p) (h : enConfirm e = true) :
    Works p s (sentAll p e s) ∧ curOf (sentAll p e s) p = { curOf s p with polled := s.cycle } := by
  rw [sentAll, if_pos h]
  exact ⟨works_modCur w, curOf_modCur w⟩

theorem sentAll_of_plain {l : CmdList} {e0 : Unit512} {c : Entry} (w : EngineMaps s p) (ho : openEntry s p 1 = some (l, e0, c))
    (h : enConfirm e = false) : Works p s (sentAll p e s) ∧
      curOf (sentAll p e s) p = { c with ended := some (0, enMoved e c, c.poisoned) } := by
  rw [sentAll, if_neg (by simp [h]), ho]
  obtain ⟨hw, hc, -⟩ := endMoved_spec (e := e) (c := c) w ho 0
  exact ⟨hw, hc⟩

/-! ### Requests to the host -/

variable {c : Entry}

theorem askHost_eq (p ofs : Nat) (e : Unit512) (c : Entry) (s : State) :
    ∃ ps qs a, askHost p ofs e c s = { s with parts := ps, ports := qs, asked := a } := by
  unfold askHost
  extract_lets o a n
  split
  · exact ⟨_, _, _, rfl⟩
  · obtain ⟨ps, b, h⟩ := endEntry_eq (p := p) 1 (evNum .hostLinkDown) (enMoved e c) c.poisoned s
    exact ⟨ps, s.ports, b, h⟩

/-- A message goes to a host whose link is up while the entry waits for its answer. -/
theorem hostAsked_spec (w : EngineMaps s p) {o a n : Nat} {x : HostOut} (hup : (getPort s o).up = true) :
    let u := hostSend o x (modCur p 1 (fun c => { c with asked := some s.cycle, reqAddr := a, reqLen := n }) s)
    Works p s u ∧ curOf u p = { curOf s p with asked := some s.cycle, reqAddr := a, reqLen := n } ∧
      u = { s with parts := u.parts, ports := u.ports } ∧ (getPort u o).out = (getPort s o).out ++ [x] := by
  intro u
  let f : Entry → Entry := fun c => { c with asked := some s.cycle, reqAddr := a, reqLen := n }
  have h1 : Works p s (modCur p 1 f s) := works_modCur w
  have hport (k : Nat) : getPort u k =
      if k = o then { getPort s o with out := (getPort s o).out ++ [x] } else getPort s k := by
    have : getPort u k = if k = o then _ else getPort s k := mget_mmod_eq w.ports o k
    rw [this]
    congr 1
    exact if_pos hup
  refine ⟨⟨rfl, ⟨h1.maps.parts, modPort_wf w.ports, h1.maps.eng, w.spines⟩, h1.part, fun k => ?_, fun _ => rfl⟩,
    curOf_modCur (f := f) w, rfl, by rw [hport, if_pos rfl]⟩
  rw [hport]
  split
  next h => rw [h]; rfl
  next => rfl

theorem askHost_spec (w : EngineMaps s p) (hup : (getPort s (getPart s p).port).up = true) :
    let u := askHost p ofs e c s
    let a := enHaddr e + ofs
    let n := min (64 - a % 64) (hostTotal e - ofs)
    Works p s u ∧ curOf u p = { curOf s p with asked := some s.cycle, reqAddr := a, reqLen := n } ∧
      u = { s with parts := u.parts, ports := u.ports } ∧
      (getPort u (getPart s p).port).out = (getPort s (getPart s p).port).out ++ [.readReq a n] := by
  intro u a n
  rw [show u = _ from if_pos hup]
  exact hostAsked_spec w hup

theorem giveHost_spec {bs : List Byte} (w : EngineMaps s p) (hup : (getPort s (getPart s p).port).up = true) :
    let u := giveHost p ofs bs e c s
    let a := enHaddr e + ofs
    Works p s u ∧ curOf u p = { curOf s p with asked := some s.cycle, reqAddr := a, reqLen := bs.length } ∧
      u = { s with parts := u.parts, ports := u.ports } ∧
      (getPort u (getPart s p).port).out =
        (getPort s (getPart s p).port).out ++ [.write a bs (decide (bs.length = 64))] := by
  intro u a
  rw [show u = _ from if_pos hup]
  exact hostAsked_spec w hup

end Sys2Proof.Machine
end

/-! ## The stacks under the stream engine: reads that arrive, chunks that are checked (R236-R243) -/

section
namespace Sys2Proof.Machine

variable {s s' s'' : State} {p n : Nat}

/-! ### Spines and stack memory alone -/

/-- Only spines and stack memory have changed, and no stack has gone in or out of service. -/
structure StackSide (s s' : State) : Prop where
  rest : s' = { s with spines := s'.spines, stk := s'.stk }
  wf : mwf {} s.spines = true → mwf {} s'.spines = true
  spine : mwf {} s.spines = true → ∀ n, stackView (getSpine s' n) = stackView (getSpine s n)

namespace StackSide

theorem refl (s : State) : StackSide s s := ⟨rfl, id, fun _ _ => rfl⟩

theorem trans (h : StackSide s s') (h' : StackSide s' s'') : StackSide s s'' where
  rest := by rw [h'.rest, h.rest]
  wf w := h'.wf (h.wf w)
  spine w n := (h'.spine (h.wf w) n).trans (h.spine w n)

/-- To the partition's entry it is nothing. -/
theorem works (h : StackSide s s') (w : EngineMaps s p) : Works p s s' ∧ getPart s' p = getPart s p := by
  have hview := h.spine w.spines
  have wf := h.wf w.spines
  rw [h.rest]
  exact ⟨⟨rfl, ⟨w.parts, w.ports, w.eng, wf⟩, rfl, fun _ => rfl, hview⟩, rfl⟩

end StackSide

theorem getSpine_modSpine_same {f : Spine → Spine} (w : mwf {} s.spines = true) :
    getSpine (modSpine s n f) n = f (getSpine s n) := mget_mmod w

theorem stackSide_modSpine {f : Spine → Spine} (hf : ∀ sp, stackView (f sp) = stackView sp) : StackSide s (modSpine s n f) where
  rest := rfl
  wf w := mwf_mmod w
  spine w k := by
    rw [getSpine, modSpine, mget_mmod_eq w]
    split
    next h => rw [hf, h]; rfl
    next => rfl

theorem stackSide_spineBump (n off k : Nat) (s : State) : StackSide s (spineBump n off k s) :=
  stackSide_modSpine fun sp => by
    dsimp only
    split <;> rfl

theorem stackSide_spineEvent (n : Nat) (c : EvCode) (a b : Nat) (s : State) : StackSide s (spineEvent n c a b s) :=
  stackSide_modSpine fun _ => rfl

theorem stackSide_sliceServe (n sl arr dur : Nat) (s : State) : StackSide s (sliceServe n sl arr dur s).2 :=
  (stackSide_spineBump ..).trans (stackSide_modSpine fun _ => rfl)

theorem stackSide_closeEntries (da : Nat) (s : State) : StackSide s (closeEntries da s) := stackSide_modSpine fun _ => rfl

theorem stackSide_stk (k : Stacks) (s : State) : StackSide s { s with stk := k } := ⟨rfl, id, fun _ _ => rfl⟩

/-! ### A read reaches its slice (R237, R238) -/

/-- What a read does to its slice: the slice then holds a read of the granule that this reader has joined. -/
theorem arriveRead_eq (n g arr : Nat) (rd : Reader) (s : State) : ∃ v l f, StackSide s v ∧ v.stk = s.stk ∧
    arriveRead n g arr rd s = modSpine v n f ∧
    (∀ sp, stackView (f sp) = stackView sp ∧ (f sp).reads = mset [] sp.reads (sliceOf (256 * g)) l) ∧
    ∃ r ∈ l, r.granule = g ∧ rd ∈ r.joins := by
  unfold arriveRead
  extract_lets sl l s1 a hit s2 free
  split
  next h =>
    obtain ⟨r, hr, hhit⟩ := List.any_eq_true.mp h
    have hg : r.granule = g := by
      simp only [hit, Bool.and_eq_true, decide_eq_true_eq] at hhit
      exact hhit.1.1.1
    have hmem : { r with joins := r.joins ++ [rd] } ∈ l.map fun r => if hit r then { r with joins := r.joins ++ [rd] } else r :=
      List.mem_map.mpr ⟨r, hr, if_pos hhit⟩
    exact ⟨s2, _, _, (stackSide_spineBump ..).trans (stackSide_spineBump ..), rfl, rfl, fun _ => ⟨rfl, rfl⟩, _, hmem, hg,
      List.mem_append_right r.joins (List.mem_singleton_self rd)⟩
  next =>
    have hserve := stackSide_sliceServe n sl arr serveCycles s1
    have hstk : (sliceServe n sl arr serveCycles s1).2.stk = s1.stk := rfl
    generalize sliceServe n sl arr serveCycles s1 = z at hserve hstk
    obtain ⟨⟨a', start⟩, v⟩ := z
    dsimp only
    have hside : StackSide s (spineBump n 0x10 1 v) := ((stackSide_spineBump ..).trans hserve).trans (stackSide_spineBump ..)
    refine ⟨if free then spineBump n 0x10 1 v else spineBump n 0x20 1 (spineBump n 0x10 1 v), _, _, ?_, ?_, rfl,
      fun _ => ⟨rfl, rfl⟩, _, List.mem_append_right l (List.mem_singleton_self _), rfl, List.mem_singleton_self rd⟩
    · split
      · exact hside
      · exact hside.trans (stackSide_spineBump ..)
    · split
      · exact hstk
      · exact hstk

theorem stackSide_arriveRead (n g arr : Nat) (rd : Reader) (s : State) :
    StackSide s (arriveRead n g arr rd s) ∧ (arriveRead n g arr rd s).stk = s.stk := by
  obtain ⟨v, l, f, hside, hstk, heq, hf, -⟩ := arriveRead_eq n g arr rd s
  rw [heq]
  exact ⟨hside.trans (stackSide_modSpine fun sp => (hf sp).1), hstk⟩

theorem arriveRead_joins (w : mwf {} s.spines = true) (n g arr : Nat) (rd : Reader) :
    ∃ r ∈ mget [] (getSpine (arriveRead n g arr rd s) n).reads (sliceOf (256 * g)), r.granule = g ∧ rd ∈ r.joins := by
  obtain ⟨v, l, f, hside, -, heq, hf, r, hr, hg, hrd⟩ := arriveRead_eq n g arr rd s
  rw [heq, getSpine_modSpine_same (hside.wf w), (hf _).2, mget_mset_of_ne (List.ne_nil_of_mem hr), if_pos rfl]
  exact ⟨r, hr, hg, hrd⟩

/-- A granule lies in one slice. -/
theorem sliceOf_granule (a : Nat) : sliceOf (256 * (a / 256)) = sliceOf a := by
  have h (k n : Nat) : fld (256 * (a / 256)) (8 + k) n = fld a (8 + k) n := by
    rw [fld, fld, Nat.shiftRight_add, Nat.shiftRight_add, Nat.shiftRight_eq_div_pow _ 8, Nat.shiftRight_eq_div_pow _ 8,
      Nat.mul_div_cancel_left _ (by decide)]
  unfold sliceOf
  rw [h 0 6, h 6 6, h 12 6, h 18 6, h 24 5]

/-! ### Chunks of a read that returns (R242, R243) -/

theorem stackSide_checkChunk (n sl : Nat) (r : DramRead) (e : ChunkEcc) (k : Nat) (s : State) :
    StackSide s (checkChunk n sl r e k s).1 ∧ (checkChunk n sl r e k s).1.stk.mem = s.stk.mem := by
  unfold checkChunk
  extract_lets da again s2 s3 who s4
  split
  · exact ⟨stackSide_spineBump .., rfl⟩
  · split
    · exact ⟨StackSide.refl s, rfl⟩
    · have h2 : StackSide s s2 := (stackSide_spineBump ..).trans (stackSide_spineEvent ..)
      have h3 : StackSide s s3 ∧ s3.stk.mem = s.stk.mem := by
        unfold s3
        split
        · exact ⟨h2.trans (stackSide_spineEvent ..), rfl⟩
        · exact ⟨h2, rfl⟩
      split
      · exact ⟨h3.1.trans (stackSide_stk ..), h3.2⟩
      · exact h3
    · exact ⟨((stackSide_spineBump ..).trans (stackSide_spineEvent ..)).trans (stackSide_stk ..), rfl⟩

/-- All the chunks of a granule. -/
theorem stackSide_checkChunks (n sl : Nat) (r : DramRead) (e : ChunkEcc) (ks : List Nat) (s : State) (l : List (Nat × Nat)) :
    let z := ks.foldl (fun (s, ps) k => let (s, p) := checkChunk n sl r e k s; (s, ps ++ [(b2n p, 1)])) (s, l)
    StackSide s z.1 ∧ z.1.stk.mem = s.stk.mem := by
  induction ks generalizing s l with
  | nil => exact ⟨StackSide.refl s, rfl⟩
  | cons k ks ih =>
    obtain ⟨hside, hmem⟩ := stackSide_checkChunk n sl r e k s
    obtain ⟨hside', hmem'⟩ := ih (checkChunk n sl r e k s).1 (l ++ [(b2n (checkChunk n sl r e k s).2, 1)])
    exact ⟨hside.trans hside', hmem'.trans hmem⟩

end Sys2Proof.Machine
end

/-! ## Slots written to stack memory (R227, R236, R243, R244) -/

section
namespace Sys2Proof.Machine

variable {s s' s'' : State} {p : Nat}

/-! ### Bytes and numbers (R12) -/

theorem ofBytesLE_eq (bs : List Byte) : ofBytesLE bs = joinElems 8 (bs.map (·.toNat)) := by
  induction bs with
  | nil => rfl
  | cons b bs ih =>
    rw [ofBytesLE, List.map_cons, joinElems, ih, Nat.mod_eq_of_lt b.isLt]

theorem elem_ofBytesLE (bs : List Byte) (i : Nat) : elem (ofBytesLE bs) 8 i = (nth bs i 0).toNat := by
  rw [ofBytesLE_eq, elem_joinElems, nth, nth, List.getD_eq_getElem?_getD, List.getD_eq_getElem?_getD, List.getElem?_map]
  cases bs[i]? with
  | none => rfl
  | some b => exact Nat.mod_eq_of_lt b.isLt

/-- The bytes of the unit that 64 bytes make. -/
theorem bytesLE_unit {bs : List Byte} (h : bs.length = 64) : bytesLE (BitVec.ofNat 512 (ofBytesLE bs)).toNat 64 = bs := by
  apply List.ext_getElem
  · rw [length_bytesLE, h]
  · intro i hi hb
    have hi : i < 64 := by rwa [length_bytesLE] at hi
    have helem : elem (BitVec.ofNat 512 (ofBytesLE bs)).toNat 8 i = bs[i].toNat := by
      rw [elem_toNat_ofNat_of_lt _ (by omega), elem_ofBytesLE, nth, List.getD_eq_getElem _ _ hb]
    rw [← List.getD_eq_getElem _ 0, getD_bytesLE hi, helem, BitVec.ofNat_toNat]
    rfl

/-- The unit that the bytes of a unit make. -/
theorem unit_bytesLE (d : Unit512) : BitVec.ofNat 512 (ofBytesLE (bytesLE d.toNat 64)) = d := by
  apply BitVec.eq_of_getLsbD_eq
  intro i hi
  have helem : elem (ofBytesLE (bytesLE d.toNat 64)) 8 (i / 8) = elem d.toNat 8 (i / 8) := by
    rw [elem_ofBytesLE, nth, getD_bytesLE (by omega), BitVec.toNat_ofNat]
    exact Nat.mod_eq_of_lt (fld_lt ..)
  have h := congrArg (·.testBit (i % 8)) helem
  simp only [testBit_elem, Nat.mod_lt i (show 0 < 8 by decide), decide_true, Bool.true_and, Nat.div_add_mod] at h
  rw [BitVec.getLsbD_ofNat, h]
  simp [hi, BitVec.getLsbD]

/-! ### Partition addresses (R227) -/

variable {q : Partition} {pa a b i : Nat}

/-- Within a chunk device addresses follow one another. -/
theorem paToDa_add (h : pa % 64 + i < 64) : paToDa q (pa + i) = paToDa q pa + i := by
  unfold paToDa devAddr visible
  omega

theorem paToDa_mod (q : Partition) (pa : Nat) : paToDa q pa % 64 = pa % 64 := by
  unfold paToDa devAddr visible
  omega

theorem paToDa_inj (h : paToDa q a = paToDa q b) : a = b := by
  unfold paToDa devAddr visible at h
  omega

/-- Chunks at multiples of 64 have markers of their own. -/
theorem paToDa_chunk_inj (ha : a % 64 = 0) (hb : b % 64 = 0) (h : paToDa q a / 64 = paToDa q b / 64) : a = b := by
  have hma := paToDa_mod q a
  have hmb := paToDa_mod q b
  exact paToDa_inj (q := q) (by omega)

/-! ### A run of bytes is written -/

/-- Bytes have been written at a partition address, when ok holds, and no other byte of stack memory has changed. -/
structure RunPut (q : Partition) (ok : Prop) (pa : Nat) (bs : List Byte) (s s' : State) : Prop where
  others : ∀ a, (∀ i < bs.length, a ≠ paToDa q (pa + i)) → memByte s'.stk.mem a = memByte s.stk.mem a
  bytes : ok → ∀ i < bs.length, memByte s'.stk.mem (paToDa q (pa + i)) = nth bs i 0
  wf : Memory.wf s'.stk.mem

variable {ok ok' : Prop} {bs xs ys : List Byte}

theorem RunPut.mono (h : RunPut q ok pa bs s s') (hok : ok' → ok) : RunPut q ok' pa bs s s' :=
  ⟨h.others, fun h' => h.bytes (hok h'), h.wf⟩

theorem RunPut.append (h : RunPut q ok pa xs s s') (h' : RunPut q ok (pa + xs.length) ys s' s'') :
    RunPut q ok pa (xs ++ ys) s s'' where
  others a ha := by
    rw [List.length_append] at ha
    rw [h'.others a fun i hi => by rw [Nat.add_assoc]; exact ha _ (by omega), h.others a fun i hi => ha i (by omega)]
  bytes hok i hi := by
    rw [List.length_append] at hi
    by_cases hx : i < xs.length
    · rw [nth, List.getD_append _ _ _ _ hx, h'.others _ fun j _ heq => by have := paToDa_inj heq; omega]
      exact h.bytes hok i hx
    · have := h'.bytes hok (i - xs.length) (by omega)
      rw [show pa + xs.length + (i - xs.length) = pa + i by omega] at this
      rw [this, nth, nth, List.getD_append_right _ _ _ _ (by omega)]
  wf := h'.wf

/-- A write at the device address of a run of one chunk. -/
theorem runPut_memPut (w : Memory.wf s.stk.mem) (hfit : pa % 64 + bs.length ≤ 64)
    (h : s'.stk.mem = memPut s.stk.mem (paToDa q pa) bs) : RunPut q ok pa bs s s' where
  others a ha := by
    rw [h]
    refine memByte_memPut_ne w ?_
    by_contra hin
    refine ha (a - paToDa q pa) (by omega) ?_
    rw [paToDa_add (by omega)]
    omega
  bytes _ i hi := by
    rw [h, paToDa_add (by omega), memByte_memPut w hi, nth, List.getD_eq_getElem]
  wf := h ▸ memPut_wf _ _ w

/-- A run that may not be written is left. -/
theorem runPut_none (w : Memory.wf s.stk.mem) (hok : ¬ ok) (h : s'.stk.mem = s.stk.mem) : RunPut q ok pa bs s s' :=
  ⟨fun _ _ => by rw [h], fun h => absurd h hok, h ▸ w⟩

/-! ### Writes of the stream engine -/

variable {da : Nat} {poison : Bool} {w : Ecc}

theorem stackSide_serveWrite (da arr : Nat) (whole : Bool) (s : State) :
    StackSide s (serveWrite da arr whole s) ∧ (serveWrite da arr whole s).stk = s.stk :=
  ⟨(stackSide_spineBump ..).trans (stackSide_sliceServe ..), rfl⟩

/-- A whole chunk is written with its marker. -/
theorem writeBytes_whole {who : Nat} (h : da % 64 = 0 ∧ bs.length = 64) :
    let u := writeBytes da bs poison w who s
    StackSide s u ∧ u.stk.mem = memPut s.stk.mem da bs ∧ u.stk.poison = mset false s.stk.poison (da / 64) poison := by
  intro u
  unfold u writeBytes
  rw [if_pos h, writeChunk, bytesLE_unit h.2]
  exact ⟨(stackSide_closeEntries ..).trans (stackSide_stk ..), rfl, rfl⟩

/-- Part of a chunk is written, but for one whose old content cannot be corrected. -/
theorem writePart_spec (da off : Nat) (bs : List Byte) (poison : Bool) (w : Ecc) (who : Nat) (s : State) :
    let u := writePart da off bs poison w who s
    StackSide s u ∧ (u.stk.mem = memPut s.stk.mem (da + off) bs ∨ w = .double ∧ u.stk.mem = s.stk.mem) := by
  intro u
  unfold u writePart
  extract_lets n marked s1 sl s2 k2 s4 k4 s5 s6
  have h1 : StackSide s s1 := stackSide_closeEntries ..
  split
  · exact ⟨(h1.trans (stackSide_spineBump ..)).trans (stackSide_stk ..), .inl rfl⟩
  · split
    next hw => exact ⟨((h1.trans (stackSide_spineBump ..)).trans (stackSide_spineEvent ..)).trans (stackSide_stk ..),
      .inr ⟨hw, rfl⟩⟩
    next =>
      have h6 : StackSide s s6 ∧ s6.stk.mem = s.stk.mem := by
        unfold s6
        split
        · split
          · exact ⟨((h1.trans (stackSide_spineBump ..)).trans (stackSide_spineEvent ..)).trans (stackSide_spineEvent ..), rfl⟩
          · exact ⟨(h1.trans (stackSide_spineBump ..)).trans (stackSide_spineEvent ..), rfl⟩
        · exact ⟨h1, rfl⟩
      exact ⟨h6.1.trans (stackSide_stk ..), .inl (congrArg (memPut · (da + off) bs) h6.2)⟩

variable {o : Nat} {d : Unit512} {bad : Bool}

/-- A run of one chunk is written at its partition address. -/
theorem writePiece_spec (wm : Memory.wf s.stk.mem) (hserve : stackServes s (paToDa q pa) = true)
    (hfit : pa % 64 + bs.length ≤ 64) :
    let u := writePiece o (paToDa q pa) bs poison w s
    StackSide s u ∧ RunPut q ((pa % 64 = 0 ∧ bs.length = 64) ∨ w ≠ .double) pa bs s u ∧
      (pa % 64 = 0 ∧ bs.length = 64 → u.stk.poison = mset false s.stk.poison (paToDa q pa / 64) poison) := by
  intro u
  have hmod := paToDa_mod q pa
  unfold u writePiece
  rw [if_pos hserve]
  obtain ⟨hside, hstk⟩ := stackSide_serveWrite (paToDa q pa) (ringArrival s (paToDa q pa / 2 ^ 37))
    (decide (paToDa q pa % 64 = 0 ∧ bs.length = 64)) s
  generalize serveWrite (paToDa q pa) (ringArrival s (paToDa q pa / 2 ^ 37)) _ s = s1 at hside hstk
  by_cases hwhole : pa % 64 = 0 ∧ bs.length = 64
  · obtain ⟨hs, hm, hp⟩ := writeBytes_whole (s := s1) (da := paToDa q pa) (poison := poison) (w := w) (who := streamIssuer o)
      (bs := bs) ⟨hmod.trans hwhole.1, hwhole.2⟩
    rw [hstk] at hm hp
    exact ⟨hside.trans hs, runPut_memPut wm hfit hm, fun _ => hp⟩
  · have hpart : writeBytes (paToDa q pa) bs poison w (streamIssuer o) s1 = _ := if_neg (by rw [hmod]; exact hwhole)
    rw [hpart]
    obtain ⟨hs, hm⟩ := writePart_spec (paToDa q pa - paToDa q pa % 64) (paToDa q pa % 64) bs poison w (streamIssuer o) s1
    rw [hstk, Nat.sub_add_cancel (Nat.mod_le ..)] at hm
    refine ⟨hside.trans hs, ?_, fun h => absurd h hwhole⟩
    rcases hm with hm | ⟨hw, hm⟩
    · exact runPut_memPut wm hfit hm
    · exact runPut_none wm (not_or.mpr ⟨hwhole, not_not.mpr hw⟩) hm

theorem StackSide.stackServes (h : StackSide s s') (w : mwf {} s.spines = true) (da : Nat) :
    stackServes s' da = stackServes s da := by
  have hup0 : (getSpine s' (da / 2 ^ 37)).up0 = (getSpine s (da / 2 ^ 37)).up0 := congrArg StackView.up0 (h.spine w _)
  have hup1 : (getSpine s' (da / 2 ^ 37)).up1 = (getSpine s (da / 2 ^ 37)).up1 := congrArg StackView.up1 (h.spine w _)
  have hboot : s'.boot = s.boot := by rw [h.rest]
  unfold Machine.stackServes sliceUp
  rw [hboot, hup0, hup1]

theorem StackSide.getPart (h : StackSide s s') (p : Nat) : getPart s' p = getPart s p := by rw [h.rest]; rfl

theorem pieces_whole (h : pa % 64 = 0) : pieces pa 64 = [(0, 64)] := by
  simp [pieces, piecesOf, h]

theorem pieces_split (h : pa % 64 ≠ 0) : pieces pa 64 = [(0, 64 - pa % 64), (64 - pa % 64, pa % 64)] := by
  have hlt : pa % 64 < 64 := Nat.mod_lt _ (by decide)
  have hmod : (pa + (64 - pa % 64)) % 64 = 0 := by omega
  have hrest : 64 - (64 - pa % 64) = pa % 64 := by omega
  have hmin2 : min 64 (pa % 64) = pa % 64 := by omega
  simp [pieces, piecesOf, hmod, hrest, hmin2, h]

/-- A slot is written over one chunk or two. -/
theorem writePa_slot (wm : Memory.wf s.stk.mem) (ws : mwf {} s.spines = true) (hlen : bs.length = 64)
    (hserve : ∀ i < 64, stackServes s (paToDa (getPart s p) (pa + i)) = true) :
    let q := getPart s p
    let u := writePa p pa bs bad w s
    StackSide s u ∧ RunPut q (pa % 64 = 0 ∨ w ≠ .double) pa bs s u ∧
      (pa % 64 = 0 → u.stk.poison = mset false s.stk.poison (paToDa q pa / 64) bad) := by
  intro q u
  have hserve0 : stackServes s (paToDa q pa) = true := hserve 0 (by decide)
  unfold u writePa
  rw [hlen]
  by_cases hpa : pa % 64 = 0
  · have hbs : slice bs 0 64 = bs := List.take_of_length_le (by rw [List.drop_zero, hlen])
    rw [pieces_whole hpa, List.foldl_cons, List.foldl_nil]
    dsimp only
    rw [hbs, Nat.add_zero]
    obtain ⟨hs, hrun, hmark⟩ := writePiece_spec (o := q.port) (q := q) (poison := bad) (w := w) (bs := bs) wm hserve0 (by omega)
    exact ⟨hs, hrun.mono fun _ => .inl ⟨hpa, hlen⟩, fun _ => hmark ⟨hpa, hlen⟩⟩
  · generalize hxs : slice bs 0 (64 - pa % 64) = xs
    generalize hys : slice bs (64 - pa % 64) (pa % 64) = ys
    have hlx : xs.length = 64 - pa % 64 := by rw [← hxs]; simp [slice, hlen]
    have hly : ys.length = pa % 64 := by rw [← hys]; simp [slice, hlen]; omega
    have hcat : xs ++ ys = bs := by
      have hdrop : ys = bs.drop (64 - pa % 64) := by
        rw [← hys]
        exact List.take_of_length_le (by rw [List.length_drop, hlen]; omega)
      rw [hdrop, ← hxs]
      exact List.take_append_drop ..
    rw [pieces_split hpa, List.foldl_cons, List.foldl_cons, List.foldl_nil]
    dsimp only
    rw [hxs, hys, Nat.add_zero]
    obtain ⟨hs1, hrun1, -⟩ := writePiece_spec (o := q.port) (q := q) (poison := bad) (w := w) (bs := xs) wm hserve0 (by omega)
    rw [show getPart s p = q from rfl]
    generalize writePiece q.port (paToDa q pa) xs bad w s = s1 at hs1 hrun1 ⊢
    rw [show getPart s1 p = q from hs1.getPart p, ← hlx]
    obtain ⟨hs2, hrun2, -⟩ := writePiece_spec (s := s1) (o := q.port) (q := q) (poison := bad) (w := w) (bs := ys)
      (pa := pa + xs.length) hrun1.wf (by rw [hs1.stackServes ws]; exact hserve _ (by omega)) (by omega)
    have hboth := (hrun1.mono (ok' := pa % 64 = 0 ∨ w ≠ .double) fun h => .inr (h.resolve_left hpa)).append
      (hrun2.mono fun h => .inr (h.resolve_left hpa))
    rw [hcat] at hboth
    exact ⟨hs1.trans hs2, hboth, fun h => absurd h hpa⟩

/-! ### The slots of a response -/

/-- A slot in hand is written at its place. -/
def putRespSlot (p pa : Nat) (w : Ecc) (s : State) (x : (Unit512 × Bool) × Nat) : State :=
  writePa p (pa + 64 * x.2) (bytesLE x.1.1.toNat 64) x.1.2 w s

/-- The bytes of slots, in order. -/
def slotBytes (l : List (Unit512 × Bool)) : List Byte := l.flatMap fun x => bytesLE x.1.toNat 64

theorem length_slotBytes (l : List (Unit512 × Bool)) : (slotBytes l).length = 64 * l.length := by
  induction l with
  | nil => rfl
  | cons x l ih =>
    rw [slotBytes, List.flatMap_cons, List.length_append, length_bytesLE, show (l.flatMap _).length = 64 * l.length from ih,
      List.length_cons]
    omega

/-- The markers of the chunks that slots at whole chunks fill, and of no other chunk. -/
structure Marked (q : Partition) (pa : Nat) (l : List (Unit512 × Bool)) (s s' : State) : Prop where
  others : ∀ k, (∀ j < l.length, k ≠ paToDa q (pa + 64 * j) / 64) → mget false s'.stk.poison k = mget false s.stk.poison k
  marks : ∀ j < l.length, mget false s'.stk.poison (paToDa q (pa + 64 * j) / 64) = ((l[j]?).map (·.2)).getD false

theorem Marked.cons {x : Unit512 × Bool} {l : List (Unit512 × Bool)} (hpa : pa % 64 = 0) (wp : mwf false s.stk.poison = true)
    (h : s'.stk.poison = mset false s.stk.poison (paToDa q pa / 64) x.2) (h' : Marked q (pa + 64) l s' s'') :
    Marked q pa (x :: l) s s'' where
  others k hk := by
    rw [h'.others k fun j hj => ?_, h, mget_mset_ne wp (by simpa using hk 0 (by simp))]
    have := hk (j + 1) (by simpa using hj)
    rwa [show pa + 64 * (j + 1) = pa + 64 + 64 * j by ring] at this
  marks j hj := by
    cases j with
    | zero =>
      rw [h'.others _ fun j _ heq => ?_, Nat.mul_zero, Nat.add_zero, h, mget_mset wp]
      · rfl
      · have := paToDa_chunk_inj (by omega) (by omega) heq
        omega
    | succ j =>
      rw [show pa + 64 * (j + 1) = pa + 64 + 64 * j by ring, List.getElem?_cons_succ]
      exact h'.marks j (by simpa using hj)

theorem putRespSlots_spec {l : List (Unit512 × Bool)} {k : Nat} (wm : Memory.wf s.stk.mem) (ws : mwf {} s.spines = true)
    (hq : getPart s p = q)
    (hserve : ∀ i < 64 * l.length, stackServes s (paToDa q (pa + 64 * k + i)) = true) :
    let u := (l.zipIdx k).foldl (putRespSlot p pa w) s
    StackSide s u ∧ RunPut q (pa % 64 = 0 ∨ w ≠ .double) (pa + 64 * k) (slotBytes l) s u ∧
      (pa % 64 = 0 → mwf false s.stk.poison = true → Marked q (pa + 64 * k) l s u) := by
  induction l generalizing s k with
  | nil => exact ⟨StackSide.refl s, ⟨fun _ _ => rfl, fun _ _ h => absurd h (Nat.not_lt_zero _), wm⟩,
      fun _ _ => ⟨fun _ _ => rfl, fun _ h => absurd h (Nat.not_lt_zero _)⟩⟩
  | cons x l ih =>
    rw [List.length_cons] at hserve
    obtain ⟨hs1, hrun1, hmark1⟩ := writePa_slot (p := p) (pa := pa + 64 * k) (bs := bytesLE x.1.toNat 64) (bad := x.2) (w := w)
      wm ws (length_bytesLE ..) (by rw [hq]; exact fun i hi => hserve i (by omega))
    rw [Nat.add_mul_mod_self_left, hq] at hrun1 hmark1
    rw [List.zipIdx_cons, List.foldl_cons, putRespSlot]
    dsimp only
    generalize writePa p (pa + 64 * k) (bytesLE x.1.toNat 64) x.2 w s = s1 at hs1 hrun1 hmark1 ⊢
    have hnext : pa + 64 * k + (bytesLE x.1.toNat 64).length = pa + 64 * (k + 1) := by rw [length_bytesLE]; ring
    obtain ⟨hs2, hrun2, hmark2⟩ := ih (s := s1) (k := k + 1) hrun1.wf (hs1.wf ws) ((hs1.getPart p).trans hq) fun i hi => by
      rw [hs1.stackServes ws, show pa + 64 * (k + 1) + i = pa + 64 * k + (64 + i) by ring]
      exact hserve _ (by omega)
    refine ⟨hs1.trans hs2, hrun1.append (by rw [hnext]; exact hrun2), fun hpa wp => ?_⟩
    exact Marked.cons (by omega) wp (hmark1 hpa) (hmark2 hpa (by rw [hmark1 hpa]; exact mwf_mset wp))

end Sys2Proof.Machine
end

/-! ## An entry on tiles starts and goes on under its gate (R260, R356) -/

section
namespace Sys2Proof.Machine

variable {s s' : State} {p op : Nat} {l : CmdList} {e : Unit512} {c : Entry} {tap : Option Nat}

/-! ### The gate -/

theorem tileGate_of_running {q : Partition} (hst : q.st = .running ∨ q.st = .halted) (hsus : q.suspended = false) :
    tileGate q = .go := by
  unfold tileGate
  rcases hst with hst | hst
  · rw [hst, hsus]; rfl
  · rw [hst, hsus]; rfl

theorem tileGate_of_stopped {q : Partition} (hst : q.st = .idle ∨ q.st = .faulted) :
    tileGate q = .stop (0x410 + pstateNum q.st) := by
  unfold tileGate stateStatus
  rcases hst with hst | hst
  · rw [hst]
  · rw [hst]

/-- The next packet of an entry may go: the partition runs, and no packet of the entry lies too far behind (R214). -/
structure MayGo (s : State) (p : Nat) (tap : Option Nat) : Prop where
  gate : tileGate (getPart s p) = .go
  may : mayIssue s (2 + (getPart s p).port) tap p = true

theorem MayGo.entryGate (h : MayGo s p tap) : entryGate s p tap = .go := by
  unfold Machine.entryGate
  rw [h.gate]
  exact if_pos h.may

theorem MayGo.works (h : MayGo s p tap) (hw : Works p s s') (hk : Kept s s') : MayGo s' p tap where
  gate := hw.tileGate.trans h.gate
  may := by rw [mayIssue_congr hk.issued hk.asked hk.pktSeq, hw.portNum, h.may]

/-! ### An entry starts -/

/-- The COUNT a CONFIRM entry starts from, read before its first packet. -/
def baseOf (op : Nat) (s : State) (e : Unit512) : Option Nat :=
  if enConfirm e && decide (op = 0x14 ∨ op = 0x15 ∨ op = 0x18) then confirmCount s e else none

/-- The entry has started. -/
def begun (p op : Nat) (e : Unit512) (s : State) : State :=
  modCur p 1 (fun c => { c with started := true, base := baseOf op s e }) s

theorem works_begun (w : EngineMaps s p) : Works p s (begun p op e s) := works_modCur w

theorem kept_begun : Kept s (begun p op e s) := kept_modCur

theorem getPart_begun (w : mwf {} s.parts = true) : (getPart (begun p op e s) p).steNo = (getPart s p).steNo := by
  rw [begun, getPart_modCur w]
  rfl

theorem openEntry_begun (w : EngineMaps s p) (ho : openEntry s p 1 = some (l, e, {})) :
    openEntry (begun p op e s) p 1 = some (l, e, { started := true, base := baseOf op s e }) := by
  obtain ⟨-, -, -, hc⟩ := openEntry_eq_some.mp ho
  refine (works_begun w).openEntry ho ?_ rfl
  rw [begun, curOf_modCur w, hc]

theorem streamEntry_of_stop {st : Nat} (ho : openEntry s p 1 = some (l, e, {})) (hop : enOp e = op) (ht : tileEntry e = true)
    (hg : tileGate (getPart s p) = .stop st) : streamEntry op p s = .next (endMoved p st e {} s) := by
  unfold streamEntry
  rw [ho]
  dsimp only
  rw [if_neg (not_not.mpr hop), if_neg (by decide), if_pos ht, hg]

theorem streamEntry_of_go (ho : openEntry s p 1 = some (l, e, {})) (hop : enOp e = op) (ht : tileEntry e = true)
    (hg : tileGate (getPart s p) = .go)
    (hbase : (enConfirm e && decide (op = 0x14 ∨ op = 0x15 ∨ op = 0x18)) = false ∨ (baseOf op s e).isSome = true) :
    streamEntry op p s = .next (streamGo p (begun p op e s)) := by
  have hgood : ¬ ((enConfirm e && decide (op = 0x14 ∨ op = 0x15 ∨ op = 0x18)) = true ∧ (confirmCount s e).isNone = true) := by
    rintro ⟨hconf, hnone⟩
    rw [baseOf, if_pos hconf, hconf] at hbase
    rcases hbase with h | h
    · exact absurd h (by decide)
    · rw [Option.isNone_iff_eq_none.mp hnone] at h
      exact absurd h (by decide)
  unfold streamEntry
  rw [ho]
  dsimp only
  rw [if_neg (not_not.mpr hop), if_neg (by decide), if_pos ht, hg]
  dsimp only
  exact congrArg _ (if_neg hgood)

/-! ### An open entry goes on -/

/-- How a started entry on tiles goes on, by its operation. -/
structure TileSteps (s : State) (p : Nat) (e : Unit512) (c : Entry) : Prop where
  h2t : enOp e = 0x14 → c.sent < enSlots e → streamGo p s = h2tGo p e c s
  s2t : enOp e = 0x15 → c.sent < enSlots e → streamGo p s = s2tGo p e c s
  t2x : enOp e = 0x16 ∨ enOp e = 0x17 → streamGo p s = t2xGo p e c s
  tcmd : enOp e = 0x18 → streamGo p s = tcmdGo p e c s

theorem tileSteps_of_open (ho : openEntry s p 1 = some (l, e, c)) (hs : c.started = true) (ha : c.asked = none) :
    TileSteps s p e c := by
  have hwait : ¬ ((!c.started) = true ∨ c.asked.isSome = true) := by simp [hs, ha]
  constructor
  case h2t =>
    intro hop hn
    rw [streamGo, ho]
    dsimp only
    rw [if_neg hwait, hop]
    exact if_neg (by omega)
  case s2t =>
    intro hop hn
    rw [streamGo, ho]
    dsimp only
    rw [if_neg hwait, hop]
    exact if_neg (by omega)
  case t2x =>
    intro hop
    rw [streamGo, ho]
    dsimp only
    rw [if_neg hwait]
    rcases hop with hop | hop
    · rw [hop]
      rfl
    · rw [hop]
      rfl
  case tcmd =>
    intro hop
    rw [streamGo, ho]
    dsimp only
    rw [if_neg hwait, hop]
    rfl

/-! ### Slots and commands of H2T, T2H, T2S and TCMD -/

theorem h2tGo_of_part (hg : MayGo s p none) (ho : openEntry s p 1 = some (l, e, c)) (hr : c.ready = [])
    (hn : c.sent < enSlots e) :
    h2tGo p e c s = askHost p (64 * c.sent + c.buf.length) e c s := by
  unfold h2tGo
  rw [hg.entryGate]
  dsimp only
  rw [if_neg (by simp [hr]), ho]
  dsimp only
  rw [if_neg (by omega), hr, List.length_nil, Nat.add_zero]

/-- The next read of up to eight slots goes to the tile (R211). -/
theorem readTile_spec (w : EngineMaps s p) (hp : p < 4) (hport : (getPart s p).port < 4)
    (ho : openEntry s p 1 = some (l, e, c)) (htap : tap = if enOp e = 0x17 then tileTap s e else none) (hg : MayGo s p tap) :
    let m := min 8 (enSlots e - c.sent)
    let u := readTile p e c s
    Works p s u ∧ u.stk = s.stk ∧
      curOf u p = { c with packets := c.packets + 1, lastSent := some s.cycle, sent := c.sent + m } ∧
      ∃ pk, u.issued = s.issued ++ [(pk, tap)] ∧ Addressed (getPart s p) p e 2 m pk ∧ ∃ r, u.asked = s.asked ++ [r] ∧
        r.issuer = 2 + (getPart s p).port ∧ r.tag = p ∧ r.seq % 65536 = hSeq pk.header ∧ r.npay = m := by
  intro m u
  let rsegs := returnRoute s tap.isSome (enX e) (enY e)
  let v := sendTile p tap 2 m ((enOffset e + c.sent) % 2048) 0 rsegs [] e s
  let f : Entry → Entry := fun c' => { c' with sent := c'.sent + m }
  obtain ⟨-, -, -, hc⟩ := openEntry_eq_some.mp ho
  have hu : u = modCur p 1 f v := by
    unfold u readTile
    dsimp only
    rw [← htap, hg.entryGate]
  obtain ⟨hw, hcur, hrest, -⟩ : Works p s v ∧ _ := sendTile_spec w
  obtain ⟨pk, hissued, haddr, -, -, hasked⟩ := sendTile_packet (tap := tap) (kind := 2) (npay := m)
    (ofs := (enOffset e + c.sent) % 2048) (cmd := 0) (rsegs := rsegs) (pay := []) (e := e) hp hport (by decide)
    (show m < 16 by omega) (Nat.mod_lt _ (by decide))
  obtain ⟨r, hr⟩ := hasked rfl
  rw [hu]
  refine ⟨hw.trans (works_modCur hw.maps), ?_, ?_, pk, hissued, haddr, r, hr⟩
  · rw [modCur_stk]
    exact (congrArg State.stk hrest).trans rfl
  · rw [curOf_modCur hw.maps, ← hc]
    exact congrArg f hcur

theorem t2xGo_of_idle (hb : c.buf = []) (hmoved : c.moved = 0) (hsent : c.sent = 0) (hn : 1 ≤ enSlots e) :
    t2xGo p e c s = readTile p e c s := by
  unfold t2xGo
  rw [if_neg (by omega), if_neg (by simp [hb]), if_neg (by omega)]

end Sys2Proof.Machine
end

/-! ## What an entry on tiles does when it starts (R211, R214, R237, R356) -/

section
namespace Sys2Proof.Machine

variable {s s' : State} {p op pa n : Nat} {l : CmdList} {e : Unit512} {c : Entry} {tap : Option Nat}

/-! ### H2T asks the host for its first line -/

theorem hostTotal_of_slots (h : enOp e = 0x14 ∨ enOp e = 0x16) : hostTotal e = 64 * enSlots e := by
  unfold hostTotal tileEntry
  rcases h with h | h
  · rw [h]
    rfl
  · rw [h]
    rfl

theorem h2t_begins (w : EngineMaps s p) (ho : openEntry s p 1 = some (l, e, {})) (hop : enOp e = 0x14) (hn : 1 ≤ enSlots e)
    (hg : MayGo s p none) (hup : (getPort s (getPart s p).port).up = true) :
    let o := (getPart s p).port
    let u := streamGo p (begun p 0x14 e s)
    Works p s u ∧ u = { s with parts := u.parts, ports := u.ports } ∧
      (getPort u o).out = (getPort s o).out ++ [.readReq (enHaddr e) (min (64 - enHaddr e % 64) (64 * enSlots e))] ∧
      (curOf u p).base = baseOf 0x14 s e ∧ (curOf u p).asked = some s.cycle := by
  intro o u
  have hw : Works p s (begun p 0x14 e s) := works_begun w
  have ho1 := openEntry_begun (op := 0x14) w ho
  have hport : (getPart (begun p 0x14 e s) p).port = o := hw.portNum
  have hu : u = askHost p 0 e { started := true, base := baseOf 0x14 s e } (begun p 0x14 e s) :=
    ((tileSteps_of_open ho1 rfl rfl).h2t hop hn).trans (h2tGo_of_part (hg.works hw kept_begun) ho1 rfl hn)
  obtain ⟨hwu, hcur, hrest, hout⟩ := askHost_spec (ofs := 0) (e := e) (c := { started := true, base := baseOf 0x14 s e })
    hw.maps (by rw [hport]; exact hup)
  obtain ⟨-, -, -, hc1⟩ := openEntry_eq_some.mp ho1
  rw [← hu] at hwu hcur hrest hout
  rw [hport, hostTotal_of_slots (.inl hop)] at hout
  exact ⟨hw.trans hwu, hrest, hout, by rw [hcur, hc1], by rw [hcur]; rfl⟩

/-! ### S2T asks a stack for its first slots -/

/-- The entry waits for a piece, under the next number of its partition. -/
def numbered (p : Nat) (s : State) : State :=
  modCur p 1 (fun c => { c with reading := some ((getPart s p).steNo + 1) })
    (modPart s p fun q => { q with steNo := (getPart s p).steNo + 1 })

theorem works_numbered (w : EngineMaps s p) : Works p s (numbered p s) ∧
    curOf (numbered p s) p = { curOf s p with reading := some ((getPart s p).steNo + 1) } := by
  obtain ⟨hw, hc⟩ := works_modPart (g := fun q => { q with steNo := (getPart s p).steNo + 1 }) w rfl rfl
  refine ⟨hw.trans (works_modCur hw.maps), ?_⟩
  rw [numbered, curOf_modCur hw.maps, hc]

/-- The first piece of a run that the entry needs is asked for. -/
theorem fetched_asks (w : EngineMaps s p) (ho : openEntry s p 1 = some (l, e, c)) (hr : c.reading = none) (hb : c.rbuf = [])
    (hn : 0 < n) (htr : trackedLines s p pa n = []) (hserve : stackServes s (paToDa (getPart s p) pa) = true) :
    let no := (getPart s p).steNo + 1
    ∃ u, fetched p pa n s = (u, false) ∧ Works p s u ∧ u = { s with parts := u.parts, spines := u.spines } ∧
      curOf u p = { c with reading := some no } ∧
      AsksPiece u p no (paToDa (getPart s p) pa) (min (64 - pa % 64) n) := by
  intro no
  let da := paToDa (getPart s p) pa
  let s1 := numbered p s
  let rd := Reader.engine p no (da % 256) (min (64 - pa % 64) n)
  obtain ⟨hw1, hc1⟩ : Works p s s1 ∧ _ := works_numbered w
  obtain ⟨-, -, -, hc⟩ := openEntry_eq_some.mp ho
  obtain ⟨hside, hstk⟩ := stackSide_arriveRead (da / 2 ^ 37) (da % 2 ^ 37 / 256) (ringArrival s1 (da / 2 ^ 37)) rd s1
  obtain ⟨r, hrmem, hg, hrd⟩ := arriveRead_joins hw1.maps.spines (da / 2 ^ 37) (da % 2 ^ 37 / 256)
    (ringArrival s1 (da / 2 ^ 37)) rd
  have hun : untracked p (pa + 0) (n - 0) s = (s, true) := by
    unfold untracked
    rw [Nat.add_zero, Nat.sub_zero, htr]
  have hf : fetched p pa n s =
      (arriveRead (da / 2 ^ 37) (da % 2 ^ 37 / 256) (ringArrival s1 (da / 2 ^ 37)) rd s1, false) := by
    unfold fetched
    rw [show n / 64 + 3 = n / 64 + 2 + 1 from rfl, fetchRun, ho]
    dsimp only
    rw [hb, List.map_nil, List.sum_nil, if_neg (by omega), hr, if_neg (by decide), hun]
    dsimp only
    rw [if_neg (by decide), Nat.add_zero, if_pos hserve]
    rfl
  generalize arriveRead (da / 2 ^ 37) (da % 2 ^ 37 / 256) (ringArrival s1 (da / 2 ^ 37)) rd s1 = u at hside hstk hrmem hf
  obtain ⟨hwu, hpu⟩ := hside.works hw1.maps
  refine ⟨u, hf, hw1.trans hwu, ?_, ?_, r, ?_, hg, hrd⟩
  · rw [hside.rest, hstk]
    rfl
  · rw [curOf, hpu, ← hc]
    exact hc1
  · rwa [← sliceOf_granule]

/-- With every slot sent there is nothing left to do. -/
theorem s2tOne_of_sent (ho : openEntry s p 1 = some (l, e, c)) (hn : enSlots e ≤ c.sent) : s2tOne p e s = s := by
  unfold s2tOne
  rw [ho]
  dsimp only
  rw [show min 8 (enSlots e - c.sent) = 0 by omega]
  rfl

/-- An entry whose piece has not come waits. -/
theorem s2tOne_of_reading (ho : openEntry s p 1 = some (l, e, c)) (hr : c.reading.isSome = true)
    (hb : c.rbuf = []) : s2tOne p e s = s := by
  by_cases hm : enSlots e ≤ c.sent
  · exact s2tOne_of_sent ho hm
  · have hpos : ¬ (c.rbuf.map (·.1.length)).sum ≥ 64 * min 8 (enSlots e - c.sent) := by
      rw [hb, List.map_nil, List.sum_nil]
      omega
    have hf : fetched p (enSaddr e + 64 * c.sent) (64 * min 8 (enSlots e - c.sent)) s = (s, false) := by
      unfold fetched
      rw [fetchRun, ho]
      dsimp only
      rw [if_neg hpos, if_pos hr]
    unfold s2tOne
    rw [ho]
    dsimp only
    split
    · rfl
    · rw [hf]
    · rfl

theorem s2tOne_asks {u : State} (ho : openEntry s p 1 = some (l, e, c)) (hn : c.sent < enSlots e)
    (hg : MayGo s p (tileTap s e))
    (hf : fetched p (enSaddr e + 64 * c.sent) (64 * min 8 (enSlots e - c.sent)) s = (u, false)) : s2tOne p e s = u := by
  have hpos : min 8 (enSlots e - c.sent) ≠ 0 := by omega
  unfold s2tOne
  rw [ho]
  dsimp only
  rw [hg.entryGate]
  split
  next h => exact absurd h hpos
  next => rw [hf]
  next h => exact absurd rfl h

/-- What holds after the first round and is kept by every other holds after them all. -/
theorem repeat_induction {α : Type} {f : α → α} {a : α} {P : α → Prop} (h1 : P (f a)) (hstep : ∀ b, P b → P (f b)) :
    ∀ k, P (Nat.repeat f (k + 1) a)
  | 0 => h1
  | k + 1 => hstep _ (repeat_induction h1 hstep k)

theorem s2t_begins (w : EngineMaps s p) (ho : openEntry s p 1 = some (l, e, {})) (hop : enOp e = 0x15) (hn : 1 ≤ enSlots e)
    (hg : MayGo s p (tileTap s e)) (htr : trackedLines s p (enSaddr e) (64 * min 8 (enSlots e)) = [])
    (hserve : stackServes s (paToDa (getPart s p) (enSaddr e)) = true) :
    let no := (getPart s p).steNo + 1
    let u := streamGo p (begun p 0x15 e s)
    Works p s u ∧ u = { s with parts := u.parts, spines := u.spines } ∧ (curOf u p).reading = some no ∧
      (curOf u p).base = baseOf 0x15 s e ∧ AsksPiece u p no (paToDa (getPart s p) (enSaddr e)) (64 - enSaddr e % 64) := by
  intro no u
  let s1 := begun p 0x15 e s
  let c1 : Entry := { started := true, base := baseOf 0x15 s e }
  have hw : Works p s s1 := works_begun w
  have ho1 : openEntry s1 p 1 = some (l, e, c1) := openEntry_begun w ho
  have hno : (getPart s1 p).steNo = (getPart s p).steNo := getPart_begun w.parts
  obtain ⟨v, hf, hwv, hrest, hcur, hasks⟩ := fetched_asks (pa := enSaddr e + 64 * c1.sent)
    (n := 64 * min 8 (enSlots e - c1.sent)) hw.maps ho1 rfl rfl (show 0 < 64 * min 8 (enSlots e - 0) by omega)
    ((hw.trackedLines ..).trans htr) (by rw [hw.stackServes, hw.paToDa]; exact hserve)
  have hone : s2tOne p e s1 = v :=
    s2tOne_asks ho1 hn (by rw [hw.tileTap]; exact hg.works hw kept_begun) hf
  have hov := hwv.openEntry ho1 hcur rfl
  have hfix : s2tOne p e v = v := s2tOne_of_reading hov rfl rfl
  have hrounds : Nat.repeat (s2tOne p e) 256 s1 = v :=
    repeat_induction (P := fun b => b = v) hone (fun b hb => by rw [hb, hfix]) 255
  have hu : u = v := by
    rw [show u = s2tGo p e c1 s1 from (tileSteps_of_open ho1 rfl rfl).s2t hop hn, s2tGo, hw.tileGate, hg.gate]
    dsimp only
    rw [hrounds, hov]
    exact if_neg (show ¬ 0 ≥ enSlots e by omega)
  have hpiece : min (64 - enSaddr e % 64) (64 * min 8 (enSlots e)) = 64 - enSaddr e % 64 := by omega
  rw [hw.paToDa, hno] at hasks
  rw [hu]
  refine ⟨hw.trans hwv, hrest, by rw [hcur, hno], by rw [hcur], ?_⟩
  rw [← hpiece]
  exact hasks

/-! ### T2H and T2S read their first slots (R211) -/

theorem t2x_begins (w : EngineMaps s p) (hp : p < 4) (hport : (getPart s p).port < 4) (ho : openEntry s p 1 = some (l, e, {}))
    (hop : enOp e = op) (hx : op = 0x16 ∨ op = 0x17) (hn : 1 ≤ enSlots e)
    (htap : tap = if enOp e = 0x17 then tileTap s e else none) (hg : MayGo s p tap) :
    let m := min 8 (enSlots e)
    let u := streamGo p (begun p op e s)
    Works p s u ∧ u.stk = s.stk ∧ (curOf u p).sent = m ∧ (curOf u p).moved = 0 ∧
      ∃ pk, u.issued = s.issued ++ [(pk, tap)] ∧ Addressed (getPart s p) p e 2 m pk ∧ ∃ r, u.asked = s.asked ++ [r] ∧
        r.issuer = 2 + (getPart s p).port ∧ r.tag = p ∧ r.seq % 65536 = hSeq pk.header ∧ r.npay = m := by
  intro m u
  have hw : Works p s (begun p op e s) := works_begun w
  have ho1 := openEntry_begun (op := op) w ho
  have hu : u = readTile p e { started := true, base := baseOf op s e } (begun p op e s) :=
    ((tileSteps_of_open ho1 rfl rfl).t2x (hop ▸ hx)).trans (t2xGo_of_idle rfl rfl rfl hn)
  obtain ⟨hwu, hstk, hcur, pk, hissued, haddr, r, hr, hri, hrest⟩ := readTile_spec hw.maps hp (hw.portNum ▸ hport) ho1
    (by rw [hw.tileTap]; exact htap) (hg.works hw kept_begun)
  rw [← hu] at hwu hstk hcur hissued hr
  unfold Addressed at haddr ⊢
  rw [hw.portNum, hw.epoch] at haddr
  exact ⟨hw.trans hwu, hstk, by rw [hcur]; exact Nat.zero_add _, by rw [hcur], pk, hissued, haddr, r, hr, hw.portNum ▸ hri,
    hrest⟩

end Sys2Proof.Machine
end

/-! ## Commands to tiles, and packets of slots from the host (R333, R356) -/

section
namespace Sys2Proof.Machine

variable {s s' : State} {p op pa n : Nat} {l : CmdList} {e : Unit512} {c : Entry} {tap : Option Nat}

/-! ### The last packet -/

/-- Of its partition only the engines change when the last packet has left. -/
theorem getPart_sentAll (w : mwf {} s.parts = true) : ∃ g, getPart (sentAll p e s) p = { getPart s p with eng := g } := by
  unfold sentAll
  split
  · exact ⟨_, getPart_modCur w⟩
  · split
    · exact (getPart_endEntry w ..).2 p
    · exact ⟨_, rfl⟩

theorem works_sentAll {e0 : Unit512} (w : EngineMaps s p) (ho : openEntry s p 1 = some (l, e0, c)) :
    Works p s (sentAll p e s) := by
  cases h : enConfirm e with
  | true => exact (sentAll_of_confirm w h).1
  | false => exact (sentAll_of_plain w ho h).1

theorem enMoved_of_tile (h : tileEntry e = true) (c : Entry) : enMoved e c = c.moved / 64 := if_pos h

/-! ### TCMD -/

/-- The command of an entry is a FILL. -/
abbrev isFill (e : Unit512) : Prop := bOp (BitVec.ofNat 64 (enDaddr e)) = 1

/-- The command goes out, with the pattern of a FILL. -/
theorem tcmdGo_sends {pay : List (Unit512 × Bool)} (w : EngineMaps s p) (hp : p < 4) (hport : (getPart s p).port < 4)
    (ho : openEntry s p 1 = some (l, e, c)) (hg : MayGo s p none) (hpk : c.packets = 0)
    (hpay : isFill e ∧ 64 ≤ c.buf.length ∧ pay = [(BitVec.ofNat 512 (ofBytesLE (c.buf.take 64)), c.bufPoison)] ∨
      ¬ isFill e ∧ pay = []) :
    ∃ v, tcmdGo p e c s = sentAll p e v ∧ Works p s v ∧ v.stk = s.stk ∧
      curOf v p = { c with packets := c.packets + 1, lastSent := some s.cycle } ∧ (getPart v p).tileio = true ∧
      ∃ pk, v.issued = s.issued ++ [(pk, none)] ∧ Addressed (getPart s p) p e 3 pay.length pk ∧ pk.payload = pay := by
  obtain ⟨bs, hgo⟩ : ∃ bs, tcmdGo p e c s =
      sentAll p e (sendTile p none 3 pay.length 0 (enDaddr e) [] pay e (steWrites p e bs s)) := by
    refine ⟨if decide (isFill e) then c.buf.take 64 else [], ?_⟩
    unfold tcmdGo
    rw [hg.entryGate]
    dsimp only
    rw [if_neg (by omega)]
    rcases hpay with ⟨hfill, hlen, rfl⟩ | ⟨hfill, rfl⟩
    · rw [if_neg (by omega), decide_eq_true hfill]
      rfl
    · rw [if_neg fun h => hfill (of_decide_eq_true h.1), decide_eq_false hfill]
      rfl
  have hlen : pay.length ≤ 1 := by
    rcases hpay with ⟨-, -, rfl⟩ | ⟨-, rfl⟩ <;> simp
  have ht := tallied_steWrites w e bs
  have hport1 : (getPart (steWrites p e bs s) p).port < 4 := ht.portNum ▸ hport
  obtain ⟨hw, hcur, hrest, htile⟩ := sendTile_spec (tap := none) (kind := 3) (npay := pay.length) (ofs := 0) (cmd := enDaddr e)
    (rsegs := []) (pay := pay) (e := e) ht.maps
  obtain ⟨pk, hissued, haddr, -, hpayload, -⟩ := sendTile_packet (s := steWrites p e bs s) (tap := none) (kind := 3)
    (npay := pay.length) (ofs := 0) (cmd := enDaddr e) (rsegs := []) (pay := pay) (e := e) hp hport1 (by decide)
    (by omega) (by decide)
  obtain ⟨-, -, -, hc⟩ := openEntry_eq_some.mp ho
  have hkept := ht.kept
  refine ⟨_, hgo, ht.toWorks.trans hw, ?_, ?_, htile (by decide), pk, ?_, ?_, hpayload⟩
  · exact (congrArg State.stk hrest).trans hkept.stk
  · rw [hcur, ht.cur, hc, hkept.cycle]
  · rw [hissued, hkept.issued]
  · unfold Addressed at haddr ⊢
    rwa [ht.portNum, ht.epoch] at haddr

theorem tcmd_begins (w : EngineMaps s p) (hp : p < 4) (hport : (getPart s p).port < 4) (ho : openEntry s p 1 = some (l, e, {}))
    (hop : enOp e = 0x18) (hfill : ¬ isFill e) (hg : MayGo s p none) :
    let u := streamGo p (begun p 0x18 e s)
    Works p s u ∧ u.stk = s.stk ∧ (getPart u p).tileio = true ∧
      (enConfirm e = false → (curOf u p).ended = some (0, 0, 0)) ∧
      (enConfirm e = true → (curOf u p).ended = none ∧ (curOf u p).base = baseOf 0x18 s e) ∧
      ∃ pk, u.issued = s.issued ++ [(pk, none)] ∧ Addressed (getPart s p) p e 3 0 pk := by
  intro u
  have hw : Works p s (begun p 0x18 e s) := works_begun w
  have ho1 := openEntry_begun (op := 0x18) w ho
  obtain ⟨v, hgo, hwv, hstk, hcur, htile, pk, hissued, haddr, -⟩ := tcmdGo_sends hw.maps hp (hw.portNum ▸ hport) ho1
    (hg.works hw kept_begun) rfl (.inr ⟨hfill, rfl⟩)
  have hu : u = sentAll p e v := ((tileSteps_of_open ho1 rfl rfl).tcmd hop).trans hgo
  have hov := hwv.openEntry ho1 hcur rfl
  obtain ⟨g, hpart⟩ := getPart_sentAll (p := p) (e := e) hwv.maps.parts
  obtain ⟨ps, a, hrest⟩ := sentAll_eq p e v
  have ht : tileEntry e = true := by
    unfold tileEntry
    rw [hop]
    rfl
  unfold Addressed at haddr ⊢
  rw [hw.portNum, hw.epoch] at haddr
  rw [hu]
  refine ⟨(hw.trans hwv).trans (works_sentAll hwv.maps hov), ?_, ?_, fun hc => ?_, fun hc => ?_, pk, ?_, haddr⟩
  · rw [hrest]
    exact hstk
  · rw [hpart]
    exact htile
  · rw [(sentAll_of_plain hwv.maps hov hc).2, enMoved_of_tile ht]
    simp
  · rw [(sentAll_of_confirm hwv.maps hc).2, hcur]
    exact ⟨rfl, rfl⟩
  · rw [hrest]
    exact hissued

/-- A FILL first asks the host for its pattern. -/
theorem fill_begins (w : EngineMaps s p) (ho : openEntry s p 1 = some (l, e, {})) (hop : enOp e = 0x18) (hfill : isFill e)
    (hg : MayGo s p none) (hup : (getPort s (getPart s p).port).up = true) :
    let o := (getPart s p).port
    let u := streamGo p (begun p 0x18 e s)
    Works p s u ∧ u = { s with parts := u.parts, ports := u.ports } ∧ (curOf u p).asked = some s.cycle ∧
      (getPort u o).out = (getPort s o).out ++ [.readReq (enHaddr e) (min (64 - enHaddr e % 64) 64)] := by
  intro o u
  have hw : Works p s (begun p 0x18 e s) := works_begun w
  have ho1 := openEntry_begun (op := 0x18) w ho
  have hport : (getPart (begun p 0x18 e s) p).port = o := hw.portNum
  have hu : u = askHost p 0 e { started := true, base := baseOf 0x18 s e } (begun p 0x18 e s) := by
    rw [show u = _ from (tileSteps_of_open ho1 rfl rfl).tcmd hop]
    unfold tcmdGo
    rw [(hg.works hw kept_begun).entryGate]
    dsimp only
    rw [if_neg (by decide), if_pos ⟨decide_eq_true hfill, by decide⟩]
    rfl
  have htotal : hostTotal e = 64 := if_pos hop
  obtain ⟨hwu, hcur, hrest, hout⟩ := askHost_spec (ofs := 0) (e := e) (c := { started := true, base := baseOf 0x18 s e })
    hw.maps (by rw [hport]; exact hup)
  rw [← hu] at hwu hcur hrest hout
  rw [hport, htotal] at hout
  exact ⟨hw.trans hwu, hrest, by rw [hcur]; rfl, hout⟩

/-! ### Slots go to the window -/

theorem sendSlots_spec (w : EngineMaps s p) (hp : p < 4) (hport : (getPart s p).port < 4)
    (hn : c.ready.length < 16) :
    let k := c.ready.length
    let u := sendSlots p tap e c s
    Works p s u ∧ u.stk = s.stk ∧ u.cycle = s.cycle ∧
      curOf u p = { curOf s p with
        packets := (curOf s p).packets + 1, lastSent := some s.cycle, sent := (curOf s p).sent + k
        moved := (curOf s p).moved + 64 * k, ready := []
        poisoned := (curOf s p).poisoned + ((curOf s p).ready.filter (·.2)).length } ∧
      ∃ pk, u.issued = s.issued ++ [(pk, tap)] ∧ Addressed (getPart s p) p e 1 k pk ∧
        hOffset pk.header = (enOffset e + c.sent) % 2048 ∧ pk.payload = c.ready := by
  intro k u
  let f : Entry → Entry := fun c' => { c' with
    sent := c'.sent + k, moved := c'.moved + 64 * k, ready := [], poisoned := c'.poisoned + (c'.ready.filter (·.2)).length }
  obtain ⟨bs, hu⟩ : ∃ bs, u = modCur p 1 f (sendTile p tap 1 k ((enOffset e + c.sent) % 2048) 0 [] c.ready e
      (steWrites p e bs s)) := ⟨_, rfl⟩
  have ht := tallied_steWrites w e bs
  have hport1 : (getPart (steWrites p e bs s) p).port < 4 := ht.portNum ▸ hport
  obtain ⟨hw, hcur, hrest, -⟩ := sendTile_spec (tap := tap) (kind := 1) (npay := k) (ofs := (enOffset e + c.sent) % 2048)
    (cmd := 0) (rsegs := []) (pay := c.ready) (e := e) ht.maps
  obtain ⟨pk, hissued, haddr, hofs, hpayload, -⟩ := sendTile_packet (s := steWrites p e bs s) (tap := tap) (kind := 1)
    (npay := k) (ofs := (enOffset e + c.sent) % 2048) (cmd := 0) (rsegs := []) (pay := c.ready) (e := e) hp hport1 (by decide)
    hn (Nat.mod_lt _ (by decide))
  have hkept := ht.kept
  rw [hu]
  refine ⟨(ht.toWorks.trans hw).trans (works_modCur hw.maps), ?_, ?_, ?_, pk, ?_, ?_, hofs, hpayload⟩
  · exact (congrArg State.stk hrest).trans hkept.stk
  · exact (congrArg State.cycle hrest).trans hkept.cycle
  · rw [curOf_modCur hw.maps, ← ht.cur, ← hkept.cycle]
    exact congrArg f hcur
  · rw [← hkept.issued]
    exact hissued
  · unfold Addressed at haddr ⊢
    rwa [ht.portNum, ht.epoch] at haddr

end Sys2Proof.Machine
end

/-! ## A line of the host reaches an entry on tiles (R333, R356) -/

section
namespace Sys2Proof.Machine

variable {s s' : State} {p : Nat} {l : CmdList} {e : Unit512} {c : Entry} {d : Unit512} {bad : Bool} {x : Ecc}

/-- Slots leave in one packet, and the entry asks for more or is done. -/
theorem h2tGo_sends (w : EngineMaps s p) (hp : p < 4) (hport : (getPart s p).port < 4) (ho : openEntry s p 1 = some (l, e, c))
    (hg : MayGo s p none) (hfull : c.ready.length = 8 ∨ c.sent + c.ready.length ≥ enSlots e) (hne : c.ready ≠ [])
    (hlen : c.ready.length ≤ 8) :
    let u := h2tGo p e c s
    u.tiles = s.tiles ∧ u.defects = s.defects ∧ u.stk = s.stk ∧
      ∃ pk, u.issued = s.issued ++ [(pk, none)] ∧ Addressed (getPart s p) p e 1 c.ready.length pk ∧
        hOffset pk.header = (enOffset e + c.sent) % 2048 ∧ pk.payload = c.ready := by
  intro u
  obtain ⟨hw, hstk, -, hcur, pk, hissued, hpk⟩ := sendSlots_spec (tap := none) (e := e) w hp hport
    (show c.ready.length < 16 by omega)
  obtain ⟨-, hend, -, hc⟩ := openEntry_eq_some.mp ho
  have ho' := hw.openEntry ho hcur hend
  have hu : ∃ ps qs a, u = { sendSlots p none e c s with parts := ps, ports := qs, asked := a } := by
    unfold u h2tGo
    rw [hg.entryGate]
    dsimp only
    rw [if_pos ⟨decide_eq_true hfull, hne⟩, ho']
    dsimp only
    split
    · obtain ⟨ps, a, h⟩ := sentAll_eq p e (sendSlots p none e c s)
      exact ⟨ps, _, a, h⟩
    · exact askHost_eq ..
  obtain ⟨ps, qs, a, hu⟩ := hu
  rw [hu]
  exact ⟨hw.tiles, hw.defects, hstk, pk, hissued, hpk⟩

/-- The entry goes on with what the code finds in its partial writes. -/
theorem streamWith_eq (w : EngineMaps s p) (ho : openEntry s p 1 = some (l, e, c)) :
    ∃ v, streamWith x p s = modCur p 1 (fun c => { c with wecc := .clean }) (streamGo p v) ∧ Works p s v ∧
      Kept s v ∧ v.ports = s.ports ∧ openEntry v p 1 = some (l, e, { c with wecc := x }) := by
  obtain ⟨-, hend, -, hc⟩ := openEntry_eq_some.mp ho
  have hw : Works p s (modCur p 1 (fun c => { c with wecc := x }) s) := works_modCur w
  refine ⟨_, rfl, hw, kept_modCur, rfl, hw.openEntry ho ?_ ?_⟩
  · rw [curOf_modCur w, hc]
  · rw [← hc]
    exact hend

/-- The entry once a line has come: a slot of it, or the pattern of a FILL. -/
def lineTaken (e d : Unit512) (bad : Bool) (c : Entry) : Entry :=
  let c := { c with asked := none, poison := c.poison || bad }
  if enOp e = 0x14 then { c with ready := c.ready ++ [(d, bad)], buf := [], bufPoison := false }
  else { c with buf := bytesLE d.toNat 64, bufPoison := bad }

theorem gather_line (d : Unit512) (bad : Bool) : gather 2 (bytesLE d.toNat 64) bad [] = ([(d, bad)], []) := by
  have hlen := length_bytesLE d.toNat 64
  rw [gather, if_neg (by omega), List.take_of_length_le hlen.le, List.drop_eq_nil_of_le hlen.le, unit_bytesLE]
  rfl

/-- The entry takes a whole line and goes on. -/
theorem exec_line {p : Fin 4} (w : EngineMaps s p) (ho : openEntry s p 1 = some (l, e, c)) (hop : enOp e = 0x14 ∨ enOp e = 0x18)
    (ha : c.asked.isSome = true) (hb : c.buf = []) (hbp : c.bufPoison = false) (hlen : c.reqLen = 64)
    (haddr : c.reqAddr % 64 = 0) :
    ∃ v, exec (.cxlCacheResponse p (.data d bad x)) s = .next (modCur p 1 (fun c => { c with wecc := .clean }) (streamGo p v)) ∧
      Works p s v ∧ Kept s v ∧
      openEntry v p 1 = some (l, e, { lineTaken e d bad c with wecc := x }) := by
  obtain ⟨-, hend, -, hc⟩ := openEntry_eq_some.mp ho
  have hslice : slice (bytesLE d.toNat 64) (c.reqAddr % 64) c.reqLen = bytesLE d.toNat 64 := by
    rw [haddr, hlen]
    exact List.take_of_length_le (length_bytesLE ..).le
  have ht := tallied_steReads w e (bytesLE d.toNat 64)
  have hw : Works p s (modCur p 1 (fun _ => lineTaken e d bad c) (steReads p e (bytesLE d.toNat 64) s)) :=
    ht.toWorks.trans (works_modCur ht.maps)
  have hended : (lineTaken e d bad c).ended = none := by
    unfold lineTaken
    split <;> exact (congrArg Entry.ended hc.symm).trans hend
  have htake : takeLine p d bad x e c s =
      streamWith x p (modCur p 1 (fun _ => lineTaken e d bad c) (steReads p e (bytesLE d.toNat 64) s)) := by
    unfold takeLine lineTaken
    dsimp only
    rw [hslice, hb, hbp, List.nil_append, Bool.false_or, gather_line]
    simp
  obtain ⟨v, hv, hwv, hkept, -, hov⟩ := streamWith_eq (x := x) hw.maps (hw.openEntry ho (curOf_modCur ht.maps) hended)
  refine ⟨v, ?_, hw.trans hwv, (ht.kept.trans kept_modCur).trans hkept, hov⟩
  show execCxlCacheResponse p (.data d bad x) s = _
  unfold execCxlCacheResponse
  rw [ho]
  dsimp only
  rw [if_neg (by simpa using Option.isSome_iff_ne_none.mp ha), if_neg (by rcases hop with h | h <;> rw [h] <;> decide),
    htake, hv]

theorem h2t_line {p : Fin 4} (w : EngineMaps s p) (hport : (getPart s p).port < 4)
    (ho : openEntry s p 1 = some (l, e, c)) (hop : enOp e = 0x14) (hs : c.started = true) (ha : c.asked.isSome = true)
    (hb : c.buf = []) (hbp : c.bufPoison = false) (hlen : c.reqLen = 64) (haddr : c.reqAddr % 64 = 0) (hg : MayGo s p none)
    (hn : c.sent + c.ready.length < enSlots e) (hr : c.ready.length < 8)
    (hfull : c.ready.length = 7 ∨ c.sent + c.ready.length + 1 = enSlots e) :
    ∃ u, exec (.cxlCacheResponse p (.data d bad x)) s = .next u ∧ u.tiles = s.tiles ∧ u.defects = s.defects ∧ u.stk = s.stk ∧
      ∃ pk, u.issued = s.issued ++ [(pk, none)] ∧ Addressed (getPart s p) p e 1 (c.ready.length + 1) pk ∧
        hOffset pk.header = (enOffset e + c.sent) % 2048 ∧ pk.payload = c.ready ++ [(d, bad)] := by
  obtain ⟨v, hexec, hwv, hkept, hov⟩ := exec_line (d := d) (bad := bad) (x := x) w ho (.inl hop) ha hb hbp hlen haddr
  rw [lineTaken, if_pos hop] at hov
  obtain ⟨c', hc', hready, hsent, hstart, hask⟩ : ∃ c', openEntry v p 1 = some (l, e, c') ∧ c'.ready = c.ready ++ [(d, bad)] ∧
      c'.sent = c.sent ∧ c'.started = true ∧ c'.asked = none := ⟨_, hov, rfl, rfl, hs, rfl⟩
  have hlen' : c'.ready.length = c.ready.length + 1 := by rw [hready, List.length_append, List.length_singleton]
  have hgv : MayGo v p none := hg.works hwv hkept
  obtain ⟨htiles, hdefects, hstk, pk, hissued, hpk, hofs, hpay⟩ := h2tGo_sends hwv.maps p.isLt (hwv.portNum ▸ hport) hc' hgv
    (by rw [hlen', hsent]; omega) (by rw [hready]; simp) (by omega)
  have hgo := (tileSteps_of_open hc' hstart hask).h2t hop (by omega)
  unfold Addressed at hpk ⊢
  rw [hwv.portNum, hwv.epoch, hlen'] at hpk
  rw [hgo] at hexec
  refine ⟨_, hexec, htiles.trans hwv.tiles, hdefects.trans hwv.defects, hstk.trans hkept.stk, pk,
    hissued.trans (by rw [hkept.issued]), hpk, by rw [hofs, hsent], by rw [hpay, hready]⟩

theorem fill_line {p : Fin 4} (w : EngineMaps s p) (hport : (getPart s p).port < 4)
    (ho : openEntry s p 1 = some (l, e, c)) (hop : enOp e = 0x18) (hfill : isFill e) (hs : c.started = true)
    (ha : c.asked.isSome = true) (hb : c.buf = []) (hbp : c.bufPoison = false) (hlen : c.reqLen = 64)
    (haddr : c.reqAddr % 64 = 0) (hg : MayGo s p none) (hpk : c.packets = 0) :
    ∃ u, exec (.cxlCacheResponse p (.data d bad x)) s = .next u ∧ u.tiles = s.tiles ∧ u.defects = s.defects ∧ u.stk = s.stk ∧
      ∃ pk, u.issued = s.issued ++ [(pk, none)] ∧ Addressed (getPart s p) p e 3 1 pk ∧ pk.payload = [(d, bad)] := by
  obtain ⟨v, hexec, hwv, hkept, hov⟩ := exec_line (d := d) (bad := bad) (x := x) w ho (.inr hop) ha hb hbp hlen haddr
  rw [lineTaken, if_neg (by rw [hop]; decide)] at hov
  obtain ⟨c', hc', hbuf, hpoison, hpackets, hstart, hask⟩ : ∃ c', openEntry v p 1 = some (l, e, c') ∧
      c'.buf = bytesLE d.toNat 64 ∧ c'.bufPoison = bad ∧ c'.packets = 0 ∧ c'.started = true ∧ c'.asked = none :=
    ⟨_, hov, rfl, rfl, hpk, hs, rfl⟩
  have hl : c'.buf.length = 64 := by rw [hbuf, length_bytesLE]
  have hpay : [(BitVec.ofNat 512 (ofBytesLE (c'.buf.take 64)), c'.bufPoison)] = [(d, bad)] := by
    rw [List.take_of_length_le hl.le, hbuf, unit_bytesLE, hpoison]
  have hgv : MayGo v p none := hg.works hwv hkept
  obtain ⟨v', hgo, hwv', hstk, -, -, pk, hissued, haddr', hpayload⟩ :=
    tcmdGo_sends hwv.maps p.isLt (hwv.portNum ▸ hport) hc' hgv
    hpackets (.inl ⟨hfill, hl.ge, rfl⟩)
  obtain ⟨ps', a, hall⟩ := sentAll_eq p e v'
  unfold Addressed at haddr' ⊢
  rw [hwv.portNum, hwv.epoch] at haddr'
  rw [(tileSteps_of_open hc' hstart hask).tcmd hop, hgo, hall] at hexec
  exact ⟨_, hexec, hwv'.tiles.trans hwv.tiles, hwv'.defects.trans hwv.defects, hstk.trans hkept.stk, pk,
    hissued.trans (by rw [hkept.issued]), haddr', hpayload.trans hpay⟩

end Sys2Proof.Machine
end

/-! ## Slots of a tile come back (R211, R214, R215, R356) -/

section
namespace Sys2Proof.Machine

variable {s s' : State} {p : Nat} {l : CmdList} {e : Unit512} {c : Entry} {k : Packet} {r : ReadOut} {x : Ecc}

theorem tileEntry_of_op (h : enOp e = 0x16 ∨ enOp e = 0x17) : tileEntry e = true := by
  unfold tileEntry
  rcases h with h | h
  · rw [h]
    rfl
  · rw [h]
    rfl

/-- The entry with the slots of a response in hand. -/
def slotsTaken (e : Unit512) (k : Packet) (x : Ecc) (c : Entry) : Entry :=
  let bad := (k.payload.filter (·.2)).length
  { c with buf := slotBytes k.payload, ready := k.payload, place := 64 * ((hOffset k.header + 2048 - enOffset e) % 2048)
           poison := c.poison || decide (bad > 0), poisoned := c.poisoned + bad, wecc := x }

/-- The entry takes the slots that a read asked for and goes on. -/
theorem exec_resp {p : Fin 4} (w : EngineMaps s p) (hport : (getPart s p).port < 4)
    (ho : openEntry s p 1 = some (l, e, c)) (hop : enOp e = 0x16 ∨ enOp e = 0x17) (hs : c.started = true)
    (hresps : s.resps = [k]) (hby : k.by_ = 2 + (getPart s p).port) (htag : hTag k.header = p.val)
    (hfind : s.asked.find? (answers k) = some r) (hb : c.buf = []) (hlt : 64 * c.sent > c.moved) :
    ∃ v, exec (.resp ⟨p, x⟩) s = .next (modCur p 1 (fun c => { c with wecc := .clean }) (streamGo p v)) ∧ Works p s v ∧
      v.resps = [] ∧ v.asked = s.asked.erase r ∧ v.stk = s.stk ∧ (∀ o, (getPort v o).out = (getPort s o).out) ∧
      openEntry v p 1 = some (l, e, slotsTaken e k x c) := by
  obtain ⟨-, hend, -, hc⟩ := openEntry_eq_some.mp ho
  let s1 := { advanceTo s (max s.cycle k.ready) with resps := [], asked := s.asked.erase r }
  have w1 : EngineMaps s1 p := ⟨w.parts, w.ports, w.eng, w.spines⟩
  have h1 : Works p s s1 := ⟨rfl, w1, rfl, fun _ => rfl, fun _ => rfl⟩
  have ht := tallied_steReads w1 e (slotBytes k.payload)
  let f : Entry → Entry := fun c => { c with
    buf := slotBytes k.payload, ready := k.payload, place := 64 * ((hOffset k.header + 2048 - enOffset e) % 2048)
    poison := c.poison || decide ((k.payload.filter (·.2)).length > 0)
    poisoned := c.poisoned + (k.payload.filter (·.2)).length }
  have hw : Works p s (modCur p 1 f (steReads p e (slotBytes k.payload) s1)) :=
    (h1.trans ht.toWorks).trans (works_modCur ht.maps)
  have hcur : curOf (modCur p 1 f (steReads p e (slotBytes k.payload) s1)) p = f c :=
    (curOf_modCur ht.maps).trans (congrArg f (ht.cur.trans hc))
  obtain ⟨v, hv, hwv, hkept, hports, hov⟩ := streamWith_eq (x := x) hw.maps (hw.openEntry ho hcur (hc ▸ hend))
  have hk : Kept s1 v := (ht.kept.trans kept_modCur).trans hkept
  have htake : takeResp (streamIssuer (getPart s p).port) p s.resps = some (k, []) := by
    rw [hresps, takeResp, if_pos ⟨.inl hby, htag⟩]
  have hslots : respSlots p k x s1 = streamWith x p (modCur p 1 f (steReads p e (slotBytes k.payload) s1)) := by
    unfold respSlots
    rw [show openEntry s1 p 1 = _ from ho]
    dsimp only
    rw [if_pos ⟨hs, hop, hb, hlt⟩]
    rfl
  refine ⟨v, ?_, hw.trans hwv, hk.resps, hk.asked, hk.stk, fun o => ?_, hov⟩
  · show execResp ⟨p, x⟩ s = _
    unfold execResp
    rw [htake]
    dsimp only
    rw [show (advanceTo s (max s.cycle k.ready)).asked.find? (answers k) = some r from hfind]
    dsimp only
    rw [if_neg (by omega), ← hv, ← hslots]
    rfl
  · rw [getPort, hports]
    exact ht.out o

/-- Whatever the gate says, the bytes in hand stay counted. -/
theorem readTile_keeps (w : EngineMaps s p) (ho : openEntry s p 1 = some (l, e, c)) :
    let u := readTile p e c s
    Works p s u ∧ u.stk = s.stk ∧ u.resps = s.resps ∧ (curOf u p).moved = c.moved := by
  intro u
  unfold u readTile
  extract_lets n t
  obtain ⟨-, -, -, hc⟩ := openEntry_eq_some.mp ho
  split
  next st _ =>
    obtain ⟨hw, hcur, ps, a, hrest⟩ := endMoved_spec (e := e) (c := c) w ho st
    refine ⟨hw, ?_, ?_, ?_⟩
    · rw [hrest]
    · rw [hrest]
    · rw [hcur]
  · exact ⟨Works.refl w, rfl, rfl, by rw [hc]⟩
  · obtain ⟨hw, hcur, hrest, -⟩ := sendTile_spec (tap := t) (kind := 2) (npay := n) (ofs := (enOffset e + c.sent) % 2048)
      (cmd := 0)
      (rsegs := returnRoute s t.isSome (enX e) (enY e)) (pay := []) (e := e) w
    refine ⟨hw.trans (works_modCur hw.maps), ?_, ?_, ?_⟩
    · exact (congrArg State.stk hrest).trans rfl
    · exact (congrArg State.resps hrest).trans rfl
    · rw [curOf_modCur hw.maps, hcur, hc]

/-- Slots in hand go to the host, a line or part of one at a time. -/
theorem t2xGo_of_t2h (hop : enOp e = 0x16) (hm : c.moved < 64 * enSlots e) (hb : c.buf ≠ []) :
    t2xGo p e c s = giveHost p c.place (c.buf.take (64 - (enHaddr e + c.place) % 64)) e c s := by
  unfold t2xGo
  rw [if_neg (by omega), if_pos hb, if_pos hop]

/-- Slots in hand have been written. -/
def slotsDone (c : Entry) : Entry := { c with moved := c.moved + c.buf.length, buf := [], ready := [] }

/-- Slots in hand are written to memory that no host holds, and the next are read. -/
theorem t2xGo_of_t2s (hop : enOp e = 0x17) (hm : c.moved < 64 * enSlots e) (hb : c.buf ≠ [])
    (htr : trackedLines s p (enSaddr e + c.place) c.buf.length = []) :
    let v := modCur p 1 (fun _ => slotsDone c)
      (steWrites p e c.buf (c.ready.zipIdx.foldl (putRespSlot p (enSaddr e + c.place) c.wecc) s))
    t2xGo p e c s = if (slotsDone c).moved ≥ 64 * enSlots e then endMoved p 0 e (slotsDone c) v
      else readTile p e (slotsDone c) v := by
  have hfree : untracked p (enSaddr e + c.place) c.buf.length s = (s, true) := by
    unfold untracked
    rw [htr]
  unfold t2xGo
  rw [if_neg (by omega), if_pos hb, if_neg (by rw [hop]; decide)]
  dsimp only
  rw [hfree]
  rfl

theorem t2h_resp {p : Fin 4} (w : EngineMaps s p) (hport : (getPart s p).port < 4)
    (ho : openEntry s p 1 = some (l, e, c)) (hop : enOp e = 0x16) (hs : c.started = true) (ha : c.asked = none)
    (hresps : s.resps = [k]) (hby : k.by_ = 2 + (getPart s p).port) (htag : hTag k.header = p.val)
    (hfind : s.asked.find? (answers k) = some r) (hb : c.buf = []) (hne : k.payload ≠ []) (hlt : 64 * c.sent > c.moved)
    (hmoved : c.moved < 64 * enSlots e) (hup : (getPort s (getPart s p).port).up = true) :
    let o := (getPart s p).port
    let a := enHaddr e + 64 * ((hOffset k.header + 2048 - enOffset e) % 2048)
    ∃ u, exec (.resp ⟨p, x⟩) s = .next u ∧ u.tiles = s.tiles ∧ u.defects = s.defects ∧ u.resps = [] ∧ u.stk = s.stk ∧
      u.asked = s.asked.erase r ∧
      (getPort u o).out = (getPort s o).out ++ [.write a ((slotBytes k.payload).take (64 - a % 64)) (decide (a % 64 = 0))] := by
  intro o a
  obtain ⟨v, hexec, hwv, hr, hasked, hstk, hout, hov⟩ := exec_resp (x := x) w hport ho (.inl hop) hs
    hresps hby htag hfind hb hlt
  have hlen := length_slotBytes k.payload
  have hpos : 0 < k.payload.length := List.length_pos_iff.mpr hne
  have hbuf : slotBytes k.payload ≠ [] := List.ne_nil_of_length_pos (by omega)
  have hgo : streamGo p v = giveHost p (slotsTaken e k x c).place ((slotBytes k.payload).take (64 - a % 64)) e (slotsTaken e k x c) v := by
    rw [(tileSteps_of_open hov hs ha).t2x (.inl hop)]
    exact t2xGo_of_t2h hop hmoved hbuf
  have hwhole : decide (((slotBytes k.payload).take (64 - a % 64)).length = 64) = decide (a % 64 = 0) := by
    rw [List.length_take, hlen]
    exact decide_eq_decide.mpr (by omega)
  obtain ⟨hwu, -, hrest, hsent⟩ := giveHost_spec (ofs := (slotsTaken e k x c).place) (e := e) (c := slotsTaken e k x c)
    (bs := (slotBytes k.payload).take (64 - a % 64)) hwv.maps (by rw [hwv.portNum, hwv.up]; exact hup)
  rw [hwv.portNum, hout, hwhole] at hsent
  rw [← hgo] at hwu hrest hsent
  refine ⟨_, hexec, hwu.tiles.trans hwv.tiles, hwu.defects.trans hwv.defects, ?_, ?_, ?_, hsent⟩
  · exact (congrArg State.resps hrest).trans hr
  · exact (congrArg State.stk hrest).trans hstk
  · exact (congrArg State.asked hrest).trans hasked

theorem RunPut.congr {q q' : Partition} {ok : Prop} {pa : Nat} {bs : List Byte} {t t' : State} (h : RunPut q ok pa bs s s')
    (hq : ∀ a, paToDa q' a = paToDa q a) (h1 : t.stk = s.stk) (h2 : t'.stk = s'.stk) : RunPut q' ok pa bs t t' where
  others a ha := by
    rw [h1, h2]
    exact h.others a fun i hi => by rw [← hq]; exact ha i hi
  bytes hok i hi := by
    rw [h2, hq]
    exact h.bytes hok i hi
  wf := h2 ▸ h.wf

theorem Marked.congr {q q' : Partition} {pa : Nat} {sl : List (Unit512 × Bool)} {t t' : State} (h : Marked q pa sl s s')
    (hq : ∀ a, paToDa q' a = paToDa q a) (h1 : t.stk = s.stk) (h2 : t'.stk = s'.stk) : Marked q' pa sl t t' where
  others k hk := by
    rw [h1, h2]
    exact h.others k fun j hj => by rw [← hq]; exact hk j hj
  marks j hj := by
    rw [h2, hq]
    exact h.marks j hj

theorem t2s_resp {p : Fin 4} (w : EngineMaps s p) (hport : (getPart s p).port < 4)
    (ho : openEntry s p 1 = some (l, e, c)) (hop : enOp e = 0x17) (hs : c.started = true) (ha : c.asked = none)
    (hresps : s.resps = [k]) (hby : k.by_ = 2 + (getPart s p).port) (htag : hTag k.header = p.val)
    (hfind : s.asked.find? (answers k) = some r) (hb : c.buf = []) (hne : k.payload ≠ []) (hlt : 64 * c.sent > c.moved)
    (hmoved : c.moved < 64 * enSlots e) (wm : Memory.wf s.stk.mem) (wp : mwf false s.stk.poison = true) :
    let q := getPart s p
    let m := k.payload.length
    let pa := enSaddr e + 64 * ((hOffset k.header + 2048 - enOffset e) % 2048)
    trackedLines s p pa (64 * m) = [] → (∀ i < 64 * m, stackServes s (paToDa q (pa + i)) = true) →
    ∃ u, exec (.resp ⟨p, x⟩) s = .next u ∧ u.tiles = s.tiles ∧ u.defects = s.defects ∧ u.resps = [] ∧
      RunPut q (pa % 64 = 0 ∨ x ≠ .double) pa (slotBytes k.payload) s u ∧ (pa % 64 = 0 → Marked q pa k.payload s u) ∧
      (curOf u p).moved = c.moved + 64 * m ∧ (c.moved + 64 * m = 64 * enSlots e →
        (curOf u p).ended = some (0, enSlots e, c.poisoned + (k.payload.filter (·.2)).length)) := by
  intro q m pa htr hserve
  obtain ⟨v, hexec, hwv, hr, -, hstk, -, hov⟩ := exec_resp (x := x) w hport ho (.inr hop) hs hresps hby htag hfind hb hlt
  have hlen : (slotBytes k.payload).length = 64 * m := length_slotBytes k.payload
  have hpos : 0 < m := List.length_pos_iff.mpr hne
  have hbuf : slotBytes k.payload ≠ [] := List.ne_nil_of_length_pos (by omega)
  let v1 := (k.payload.zipIdx).foldl (putRespSlot p pa x) v
  obtain ⟨hside, hrun, hmark⟩ : StackSide v v1 ∧ _ := putRespSlots_spec (k := 0) (q := getPart v p)
    (hstk ▸ wm) hwv.maps.spines rfl
    (fun i hi => by rw [hwv.stackServes, hwv.paToDa]; exact hserve i hi)
  obtain ⟨hw1, hpart1⟩ := hside.works hwv.maps
  have ht := tallied_steWrites hw1.maps e (slotBytes k.payload)
  let c2 := slotsDone (slotsTaken e k x c)
  let v2 := modCur p 1 (fun _ => c2) (steWrites p e (slotBytes k.payload) v1)
  have hw2 : Works p v v2 := (hw1.trans ht.toWorks).trans (works_modCur ht.maps)
  have hcur2 : curOf v2 p = c2 := curOf_modCur ht.maps
  obtain ⟨-, hend, -, hcv⟩ := openEntry_eq_some.mp hov
  have hov2 : openEntry v2 p 1 = some (l, e, c2) := hw2.openEntry hov hcur2 ((congrArg Entry.ended hcv).symm.trans hend)
  have hc2 : c2.moved = c.moved + 64 * m := congrArg (c.moved + ·) hlen
  have hstk2 : v2.stk = v1.stk := ht.kept.stk
  have hresps2 : v2.resps = [] := ht.kept.resps.trans ((congrArg State.resps hside.rest).trans hr)
  have hgo : streamGo p v = if c2.moved ≥ 64 * enSlots e then endMoved p 0 e c2 v2 else readTile p e c2 v2 := by
    rw [(tileSteps_of_open hov hs ha).t2x (.inr hop)]
    exact t2xGo_of_t2s hop hmoved hbuf (by
      rw [hwv.trackedLines]
      exact (congrArg _ hlen).trans htr)
  rw [hgo] at hexec
  have hdone : let u := if c2.moved ≥ 64 * enSlots e then endMoved p 0 e c2 v2 else readTile p e c2 v2
      Works p v2 u ∧ u.stk = v2.stk ∧ u.resps = v2.resps ∧ (curOf u p).moved = c2.moved ∧
        (c2.moved ≥ 64 * enSlots e → (curOf u p).ended = some (0, enMoved e c2, c2.poisoned)) := by
    intro u
    unfold u
    split
    next =>
      obtain ⟨hwu, hcu, ps, a, hrest⟩ := endMoved_spec (e := e) (c := c2) hw2.maps hov2 0
      exact ⟨hwu, by rw [hrest], by rw [hrest], by rw [hcu], fun _ => by rw [hcu]⟩
    next h =>
      obtain ⟨hwu, hs1, hs2, hs3⟩ := readTile_keeps (e := e) hw2.maps hov2
      exact ⟨hwu, hs1, hs2, hs3, fun h' => absurd h' h⟩
  obtain ⟨hwu, hstku, hrespsu, hmovedu, hendu⟩ := hdone
  generalize (if c2.moved ≥ 64 * enSlots e then endMoved p.val 0 e c2 v2 else readTile p e c2 v2) = u at *
  have hw : Works p v (modCur p 1 (fun c => { c with wecc := .clean }) u) := (hw2.trans hwu).trans (works_modCur hwu.maps)
  have hcur := curOf_modCur (f := fun c => { c with wecc := .clean }) hwu.maps
  refine ⟨_, hexec, hw.tiles.trans hwv.tiles, hw.defects.trans hwv.defects, hrespsu.trans hresps2,
    hrun.congr (fun a => (hwv.paToDa a).symm) hstk.symm (hstku.trans hstk2),
    fun hpa => (hmark hpa (hstk ▸ wp)).congr (fun a => (hwv.paToDa a).symm) hstk.symm (hstku.trans hstk2), ?_, fun hall => ?_⟩
  · rw [hcur]
    exact hmovedu.trans hc2
  · rw [hcur]
    refine (hendu (by rw [hc2, hall])).trans ?_
    rw [enMoved_of_tile (tileEntry_of_op (.inr hop)), hc2, hall, Nat.mul_div_cancel_left _ (by decide)]
    rfl

end Sys2Proof.Machine
end

/-! ## A piece of stack memory reaches S2T (R237, R242, R356) -/

section
namespace Sys2Proof.Machine

variable {s s' s'' : State} {p pa n : Nat} {l : CmdList} {e : Unit512} {c : Entry}

/-! ### Packet after packet -/

/-- The entry has gone on, and packets have at most been added to those that are out. -/
structure Grown (p : Nat) (s s' : State) : Prop extends Works p s s' where
  stk : s'.stk = s.stk
  issued : ∃ more, s'.issued = s.issued ++ more

theorem Grown.refl (w : EngineMaps s p) : Grown p s s := ⟨Works.refl w, rfl, [], (List.append_nil _).symm⟩

theorem Grown.trans (h : Grown p s s') (h' : Grown p s' s'') : Grown p s s'' where
  toWorks := h.toWorks.trans h'.toWorks
  stk := h'.stk.trans h.stk
  issued := by
    obtain ⟨m, hm⟩ := h.issued
    obtain ⟨m', hm'⟩ := h'.issued
    exact ⟨m ++ m', by rw [hm', hm, List.append_assoc]⟩

theorem Works.grown (h : Works p s s') (hstk : s'.stk = s.stk) (hi : s'.issued = s.issued) : Grown p s s' :=
  ⟨h, hstk, [], by rw [hi, List.append_nil]⟩

theorem Tallied.grown (h : Tallied p s s') : Grown p s s' := h.toWorks.grown h.kept.stk h.kept.issued

theorem grown_modCur {f : Entry → Entry} (w : EngineMaps s p) : Grown p s (modCur p 1 f s) := (works_modCur w).grown rfl rfl

theorem grown_snoopLines (w : EngineMaps s p) (o : Nat) (ls : List Nat) : Grown p s (snoopLines o ls s) := by
  refine Works.grown ⟨rfl, ⟨w.parts, modPort_wf w.ports, w.eng, w.spines⟩, rfl, fun k => ?_, fun _ => rfl⟩ rfl rfl
  rw [getPort, snoopLines, modPort, mget_mmod_eq w.ports]
  split
  next h => rw [h]; rfl
  next => rfl

theorem grown_arriveRead (w : EngineMaps s p) (k g arr : Nat) (rd : Reader) : Grown p s (arriveRead k g arr rd s) := by
  obtain ⟨hside, hstk⟩ := stackSide_arriveRead k g arr rd s
  exact (hside.works w).1.grown hstk ((congrArg State.issued hside.rest).trans rfl)

theorem grown_untracked (w : EngineMaps s p) (pa n : Nat) : Grown p s (untracked p pa n s).1 := by
  unfold untracked
  split
  · exact Grown.refl w
  · exact grown_snoopLines w ..

/-- Asking for the pieces of a run changes nothing else. -/
theorem grown_fetchRun (w : EngineMaps s p) (pa n fuel : Nat) : Grown p s (fetchRun p pa n fuel s).1 := by
  induction fuel generalizing s with
  | zero => exact Grown.refl w
  | succ fuel ih =>
    rw [fetchRun]
    split
    · exact Grown.refl w
    next c _ =>
      extract_lets got a m
      split
      · exact Grown.refl w
      · split
        · exact Grown.refl w
        · have hun := grown_untracked w (pa + got) (n - got)
          generalize untracked p (pa + got) (n - got) s = z at hun
          obtain ⟨v, free⟩ := z
          dsimp only at hun ⊢
          split
          · exact hun
          · split
            · have hnum := (works_numbered hun.maps).1
              exact hun.trans ((hnum.grown rfl rfl).trans (grown_arriveRead hnum.maps ..))
            · exact hun.trans ((grown_modCur hun.maps).trans (ih (grown_modCur hun.maps).maps))

theorem grown_sendSlots {tap : Option Nat} (w : EngineMaps s p) (hp : p < 4) (hport : (getPart s p).port < 4)
    (hn : c.ready.length < 16) : Grown p s (sendSlots p tap e c s) := by
  obtain ⟨hw, hstk, -, -, pk, hissued, -⟩ := sendSlots_spec (tap := tap) (e := e) w hp hport hn
  exact ⟨hw, hstk, _, hissued⟩

theorem grown_s2tOne (w : EngineMaps s p) (hp : p < 4) (hport : (getPart s p).port < 4) : Grown p s (s2tOne p e s) := by
  unfold s2tOne
  split
  · exact Grown.refl w
  next c _ =>
    dsimp only
    split
    · exact Grown.refl w
    · have hf := grown_fetchRun w (enSaddr e + 64 * c.sent) (64 * min 8 (enSlots e - c.sent))
        (64 * min 8 (enSlots e - c.sent) / 64 + 3)
      unfold fetched
      generalize fetchRun p (enSaddr e + 64 * c.sent) (64 * min 8 (enSlots e - c.sent)) _ s = z at hf
      obtain ⟨v, all⟩ := z
      cases all with
      | false => exact hf
      | true =>
        dsimp only at hf ⊢
        split
        · exact hf
        next c' _ =>
          have ht := tallied_steReads hf.maps e (rbufBytes c')
          refine hf.trans (ht.grown.trans ((grown_modCur ht.maps).trans (grown_sendSlots ?_ hp ?_ ?_)))
          · exact (grown_modCur ht.maps).maps
          · rw [(grown_modCur ht.maps).portNum, ht.portNum, hf.portNum]
            exact hport
          · rw [List.length_map, List.length_range]
            omega
    · exact Grown.refl w

/-- The slots that bytes make. -/
def slotsOf (bs : List Byte) (n : Nat) : List Unit512 :=
  (List.range n).map fun j => BitVec.ofNat 512 (ofBytesLE (slice bs (64 * j) 64))

/-- With its slots in hand the entry sends a packet of them. -/
theorem s2tOne_sends (w : EngineMaps s p) (hp : p < 4) (hport : (getPart s p).port < 4) (ho : openEntry s p 1 = some (l, e, c))
    (hg : MayGo s p (tileTap s e)) (hn : c.sent < enSlots e)
    (hlen : (rbufBytes c).length = 64 * min 8 (enSlots e - c.sent)) :
    let m := min 8 (enSlots e - c.sent)
    let u := s2tOne p e s
    Grown p s u ∧ (∃ c', openEntry u p 1 = some (l, e, c') ∧ c'.sent = c.sent + m ∧ c'.moved = c.moved + 64 * m) ∧
      ∃ pk, u.issued = s.issued ++ [(pk, tileTap s e)] ∧ Addressed (getPart s p) p e 1 m pk ∧
        hOffset pk.header = (enOffset e + c.sent) % 2048 ∧ pk.payload.map (·.1) = slotsOf (rbufBytes c) m := by
  intro m u
  obtain ⟨-, hend, -, hc⟩ := openEntry_eq_some.mp ho
  let slots := (List.range m).map fun k =>
    (BitVec.ofNat 512 (ofBytesLE (slice (rbufBytes c) (64 * k) 64)), badAt (64 * k) 64 0 c.rbuf)
  let c1 : Entry := { c with ready := slots, rbuf := [], poison := c.poison || slots.any (·.2) }
  let v := modCur p 1 (fun _ => c1) (steReads p e (rbufBytes c) s)
  have ht := tallied_steReads w e (rbufBytes c)
  have hwv : Works p s v := ht.toWorks.trans (works_modCur ht.maps)
  have hkv : Kept s v := ht.kept.trans kept_modCur
  have hcv : curOf v p = c1 := curOf_modCur ht.maps
  have hsum : (c.rbuf.map (·.1.length)).sum = 64 * m := by
    rw [← hlen, rbufBytes, List.length_flatMap]
  have hf : fetched p (enSaddr e + 64 * c.sent) (64 * m) s = (s, true) := by
    unfold fetched
    rw [fetchRun, ho]
    dsimp only
    rw [if_pos hsum.ge]
  have hpos : m ≠ 0 := by omega
  have hu : u = sendSlots p (tileTap s e) e c1 v := by
    unfold u s2tOne
    rw [ho]
    dsimp only
    rw [hg.entryGate]
    split
    next h => exact absurd h hpos
    next =>
      rw [show fetched p (enSaddr e + 64 * c.sent) (64 * min 8 (enSlots e - c.sent)) s = (s, true) from hf]
      dsimp only
      rw [ho]
    next h => exact absurd rfl h
  have hready : c1.ready.length = m := by simp [c1, slots]
  have hport' : (getPart v p).port < 4 := hwv.portNum ▸ hport
  obtain ⟨hw, hstk, -, hcur, pk, hissued, haddr, hofs, hpay⟩ := sendSlots_spec (tap := tileTap s e) (e := e)
    (c := c1) hwv.maps hp hport' (by omega)
  rw [hcv, hready] at hcur
  rw [hu]
  unfold Addressed at haddr ⊢
  rw [hwv.portNum, hwv.epoch, hready] at haddr
  have how := (hwv.trans hw).openEntry ho hcur ((congrArg Entry.ended hc).symm.trans hend)
  refine ⟨⟨hwv.trans hw, hstk.trans hkv.stk, [(pk, tileTap s e)], by rw [hissued, hkv.issued]⟩, ⟨_, how, rfl, rfl⟩, pk,
    by rw [hissued, hkv.issued], haddr, hofs, ?_⟩
  rw [hpay]
  simp [c1, slots, slotsOf]

/-- S2T once its packets have left: done with all of them, or waiting for the next. -/
def s2tRest (p : Nat) (e : Unit512) (s : State) : State :=
  match openEntry s p 1 with
  | some (_, _, c) => if c.sent ≥ enSlots e then sentAll p e s else s
  | none => s

/-- Packets leave as long as their slots are there; the first takes those in hand. -/
theorem s2tGo_sends (w : EngineMaps s p) (hp : p < 4) (hport : (getPart s p).port < 4) (ho : openEntry s p 1 = some (l, e, c))
    (hop : enOp e = 0x15) (hg : MayGo s p (tileTap s e)) (hn : c.sent < enSlots e)
    (hlen : (rbufBytes c).length = 64 * min 8 (enSlots e - c.sent)) :
    let m := min 8 (enSlots e - c.sent)
    let u := s2tGo p e c s
    u.tiles = s.tiles ∧ u.defects = s.defects ∧ u.stk = s.stk ∧ EngineMaps u p ∧
      (enSlots e ≤ c.sent + 8 → (curOf u p).sent = enSlots e) ∧
      (enSlots e ≤ c.sent + 8 → enConfirm e = false →
        ∃ k, (curOf u p).ended = some (0, (c.moved + 64 * (enSlots e - c.sent)) / 64, k)) ∧
      ∃ pk more, u.issued = s.issued ++ (pk, tileTap s e) :: more ∧ (enSlots e ≤ c.sent + 8 → more = []) ∧
        Addressed (getPart s p) p e 1 m pk ∧ hOffset pk.header = (enOffset e + c.sent) % 2048 ∧
        pk.payload.map (·.1) = slotsOf (rbufBytes c) m := by
  intro m u
  obtain ⟨hg1, ⟨c1, ho1, hsent, hmoved⟩, pk, hissued, hpk⟩ := s2tOne_sends w hp hport ho hg hn hlen
  generalize hs1 : s2tOne p e s = s1 at hg1 ho1 hissued
  obtain ⟨v, hv⟩ : ∃ v, Nat.repeat (s2tOne p e) 256 s = v := ⟨_, rfl⟩
  obtain ⟨hgv, hlast⟩ : Grown p s1 v ∧ (enSlots e ≤ c.sent + 8 → v = s1) := by
    rw [← hv]
    refine repeat_induction (P := fun v => Grown p s1 v ∧ (enSlots e ≤ c.sent + 8 → v = s1)) ?_ ?_ 255
    · rw [hs1]
      exact ⟨Grown.refl hg1.maps, fun _ => rfl⟩
    · rintro v ⟨hgv, hlast⟩
      refine ⟨hgv.trans (grown_s2tOne hgv.maps hp (by rw [hgv.portNum, hg1.portNum]; exact hport)), fun h => ?_⟩
      rw [hlast h]
      exact s2tOne_of_sent ho1 (by omega)
  have hu : u = s2tRest p e v := by
    unfold u s2tGo s2tRest
    rw [hg.gate]
    dsimp only
    rw [hv] <;> rfl
  obtain ⟨more, hmore⟩ := hgv.issued
  have hall := hg1.trans hgv
  have hframe : EngineMaps u p ∧ ∃ ps a, u = { v with parts := ps, asked := a } := by
    rw [hu]
    unfold s2tRest
    split
    next ho' =>
      split
      · exact ⟨(works_sentAll hgv.maps ho').maps, sentAll_eq p e v⟩
      · exact ⟨hgv.maps, _, _, rfl⟩
    · exact ⟨hgv.maps, _, _, rfl⟩
  obtain ⟨hmaps, ps, a, hrest⟩ := hframe
  have hfinal (h : enSlots e ≤ c.sent + 8) : u = sentAll p e s1 := by
    rw [hu, hlast h, s2tRest, ho1]
    exact if_pos (by omega)
  refine ⟨by rw [hrest]; exact hall.tiles, by rw [hrest]; exact hall.defects, by rw [hrest]; exact hall.stk, hmaps,
    fun h => ?_, fun h hplain => ⟨c1.poisoned, ?_⟩, pk, more, ?_, fun h => ?_, hpk⟩
  · rw [hfinal h]
    have hdone : c1.sent = enSlots e := by omega
    cases hconf : enConfirm e with
    | true =>
      obtain ⟨-, -, -, hc1⟩ := openEntry_eq_some.mp ho1
      rw [(sentAll_of_confirm hg1.maps hconf).2, hc1]
      exact hdone
    | false =>
      rw [(sentAll_of_plain hg1.maps ho1 hconf).2]
      exact hdone
  · have htile : tileEntry e = true := by
      unfold tileEntry
      rw [hop]
      rfl
    have hm : m = enSlots e - c.sent := by omega
    rw [hfinal h, (sentAll_of_plain hg1.maps ho1 hplain).2, enMoved_of_tile htile, hmoved,
      show min 8 (enSlots e - c.sent) = m from rfl, hm]
  · rw [hrest, show ({ v with parts := ps, asked := a } : State).issued = v.issued from rfl, hmore, hissued, List.append_assoc]
    rfl
  · have := hmore
    rw [hlast h] at this
    exact List.self_eq_append_right.mp this

/-! ### The read returns -/

/-- The chunks of a granule that returns, checked in order. -/
def checkedChunks (n sl : Nat) (r : DramRead) (e : ChunkEcc) (s : State) : State × List (Nat × Nat) :=
  (List.range 4).foldl (fun (s, ps) k => let (s, p) := checkChunk n sl r e k s; (s, ps ++ [(b2n p, 1)])) (s, [])

/-- A piece of stack memory reaches the entry, which goes on with it. -/
theorem exec_piece {d : Fin 48} {sl : Fin 64} {ce : ChunkEcc} {bs : List Byte} {bad : Nat} (w : EngineMaps s p)
    (ho : openEntry s p 1 = some (l, e, c)) (hpiece : PieceComes s p c d sl ce bs bad) :
    ∃ v c', exec (.dramReadReturn d sl ce) s = .next (modCur p 1 (fun c => { c with wecc := .clean }) (streamGo p v)) ∧
      Works p s v ∧ v.stk.mem = s.stk.mem ∧ v.issued = s.issued ∧ v.asked = s.asked ∧ v.pktSeq = s.pktSeq ∧
      openEntry v p 1 = some (l, e, c') ∧ rbufBytes c' = bs ∧ c'.started = c.started ∧ c'.asked = c.asked ∧ c'.sent = c.sent ∧
      c'.moved = c.moved := by
  obtain ⟨-, hend, -, hc⟩ := openEntry_eq_some.mp ho
  obtain ⟨r, rest, no, ofs, len, htake, hjoins, hreading, -, -, -, hbs, -⟩ := hpiece
  let s1 := advanceTo s (max s.cycle r.due)
  have w1 : EngineMaps s1 p := ⟨w.parts, w.ports, w.eng, w.spines⟩
  have h1 : Works p s s1 := ⟨rfl, w1, rfl, fun _ => rfl, fun _ => rfl⟩
  let z := checkedChunks d.val sl.val r ce s1
  let put : Spine → Spine := fun sp => { sp with reads := mset [] sp.reads sl.val (freeEntries z.1.cycle rest) }
  obtain ⟨hside, hmem⟩ : StackSide s1 z.1 ∧ _ := stackSide_checkChunks d.val sl.val r ce (List.range 4) s1 []
  have hside2 : StackSide s1 (modSpine z.1 d.val put) := hside.trans (stackSide_modSpine fun _ => rfl)
  let s2 := modSpine z.1 d.val put
  obtain ⟨hw2, hpart2⟩ := hside2.works w1
  let s3 := modCur p 1 (fun c => { c with wecc := ce.w }) s2
  have hw3 : Works p s s3 := (h1.trans hw2).trans (works_modCur hw2.maps)
  have hcur2 : curOf s2 p = c := (congrArg (fun q => (getEng q 1).cur) hpart2).trans hc
  have hcur3 : curOf s3 p = { c with wecc := ce.w } := by
    rw [← hcur2]
    exact curOf_modCur hw2.maps
  have hov3 := hw3.openEntry ho hcur3 ((congrArg Entry.ended hc).symm.trans hend)
  let got := slice (bytesLE r.data.toNat 256) ofs len
  let bad' := bit (packFields z.2) (ofs / 64)
  let f : Entry → Entry := fun c => { c with reading := none, rbuf := c.rbuf ++ [(got, bad')] }
  have hexec : exec (.dramReadReturn d sl ce) s = .next (setWecc .clean r.joins
      (r.joins.foldl (fun s rd => deliverRead d.val r.data (packFields z.2) rd s) (setWecc ce.w r.joins s2))) := by
    show execDramReadReturn d sl ce s = _
    unfold execDramReadReturn
    rw [htake]
    rfl
  have hdata : engineData p no got bad' s3 = streamGo p (modCur p 1 f s3) := by
    unfold engineData
    rw [hov3]
    exact if_pos hreading
  have hcur : curOf (modCur p 1 f s3) p = f { c with wecc := ce.w } := by
    rw [curOf_modCur hw3.maps, hcur3]
  refine ⟨modCur p 1 f s3, _, ?_, hw3.trans (works_modCur hw3.maps), hmem, ?_, ?_, ?_,
    (hw3.trans (works_modCur hw3.maps)).openEntry ho hcur ((congrArg Entry.ended hc).symm.trans hend), ?_, rfl, rfl, rfl, rfl⟩
  · rw [hexec, hjoins, ← hdata]
    rfl
  · exact (congrArg State.issued hside.rest).trans rfl
  · exact (congrArg State.asked hside.rest).trans rfl
  · exact (congrArg State.pktSeq hside.rest).trans rfl
  · rw [hbs, rbufBytes]
    show (c.rbuf ++ [(got, bad')]).flatMap (·.1) = _
    rw [List.flatMap_append, List.flatMap_singleton]

/-- S2T with the last piece of its next slots: it sends them, and goes on as the data come. -/
theorem s2t_piece {p : Fin 4} {d : Fin 48} {sl : Fin 64} {ce : ChunkEcc} {bs : List Byte} {bad : Nat} (w : EngineMaps s p)
    (hport : (getPart s p).port < 4) (ho : openEntry s p 1 = some (l, e, c)) (hop : enOp e = 0x15) (hs : c.started = true)
    (ha : c.asked = none) (hn : c.sent < enSlots e) (hpiece : PieceComes s p c d sl ce bs bad) (hg : MayGo s p (tileTap s e))
    (hlen : bs.length = 64 * min 8 (enSlots e - c.sent)) :
    let m := min 8 (enSlots e - c.sent)
    ∃ u, exec (.dramReadReturn d sl ce) s = .next u ∧ u.tiles = s.tiles ∧ u.defects = s.defects ∧ u.stk.mem = s.stk.mem ∧
      (enSlots e ≤ c.sent + 8 → (curOf u p).sent = enSlots e) ∧
      (enSlots e ≤ c.sent + 8 → enConfirm e = false →
        ∃ k, (curOf u p).ended = some (0, (c.moved + 64 * (enSlots e - c.sent)) / 64, k)) ∧
      ∃ pk more, u.issued = s.issued ++ (pk, tileTap s e) :: more ∧ (enSlots e ≤ c.sent + 8 → more = []) ∧
        Addressed (getPart s p) p e 1 m pk ∧ hOffset pk.header = (enOffset e + c.sent) % 2048 ∧
        pk.payload.map (·.1) = slotsOf bs m := by
  intro m
  obtain ⟨v, c', hexec, hwv, hmem, hissued, hasked, hseq, hov, hbytes, hstart, hask, hsent, hmoved⟩ := exec_piece w ho hpiece
  have hgv : MayGo v p (tileTap v e) := by
    rw [hwv.tileTap]
    exact ⟨hwv.tileGate.trans hg.gate, by rw [mayIssue_congr hissued hasked hseq, hwv.portNum, hg.may]⟩
  obtain ⟨htiles, hdefects, hstk, hmaps, hall, hend, pk, more, hpk, hmore, haddr, hofs, hpay⟩ := s2tGo_sends hwv.maps p.isLt
    (hwv.portNum ▸ hport) hov hop hgv (by omega) (by rw [hbytes, hsent]; exact hlen)
  have hgo := (tileSteps_of_open hov (hstart.trans hs) (hask.trans ha)).s2t hop (by omega)
  rw [hgo] at hexec
  unfold Addressed at haddr ⊢
  rw [hsent] at hall hend hmore haddr hofs hpay
  rw [hmoved] at hend
  rw [hwv.portNum, hwv.epoch] at haddr
  rw [hwv.tileTap, hissued] at hpk
  rw [hbytes] at hpay
  have hcur := curOf_modCur (f := fun c => { c with wecc := .clean }) hmaps
  refine ⟨_, hexec, htiles.trans hwv.tiles, hdefects.trans hwv.defects, (congrArg Stacks.mem hstk).trans hmem, fun h => ?_,
    fun h hplain => ?_, pk, more, hpk, hmore, haddr, hofs, hpay⟩
  · rw [hcur]
    exact hall h
  · rw [hcur]
    exact hend h hplain

end Sys2Proof.Machine
end

/-! ## Entries on tiles: the polls of CONFIRM, and the end after 1 ms (R356) -/

section
namespace Sys2Proof.Machine

variable {s : State} {p : Nat} {l : CmdList} {e : Unit512} {c : Entry}

theorem tileEntry_of_sentEntry (h : sentEntry s p = some (e, c)) : tileEntry e = true := by
  unfold sentEntry at h
  split at h
  · dsimp only at h
    obtain ⟨hcond, heq⟩ := Option.ite_none_right_eq_some.mp h
    cases heq
    obtain ⟨-, ht, -⟩ := hcond
    exact ht
  · exact absurd h (by simp)

/-- Growth that completes a CONFIRM entry. -/
def confirmNeed (e : Unit512) : Nat := if enOp e = 0x18 then bCount (BitVec.ofNat 64 (enDaddr e)) else enSlots e

/-- Sage reads the counter, and the entry ends when it has grown enough or is linked. -/
theorem exec_confirmPoll {p : Fin 4} {b : Nat} (w : EngineMaps s p) (ho : openEntry s p 1 = some (l, e, c))
    (hsent : sentEntry s p = some (e, c)) (hb : c.base = some b) :
    let t := max s.cycle (c.polled + 18000)
    ∃ u, exec (.confirmPoll p) s = .next u ∧ u.tiles = s.tiles ∧ u.defects = s.defects ∧ u.cycle = t ∧ u.stk = s.stk ∧
      (curOf u p).polled = t ∧
      (∀ m, confirmCount (advanceTo s t) e = some m →
        (curOf u p).ended = if b + confirmNeed e ≤ m then some (0, c.moved / 64, c.poisoned) else none) ∧
      (confirmCount (advanceTo s t) e = none → (curOf u p).ended = some (0x404, c.moved / 64, c.poisoned)) := by
  intro t
  obtain ⟨-, hend, -, hc⟩ := openEntry_eq_some.mp ho
  have ht := tileEntry_of_sentEntry hsent
  have htime : (advanceTo s t).cycle = t := max_eq_right (Nat.le_max_left ..)
  have w1 : EngineMaps (advanceTo s t) p := ⟨w.parts, w.ports, w.eng, w.spines⟩
  let f : Entry → Entry := fun c => { c with polled := (advanceTo s t).cycle }
  let s1 := modCur p 1 f (advanceTo s t)
  have hw : Works p (advanceTo s t) s1 := works_modCur w1
  have hcur : curOf s1 p = { c with polled := t } := by
    rw [← htime, ← hc]
    exact curOf_modCur w1
  have hov : openEntry s1 p 1 = some (l, e, { c with polled := t }) := hw.openEntry ho hcur (hc ▸ hend)
  have hexec : exec (.confirmPoll p) s = match confirmCount (advanceTo s t) e with
      | none => .next (endMoved p 0x404 e c s1)
      | some m => if m ≥ b + confirmNeed e then .next (endMoved p 0 e c s1) else .next s1 := by
    show execConfirmPoll p s = _
    unfold execConfirmPoll
    rw [hsent]
    dsimp only
    rw [hb]
    rfl
  have hends (st : Nat) : let u := endMoved p st e c s1
      u.tiles = s.tiles ∧ u.defects = s.defects ∧ u.cycle = t ∧ u.stk = s.stk ∧ (curOf u p).polled = t ∧
        (curOf u p).ended = some (st, c.moved / 64, c.poisoned) := by
    obtain ⟨hwu, hcu, ps, a, hrest⟩ := endMoved_spec (e := e) (c := c) hw.maps hov st
    refine ⟨hwu.tiles, hwu.defects, ?_, ?_, by rw [hcu], by rw [hcu, enMoved_of_tile ht]⟩
    · rw [hrest]
      exact htime
    · rw [hrest]
      rfl
  cases hcount : confirmCount (advanceTo s t) e with
  | none =>
    obtain ⟨h1, h2, h3, h4, h5, h6⟩ := hends 0x404
    rw [hcount] at hexec
    exact ⟨_, hexec, h1, h2, h3, h4, h5, fun m hm => absurd hm (by simp), fun _ => h6⟩
  | some m =>
    rw [hcount] at hexec
    by_cases hgrown : m ≥ b + confirmNeed e
    · obtain ⟨h1, h2, h3, h4, h5, h6⟩ := hends 0
      refine ⟨_, hexec.trans (if_pos hgrown), h1, h2, h3, h4, h5, fun m' hm => ?_, fun h => absurd h (by simp)⟩
      rw [← Option.some.inj hm, if_pos hgrown, h6]
    · refine ⟨_, hexec.trans (if_neg hgrown), rfl, rfl, htime, rfl, by rw [hcur], fun m' hm => ?_, fun h => absurd h (by simp)⟩
      rw [← Option.some.inj hm, if_neg hgrown, hcur]
      exact hc ▸ hend

/-- No packet in 1 ms: the entry completes with COMPLETION_TIMEOUT. -/
theorem exec_entryTimeout {p : Fin 4} {t : Nat} (w : EngineMaps s p) (ho : openEntry s p 1 = some (l, e, c))
    (hsent : sentEntry s p = some (e, c)) (hlast : c.lastSent = some t) :
    ∃ u, exec (.entryTimeout p) s = .next u ∧ u.tiles = s.tiles ∧ u.defects = s.defects ∧
      u.cycle = max s.cycle (t + 1800000) ∧ u.stk = s.stk ∧ (curOf u p).ended = some (evNum .completionTimeout, 2, 0) ∧
      u.sage.ev = raisePort s.sage.ev { mkEv .completionTimeout 2 0 u.cycle with part := some p.val } := by
  have htime : (advanceTo s (max s.cycle (t + 1800000))).cycle = max s.cycle (t + 1800000) := max_eq_right (Nat.le_max_left ..)
  let s1 := sageEvent (advanceTo s (max s.cycle (t + 1800000))) .completionTimeout 2 0 (some p.val)
  have w1 : EngineMaps s1 p := ⟨w.parts, w.ports, w.eng, w.spines⟩
  have hexec : exec (.entryTimeout p) s = .next (endEntry p 1 (evNum .completionTimeout) 2 0 s1) := by
    show execEntryTimeout p s = _
    unfold execEntryTimeout
    rw [hsent]
    dsimp only
    rw [hlast]
    rfl
  have ho1 : openEntry s1 p 1 = some (l, e, c) := ho
  obtain ⟨-, hcur, ps, a, hrest⟩ := endEntry_spec w1 ho1 (evNum .completionTimeout) 2 0
  refine ⟨_, hexec, ?_, ?_, ?_, ?_, by rw [hcur], ?_⟩
  · rw [hrest]
    rfl
  · rw [hrest]
    rfl
  · rw [hrest]
    exact htime
  · rw [hrest]
    rfl
  · rw [hrest]
    rfl

/-! ### Where the partition's state lets no entry on tiles run -/

/-- The commands that carry out the entries on tiles, with the operation code of each. -/
def tileRows (p : Fin 4) : List (Instr × Nat) :=
  [((.h2t p : Instr), 0x14), (.s2t p, 0x15), (.t2h p, 0x16), (.t2s p, 0x17), (.tcmd p, 0x18)]

theorem exec_tileRow (p : Fin 4) (s : State) :
    ∀ r ∈ tileRows p,
      exec r.1 s = streamEntry r.2 p.val s ∧ 0x14 ≤ r.2 ∧ r.2 ≤ 0x18 := by
  simp only [tileRows, List.forall_mem_cons]
  exact ⟨⟨rfl, by decide⟩, ⟨rfl, by decide⟩, ⟨rfl, by decide⟩, ⟨rfl, by decide⟩, ⟨rfl, by decide⟩,
    fun _ h => absurd h List.not_mem_nil⟩

theorem exec_tileRow_stopped {p : Fin 4} {r : Instr × Nat} (w : EngineMaps s p) (ho : openEntry s p 1 = some (l, e, {}))
    (hr : r ∈ tileRows p)
    (hop : enOp e = r.2) (hst : (getPart s p).st = .idle ∨ (getPart s p).st = .faulted) :
    ∃ u, exec r.1 s = .next u ∧ u.tiles = s.tiles ∧ u.defects = s.defects ∧ u.stk = s.stk ∧ u.issued = s.issued ∧
      (curOf u p).ended = some (0x410 + pstateNum (getPart s p).st, 0, 0) := by
  obtain ⟨hexec, hlo, hhi⟩ := exec_tileRow p s r hr
  have ht : tileEntry e = true := decide_eq_true (by rw [hop]; exact ⟨hlo, hhi⟩)
  have hgo := streamEntry_of_stop ho hop ht (tileGate_of_stopped hst)
  obtain ⟨hw, hcur, ps, a, hrest⟩ := endMoved_spec (e := e) (c := {}) w ho (0x410 + pstateNum (getPart s p).st)
  refine ⟨_, hexec.trans hgo, hw.tiles, hw.defects, by rw [hrest], by rw [hrest], ?_⟩
  rw [hcur, enMoved_of_tile ht]
  simp

/-- An entry on tiles starts while the partition runs. -/
theorem exec_tileRow_begins {p : Fin 4} {r : Instr × Nat} (ho : openEntry s p 1 = some (l, e, {}))
    (hr : r ∈ tileRows p)
    (hop : enOp e = r.2) (hg : tileGate (getPart s p) = .go)
    (hbase : (enConfirm e && decide (r.2 = 0x14 ∨ r.2 = 0x15 ∨ r.2 = 0x18)) = false ∨ (baseOf r.2 s e).isSome = true) :
    exec r.1 s = .next (streamGo p (begun p r.2 e s)) := by
  obtain ⟨hexec, hlo, hhi⟩ := exec_tileRow p s r hr
  exact hexec.trans (streamEntry_of_go ho hop (decide_eq_true (by rw [hop]; exact ⟨hlo, hhi⟩)) hg hbase)

end Sys2Proof.Machine

open Sys2Proof Sys2Proof.Machine

/-- Settles O52: an entry on tiles passes its gate or ends, and each thing that reaches it sends its next packet. -/
theorem tileTransfers : Obligations.TileTransfers := by
  unfold Obligations.TileTransfers
  intro s p l e c w q o n conf base tap may addressed ends hn1 hn2 hport
  refine ⟨fun ho => ⟨fun r hr hop hst => exec_tileRow_stopped w ho hr hop hst, fun hst hsus hconf => ?_⟩, ?_, ?_, ?_⟩
  · have hgate : tileGate (getPart s p) = .go := tileGate_of_running hst hsus
    have hb (op : Nat) (hop : enOp e = op) : (enConfirm e && decide (op = 0x14 ∨ op = 0x15 ∨ op = 0x18)) = false ∨
        (baseOf op s e).isSome = true := by
      rw [← hop]
      exact hconf
    refine ⟨fun hop hup hmay => ?_, fun hop htr hmay hserve => ?_, fun i hi => ?_, fun hop hfill hmay => ?_,
      fun hop hfill hup hmay => ?_⟩
    · obtain ⟨hw, hrest, hout, hbase, hask⟩ := h2t_begins w ho hop hn1 ⟨hgate, hmay⟩ hup
      exact ⟨_, exec_tileRow_begins (r := (.h2t p, 0x14)) ho (by simp [tileRows]) hop hgate (hb _ hop), hw.tiles, hw.defects,
        by rw [hrest],
        by rw [hrest], hout, hbase.trans (congrArg (baseOf · s e) hop.symm), hask⟩
    · obtain ⟨hw, hrest, hread, hbase, hasks⟩ := s2t_begins w ho hop hn1 ⟨hgate, hmay⟩ htr hserve
      exact ⟨_, exec_tileRow_begins (r := (.s2t p, 0x15)) ho (by simp [tileRows]) hop hgate (hb _ hop), hw.tiles, hw.defects,
        by rw [hrest],
        by rw [hrest], hread, hbase.trans (congrArg (baseOf · s e) hop.symm), hasks⟩
    · intro by_ hmay
      have hcase : ∃ op, (i, op) ∈ tileRows p ∧
          enOp e = op ∧ (op = 0x16 ∨ op = 0x17) := by
        rcases hi with ⟨rfl, hop⟩ | ⟨rfl, hop⟩
        · exact ⟨0x16, by simp [tileRows], hop, .inl rfl⟩
        · exact ⟨0x17, by simp [tileRows], hop, .inr rfl⟩
      obtain ⟨op, hmem, hop, hx⟩ := hcase
      obtain ⟨hw, hstk, hsent, hmoved, hpk⟩ := t2x_begins w p.isLt hport ho hop hx hn1 rfl ⟨hgate, hmay⟩
      exact ⟨_, exec_tileRow_begins (r := (i, op)) ho hmem hop hgate (hb _ hop), hw.tiles, hw.defects, hstk, hsent, hmoved, hpk⟩
    · obtain ⟨hw, hstk, htile, hplain, hconfirm, hpk⟩ := tcmd_begins w p.isLt hport ho hop hfill ⟨hgate, hmay⟩
      have hc : conf = enConfirm e := by
        show (enConfirm e && decide (enOp e = 0x14 ∨ enOp e = 0x15 ∨ enOp e = 0x18)) = _
        rw [hop]
        exact Bool.and_true _
      exact ⟨_, exec_tileRow_begins (r := (.tcmd p, 0x18)) ho (by simp [tileRows]) hop hgate (hb _ hop), hw.tiles,
        hw.defects, hstk, htile,
        fun h => hplain (hc ▸ h), fun h => ⟨(hconfirm (hc ▸ h)).1,
          (hconfirm (hc ▸ h)).2.trans (congrArg (baseOf · s e) hop.symm)⟩, hpk⟩
    · obtain ⟨hw, hrest, hask, hout⟩ := fill_begins w ho hop hfill ⟨hgate, hmay⟩ hup
      exact ⟨_, exec_tileRow_begins (r := (.tcmd p, 0x18)) ho (by simp [tileRows]) hop hgate (hb _ hop), hw.tiles,
        hw.defects, by rw [hrest],
        by rw [hrest], hask, hout⟩
  · intro ho hs ha hbuf hbp hlen haddr hst hsus hmay d bad x
    have hg : MayGo s p none := ⟨tileGate_of_running hst hsus, hmay⟩
    exact ⟨fun hop hn hr hfull _ => h2t_line w hport ho hop hs ha hbuf hbp hlen haddr hg hn hr hfull,
      fun hop hfill hpk => fill_line w hport ho hop hfill hs ha hbuf hbp hlen haddr hg hpk⟩
  · intro d sl ce bs bad ho hs ha hop hn hpiece _ hst hsus hmay hlen
    exact s2t_piece w hport ho hop hs ha hn hpiece ⟨tileGate_of_running hst hsus, hmay⟩ hlen
  · intro ho hs ha
    refine ⟨?_, fun b hsent hb => ?_, fun t hsent hlast => exec_entryTimeout w ho hsent hlast⟩
    · intro k r x hresps hby htag hfind hbuf hne hlt hmoved m place bs
      refine ⟨fun hop hup => t2h_resp w hport ho hop hs ha hresps hby htag hfind hbuf hne hlt hmoved hup, ?_⟩
      intro hop wm wp pa htr hserve
      obtain ⟨u, hexec, htiles, hdefects, hr, hrun, hmark, hrest⟩ :=
        t2s_resp (x := x) w hport ho hop hs ha hresps hby htag hfind hbuf hne hlt hmoved wm wp htr hserve
      have hbytes : (slotBytes k.payload).length = 64 * m := length_slotBytes k.payload
      have hothers := hrun.others
      have hput := hrun.bytes
      rw [hbytes] at hothers hput
      exact ⟨u, hexec, htiles, hdefects, hr, hothers, hput, fun hpa => (hmark hpa).marks, hrest⟩
    · obtain ⟨u, hexec, htiles, hdefects, hcycle, hstk, hpolled, hsome, hnone⟩ := exec_confirmPoll w ho hsent hb
      refine ⟨u, hexec, htiles, hdefects, hcycle, hstk, hpolled, ?_⟩
      split
      next m hm => exact hsome m hm
      next hm => exact hnone hm
end

/-! ## Slices of a spine: a read joins or opens, and its chunks are checked when it returns (R236-R243) -/

section
namespace Sys2Proof.Machine

variable {s s' s'' : State} {n : Nat}

/-! ### What counts, events and the times of slices leave -/

/-- What of a spine its counts, its events and the times of its slices leave as it is. -/
structure SpineView where
  reads : SMap (List DramRead)
  streams : SMap StackStream
  scrub : SMap Nat

def spineView (sp : Spine) : SpineView := ⟨sp.reads, sp.streams, sp.scrub⟩

/-- Spines have counted, raised events and moved the times of their slices on; stack memory may have changed. -/
structure SpinesCount (s s' : State) : Prop extends StackSide s s' where
  view : mwf {} s.spines = true → ∀ n, spineView (getSpine s' n) = spineView (getSpine s n)

namespace SpinesCount

theorem refl (s : State) : SpinesCount s s := ⟨StackSide.refl s, fun _ _ => rfl⟩

theorem trans (h : SpinesCount s s') (h' : SpinesCount s' s'') : SpinesCount s s'' where
  toStackSide := h.toStackSide.trans h'.toStackSide
  view w n := (h'.view (h.wf w) n).trans (h.view w n)

theorem reads (h : SpinesCount s s') (w : mwf {} s.spines = true) (n : Nat) : (getSpine s' n).reads = (getSpine s n).reads :=
  congrArg SpineView.reads (h.view w n)

theorem streams (h : SpinesCount s s') (w : mwf {} s.spines = true) (n : Nat) :
    (getSpine s' n).streams = (getSpine s n).streams := congrArg SpineView.streams (h.view w n)

theorem scrub (h : SpinesCount s s') (w : mwf {} s.spines = true) (n : Nat) : (getSpine s' n).scrub = (getSpine s n).scrub :=
  congrArg SpineView.scrub (h.view w n)

end SpinesCount

theorem getSpine_modSpine_eq {f : Spine → Spine} (w : mwf {} s.spines = true) (k : Nat) :
    getSpine (modSpine s n f) k = if k = n then f (getSpine s n) else getSpine s k := mget_mmod_eq w n k

theorem spinesCount_modSpine {f : Spine → Spine} (hs : ∀ sp, stackView (f sp) = stackView sp)
    (hv : ∀ sp, spineView (f sp) = spineView sp) : SpinesCount s (modSpine s n f) where
  toStackSide := stackSide_modSpine hs
  view w k := by
    rw [getSpine_modSpine_eq w]
    split
    next h => rw [hv, h]
    next => rfl

theorem spinesCount_spineBump (n off k : Nat) (s : State) : SpinesCount s (spineBump n off k s) :=
  spinesCount_modSpine (fun sp => by dsimp only; split <;> rfl) fun sp => by dsimp only; split <;> rfl

theorem spinesCount_spineEvent (n : Nat) (c : EvCode) (a b : Nat) (s : State) : SpinesCount s (spineEvent n c a b s) :=
  spinesCount_modSpine (fun _ => rfl) fun _ => rfl

theorem spinesCount_sliceServe (n sl arr dur : Nat) (s : State) : SpinesCount s (sliceServe n sl arr dur s).2 :=
  (spinesCount_spineBump ..).trans (spinesCount_modSpine (fun _ => rfl) fun _ => rfl)

theorem spinesCount_stk (k : Stacks) (s : State) : SpinesCount s { s with stk := k } := ⟨stackSide_stk k s, fun _ _ => rfl⟩

theorem StackSide.sliceUp (h : StackSide s s') (w : mwf {} s.spines = true) (n sl : Nat) :
    sliceUp (getSpine s' n) sl = sliceUp (getSpine s n) sl := by
  have hup0 : (getSpine s' n).up0 = (getSpine s n).up0 := congrArg StackView.up0 (h.spine w n)
  have hup1 : (getSpine s' n).up1 = (getSpine s n).up1 := congrArg StackView.up1 (h.spine w n)
  rw [Machine.sliceUp, Machine.sliceUp, hup0, hup1]

namespace StackSide

theorem tiles (h : StackSide s s') : s'.tiles = s.tiles := (congrArg State.tiles h.rest :)

theorem parts (h : StackSide s s') : s'.parts = s.parts := (congrArg State.parts h.rest :)

theorem ports (h : StackSide s s') : s'.ports = s.ports := (congrArg State.ports h.rest :)

theorem getPort (h : StackSide s s') (o : Nat) : getPort s' o = getPort s o := by
  rw [Machine.getPort, Machine.getPort, h.ports]

theorem cycle (h : StackSide s s') : s'.cycle = s.cycle := (congrArg State.cycle h.rest :)

theorem issued (h : StackSide s s') : s'.issued = s.issued := (congrArg State.issued h.rest :)

end StackSide

/-! ### A read reaches its slice (R229, R237, R238) -/

variable {g arr a : Nat} {rd : Reader}

/-- The cycle in which a slice accepts what arrives in a cycle. -/
def acceptedAt (s : State) (n sl arr : Nat) : Nat := max arr (mget 0 (getSpine s n).accept sl)

/-- A merge entry that a read of a granule, accepted in a cycle, may join. -/
def joinsAt (g a : Nat) (r : DramRead) : Bool :=
  decide (r.granule = g) && r.entry && r.joinable && decide (a ≤ r.opened + 63)

/-- The read has joined the entries that it may join. -/
def joined (g a : Nat) (rd : Reader) (l : List DramRead) : List DramRead :=
  l.map fun r => if joinsAt g a r then { r with joins := r.joins ++ [rd] } else r

/-- A granule as stack memory holds it, and the markers of its chunks. -/
def granuleData (m : Stacks) (n g : Nat) : BitVec 2048 := BitVec.ofNat 2048 (memNat m.mem (devAddr n (256 * g)) 256)

def granuleMarks (m : Stacks) (n g : Nat) : BitVec 4 := BitVec.ofNat 4 (packFields
  ((List.range 4).map fun k => (b2n (mget false m.poison (devAddr n (256 * g) / 64 + k)), 1)))

/-- A read that a slice opens for one reader takes the granule as it stands. -/
structure Opens (s : State) (n g a : Nat) (rd : Reader) (r : DramRead) : Prop where
  granule : r.granule = g
  joins : r.joins = [rd]
  returned : r.returned = false
  opened : r.opened = a
  due : a + 96 ≤ r.due
  data : r.data = granuleData s.stk n g
  poison : r.poison = granuleMarks s.stk n g

theorem le_afterRefresh (sl c : Nat) : c ≤ afterRefresh sl c := by
  unfold afterRefresh
  split <;> omega

theorem accept_spineBump (w : mwf {} s.spines = true) (off k : Nat) :
    (getSpine (spineBump n off k s) n).accept = (getSpine s n).accept := by
  rw [spineBump, getSpine_modSpine_same w]
  dsimp only
  split <;> rfl

/-- A slice serves a request no sooner than it accepts it. -/
theorem sliceServe_times (n sl arr dur : Nat) (s : State) :
    (sliceServe n sl arr dur s).1.1 = acceptedAt s n sl arr ∧ acceptedAt s n sl arr ≤ (sliceServe n sl arr dur s).1.2 :=
  ⟨rfl, (Nat.le_max_left ..).trans (le_afterRefresh ..)⟩

/-- What a read makes of the reads of its slice: it joins an entry, or is opened behind them. -/
theorem arriveRead_places (w : mwf {} s.spines = true) (n g arr : Nat) (rd : Reader) :
    let sl := sliceOf (256 * g)
    let l := mget [] (getSpine s n).reads sl
    let a := acceptedAt s n sl arr
    ∃ v f k, SpinesCount s v ∧ v.stk = s.stk ∧ arriveRead n g arr rd s = modSpine v n f ∧
      (∀ sp, (f sp).reads = mset [] sp.reads sl k ∧ (f sp).streams = sp.streams) ∧
      (l.any (joinsAt g a) = true → k = joined g a rd l) ∧
      (l.any (joinsAt g a) = false → ∃ r, k = l ++ [r] ∧ Opens s n g a rd r) := by
  intro sl l a
  have hbump : SpinesCount s (spineBump n 0x08 1 s) := spinesCount_spineBump ..
  unfold arriveRead
  extract_lets s1 a' hit s2 free
  have ha : a' = a := congrArg (fun m => max arr (mget 0 m sl)) (accept_spineBump w ..)
  have hhit : hit = joinsAt g a := by
    rw [← ha]
    rfl
  rw [hhit]
  split
  next h =>
    exact ⟨s2, _, _, hbump.trans (spinesCount_spineBump ..), rfl, rfl, fun _ => ⟨rfl, rfl⟩, fun _ => rfl,
      fun h' => absurd (h.symm.trans h') (by decide)⟩
  next h =>
    have hserve : SpinesCount s (sliceServe n sl arr serveCycles s1).2 := hbump.trans (spinesCount_sliceServe ..)
    have hstk : (sliceServe n sl arr serveCycles s1).2.stk = s.stk := rfl
    obtain ⟨hacc, hlate⟩ := sliceServe_times n sl arr serveCycles s1
    rw [show acceptedAt s1 n sl arr = a from ha] at hacc hlate
    generalize sliceServe n sl arr serveCycles s1 = z at hserve hstk hacc hlate
    obtain ⟨⟨a1, start⟩, v⟩ := z
    dsimp only at hserve hstk hacc hlate ⊢
    let v' := if free = true then spineBump n 0x10 1 v else spineBump n 0x20 1 (spineBump n 0x10 1 v)
    have hv' : SpinesCount s v' ∧ v'.stk = s.stk := by
      unfold v'
      split
      · exact ⟨hserve.trans (spinesCount_spineBump ..), hstk⟩
      · exact ⟨(hserve.trans (spinesCount_spineBump ..)).trans (spinesCount_spineBump ..), hstk⟩
    refine ⟨v', _, _, hv'.1, hv'.2, rfl, fun _ => ⟨rfl, rfl⟩, fun h' => absurd h' h, fun _ => ⟨_, rfl, ?_⟩⟩
    exact ⟨rfl, rfl, rfl, hacc, Nat.add_le_add_right hlate 96, congrArg (granuleData · n g) hv'.2,
      congrArg (granuleMarks · n g) hv'.2⟩

theorem reads_arriveRead (w : mwf {} s.spines = true) (n g arr : Nat) (rd : Reader) :
    let sl := sliceOf (256 * g)
    let l := mget [] (getSpine s n).reads sl
    let a := acceptedAt s n sl arr
    let l' := mget [] (getSpine (arriveRead n g arr rd s) n).reads sl
    (l.any (joinsAt g a) = true → l' = joined g a rd l) ∧
      (l.any (joinsAt g a) = false → ∃ r, l' = l ++ [r] ∧ Opens s n g a rd r) := by
  intro sl l a l'
  obtain ⟨v, f, k, hv, -, heq, hf, hjoin, hopen⟩ := arriveRead_places w n g arr rd
  have hl' (hk : k ≠ []) : l' = k := by
    unfold l'
    rw [heq, getSpine_modSpine_same (hv.wf w), (hf _).1, mget_mset_of_ne hk, if_pos rfl]
  refine ⟨fun h => ?_, fun h => ?_⟩
  · have hne : l ≠ [] := fun h0 => by simp [h0] at h
    rw [hl' (by rw [hjoin h]; exact fun h0 => hne (List.map_eq_nil_iff.mp h0)), hjoin h]
  · obtain ⟨r, hk, hr⟩ := hopen h
    exact ⟨r, by rw [hl' (by simp [hk]), hk], hr⟩

theorem streams_arriveRead (w : mwf {} s.spines = true) (n g arr : Nat) (rd : Reader) (k : Nat) :
    (getSpine (arriveRead n g arr rd s) k).streams = (getSpine s k).streams := by
  obtain ⟨v, f, _, hv, -, heq, hf, -⟩ := arriveRead_places w n g arr rd
  rw [heq, getSpine_modSpine_eq (hv.wf w)]
  split
  next h => rw [(hf _).2, hv.streams w, h]
  next => exact hv.streams w k

/-! ### The data and the markers of a read -/

theorem ofBytesLE_lt (bs : List Byte) : ofBytesLE bs < 2 ^ (8 * bs.length) := by
  induction bs with
  | nil => decide
  | cons b bs ih =>
    have hb : b.toNat < 2 ^ 8 := b.isLt
    have hpow : 2 ^ (8 * (b :: bs).length) = 2 ^ (8 * bs.length) * 2 ^ 8 := Nat.pow_add 2 (8 * bs.length) 8
    rw [ofBytesLE, Nat.shiftLeft_eq, hpow]
    omega

theorem memNat_lt (m : List Host.Cell) (a n : Nat) : memNat m a n < 2 ^ (8 * n) := by
  have h := ofBytesLE_lt ((List.range n).map fun i => memByte m (a + i))
  rwa [List.length_map, List.length_range] at h

theorem toNat_ofNat_memNat (m : List Host.Cell) (a n : Nat) : (BitVec.ofNat (8 * n) (memNat m a n)).toNat = memNat m a n := by
  rw [BitVec.toNat_ofNat, Nat.mod_eq_of_lt (memNat_lt m a n)]

/-- A bit of a word of flags. -/
theorem bit_packFlags {α : Type} (f : α → Bool) (l : List α) (k : Nat) :
    bit (packFields (l.map fun i => (b2n (f i), 1))) k = (l.map f).getD k false := by
  induction l generalizing k with
  | nil => simp [bit, fld, packFields]
  | cons i l ih =>
    rw [List.map_cons]
    cases k with
    | zero =>
      rw [bit, fld_packFields_head, List.map_cons, List.getD_cons_zero]
      cases f i <;> rfl
    | succ k =>
      rw [bit, fld_packFields_skip (Nat.le_add_left 1 k), Nat.add_sub_cancel, List.map_cons, List.getD_cons_succ]
      exact ih k

theorem bit_packFlags_range (f : Nat → Bool) {m k : Nat} (h : k < m) :
    bit (packFields ((List.range m).map fun i => (b2n (f i), 1))) k = f k := by
  simp [bit_packFlags, h]

namespace Opens

variable {r : DramRead}

theorem data_toNat (h : Opens s n g a rd r) : r.data.toNat = memNat s.stk.mem (devAddr n (256 * g)) 256 := by
  rw [h.data]
  exact toNat_ofNat_memNat s.stk.mem _ 256

theorem bit_poison (h : Opens s n g a rd r) {k : Nat} (hk : k < 4) :
    bit r.poison.toNat k = mget false s.stk.poison (devAddr n (256 * g) / 64 + k) := by
  have hbit := bit_packFlags_range (fun i => mget false s.stk.poison (devAddr n (256 * g) / 64 + i)) hk
  rw [h.poison, granuleMarks, bit, fld_toNat_ofNat _ _ _ (by omega)]
  exact hbit

end Opens

/-! ### Chunks of a read that returns (R242, R243) -/

variable {r : DramRead} {e : ChunkEcc} {c : Nat}

/-- The number of a chunk of a read in stack memory. -/
def chunkOf (n : Nat) (r : DramRead) (k : Nat) : Nat := devAddr n (256 * r.granule + 64 * k) / 64

/-- The code finds an unmarked chunk of a read uncorrectable. -/
def chunkLost (r : DramRead) (e : ChunkEcc) (k : Nat) : Bool := !bit r.poison.toNat k && decide (eccAt e k = .double)

theorem chunkOf_add (n : Nat) (r : DramRead) (k : Nat) : chunkOf n r k = devAddr n (256 * r.granule) / 64 + k := by
  unfold chunkOf devAddr
  omega

theorem spinesCount_checkChunk (n sl : Nat) (r : DramRead) (e : ChunkEcc) (k : Nat) (s : State) :
    SpinesCount s (checkChunk n sl r e k s).1 := by
  unfold checkChunk
  extract_lets da again s2 s3 who s4
  split
  · exact spinesCount_spineBump ..
  · split
    · exact SpinesCount.refl s
    · have h2 : SpinesCount s s2 := (spinesCount_spineBump ..).trans (spinesCount_spineEvent ..)
      have h3 : SpinesCount s s3 := by
        unfold s3
        split
        · exact h2.trans (spinesCount_spineEvent ..)
        · exact h2
      split
      · exact h3.trans (spinesCount_stk ..)
      · exact h3
    · exact ((spinesCount_spineBump ..).trans (spinesCount_spineEvent ..)).trans (spinesCount_stk ..)

/-- A chunk is poisoned when it is marked or lost, and a lost one becomes marked. -/
theorem checkChunk_poison (n sl : Nat) (r : DramRead) (e : ChunkEcc) (k : Nat) (s : State) :
    (checkChunk n sl r e k s).2 = (bit r.poison.toNat k || chunkLost r e k) ∧ (checkChunk n sl r e k s).1.stk.poison =
      if chunkLost r e k then mset false s.stk.poison (chunkOf n r k) true else s.stk.poison := by
  unfold checkChunk chunkLost
  extract_lets da again s2 s3 who s4
  have h3 : s3.stk.poison = s.stk.poison := by
    unfold s3
    split <;> rfl
  split
  next h => simp [h]; rfl
  next h =>
    split
    next he => simp [h, he]
    next he =>
      split
      · simp [h, he]; exact h3
      · simp [h, he]; exact h3
    next he => simp [h, he]; rfl

theorem checkChunk_marks (wp : mwf false s.stk.poison = true) (n sl : Nat) (r : DramRead) (e : ChunkEcc) (k c : Nat) :
    mwf false (checkChunk n sl r e k s).1.stk.poison = true ∧ mget false (checkChunk n sl r e k s).1.stk.poison c =
      (mget false s.stk.poison c || (decide (c = chunkOf n r k) && chunkLost r e k)) := by
  rw [(checkChunk_poison ..).2]
  cases chunkLost r e k with
  | false => simp [wp]
  | true =>
    refine ⟨mwf_mset wp, ?_⟩
    by_cases hc : c = chunkOf n r k
    · simp [hc, mget_mset wp]
    · simp [hc, mget_mset_ne wp hc]

/-- The chunks of a list, checked in order. -/
theorem checkChunks_poison (wp : mwf false s.stk.poison = true) (n sl : Nat) (r : DramRead) (e : ChunkEcc) (ks : List Nat)
    (l : List (Nat × Nat)) :
    let z := ks.foldl (fun (s, ps) k => let (s, p) := checkChunk n sl r e k s; (s, ps ++ [(b2n p, 1)])) (s, l)
    z.2 = l ++ ks.map (fun k => (b2n (bit r.poison.toNat k || chunkLost r e k), 1)) ∧
      ∀ c, mget false z.1.stk.poison c =
        (mget false s.stk.poison c || ks.any fun k => decide (c = chunkOf n r k) && chunkLost r e k) := by
  induction ks generalizing s l with
  | nil => simp
  | cons k ks ih =>
    obtain ⟨hflags, hmarks⟩ := ih (s := (checkChunk n sl r e k s).1) (checkChunk_marks wp n sl r e k 0).1
      (l ++ [(b2n (checkChunk n sl r e k s).2, 1)])
    refine ⟨hflags.trans ?_, fun c => (hmarks c).trans ?_⟩
    · rw [(checkChunk_poison ..).1, List.append_assoc]
      rfl
    · rw [(checkChunk_marks wp n sl r e k c).2, List.any_cons, Bool.or_assoc]

/-- All four chunks of a granule. -/
theorem checkedChunks_spec (wp : mwf false s.stk.poison = true) (n sl : Nat) (r : DramRead) (e : ChunkEcc) :
    let z := checkedChunks n sl r e s
    let first := devAddr n (256 * r.granule) / 64
    StackSide s z.1 ∧ z.1.stk.mem = s.stk.mem ∧
      (∀ k < 4, bit (packFields z.2) k = (bit r.poison.toNat k || chunkLost r e k)) ∧
      (∀ k < 4, mget false z.1.stk.poison (first + k) = (mget false s.stk.poison (first + k) || chunkLost r e k)) ∧
      ∀ c, c < first ∨ first + 4 ≤ c → mget false z.1.stk.poison c = mget false s.stk.poison c := by
  intro z first
  obtain ⟨hside, hmem⟩ : StackSide s z.1 ∧ z.1.stk.mem = s.stk.mem := stackSide_checkChunks n sl r e (List.range 4) s []
  obtain ⟨hflags, hmarks⟩ := checkChunks_poison wp n sl r e (List.range 4) []
  simp only [chunkOf_add] at hmarks
  refine ⟨hside, hmem, fun k hk => ?_, fun k hk => ?_, fun c hc => ?_⟩
  · rw [show z.2 = _ from hflags, List.nil_append]
    exact bit_packFlags_range _ hk
  · rw [show mget false z.1.stk.poison (first + k) = _ from hmarks (first + k), Bool.eq_iff_iff]
    simp
    grind
  · rw [show mget false z.1.stk.poison c = _ from hmarks c, Bool.eq_iff_iff]
    simp
    grind

end Sys2Proof.Machine
end

/-! ## A host's reads of stack memory (R230, R237, R238, R331, R332) -/

section
namespace Sys2Proof.Machine

variable {s : State} {o : Fin 4} {hpa p pa : Nat} {cached : Bool}

theorem out_portOut (w : mwf {} s.ports = true) (o : Nat) (x : HostOut) :
    (getPort (portOut o x s) o).out = (getPort s o).out ++ [x] := congrArg Port.out (getPort_modPort_same w)

/-! ### Where the read goes -/

/-- The line of a read that asks for a copy is in the filter. -/
def lineTracked (o line : Nat) (cached : Bool) (s : State) : State :=
  if cached && !(getPort s o).filter.contains line then modPort s o fun q => { q with filter := q.filter ++ [line] } else s

theorem lineTracked_eq (o line : Nat) (cached : Bool) (s : State) :
    ∃ ps, lineTracked o line cached s = { s with ports := ps } := by
  unfold lineTracked
  split
  · exact ⟨_, rfl⟩
  · exact ⟨s.ports, rfl⟩

theorem getPort_lineTracked (w : mwf {} s.ports = true) (o line : Nat) (cached : Bool) :
    let lines := (getPort s o).filter
    getPort (lineTracked o line cached s) o =
      { getPort s o with filter := if cached = true ∧ line ∉ lines then lines ++ [line] else lines } := by
  intro lines
  unfold lineTracked
  by_cases h : cached = true ∧ line ∉ lines
  · rw [if_pos (by simpa using h), if_pos h, getPort_modPort_same w]
  · rw [if_neg (by simpa using h), if_neg h]

theorem exec_cxlMemRead_outside (h : hostAddr s o.val hpa = none) : exec (.cxlMemRead o hpa cached) s =
    .next (portOut o.val (.memData (hpa - hpa % 64) 0 true) (portRange s o.val hpa)) := by
  show execCxlMemRead o hpa cached s = _
  unfold execCxlMemRead hostRead
  rw [h]

theorem exec_cxlMemRead_within (h : hostAddr s o.val hpa = some (p, pa)) :
    let da := paToDa (getPart s p) (pa - pa % 64)
    let n := da / 2 ^ 37
    let lines := (getPort s o.val).filter
    exec (.cxlMemRead o hpa cached) s = .next (
      if !dieServes s da then portOut o.val (.memData (hpa - hpa % 64) 0 true) s
      else if (cached && !lines.contains (pa / 64)) = true ∧ lines.length ≥ 2 ^ 21 then
        snoopLines o.val (lines.take 1) (modPort s o.val fun q => { q with heldReads := q.heldReads ++ [hpa] })
      else arriveRead n (da % 2 ^ 37 / 256) (ringArrival s n) (.host o.val (hpa - hpa % 64) cached (da % 256))
        (lineTracked o.val (pa / 64) cached s)) := by
  intro da n lines
  have hring : ringArrival (lineTracked o.val (pa / 64) cached s) n = ringArrival s n := by
    obtain ⟨ps, hu⟩ := lineTracked_eq o.val (pa / 64) cached s
    rw [hu]
    rfl
  rw [← hring]
  show execCxlMemRead o hpa cached s = _
  unfold execCxlMemRead hostRead
  rw [h]
  rfl

variable (h : hostAddr s o.val hpa = some (p, pa))
include h

theorem exec_cxlMemRead_unserved (hd : dieServes s (paToDa (getPart s p) (pa - pa % 64)) = false) :
    exec (.cxlMemRead o hpa cached) s = .next (portOut o.val (.memData (hpa - hpa % 64) 0 true) s) := by
  rw [exec_cxlMemRead_within h, if_pos (by rw [hd]; rfl)]

/-- The filter is full, so that a read for a copy waits for the oldest line to come back. -/
theorem exec_cxlMemRead_waits (hd : dieServes s (paToDa (getPart s p) (pa - pa % 64)) = true)
    (hnew : pa / 64 ∉ (getPort s o.val).filter) (hfull : 2 ^ 21 ≤ (getPort s o.val).filter.length) :
    exec (.cxlMemRead o hpa true) s = .next (snoopLines o.val ((getPort s o.val).filter.take 1)
      (modPort s o.val fun q => { q with heldReads := q.heldReads ++ [hpa] })) := by
  rw [exec_cxlMemRead_within h, if_neg (by rw [hd]; decide), if_pos ⟨by simpa using hnew, hfull⟩]

theorem exec_cxlMemRead_arrives (hd : dieServes s (paToDa (getPart s p) (pa - pa % 64)) = true)
    (hroom : cached = true → (getPort s o.val).filter.length < 2 ^ 21 ∨ pa / 64 ∈ (getPort s o.val).filter) :
    let da := paToDa (getPart s p) (pa - pa % 64)
    exec (.cxlMemRead o hpa cached) s = .next (arriveRead (da / 2 ^ 37) (da % 2 ^ 37 / 256) (ringArrival s (da / 2 ^ 37))
      (.host o.val (hpa - hpa % 64) cached (da % 256)) (lineTracked o.val (pa / 64) cached s)) := by
  intro da
  rw [exec_cxlMemRead_within h, if_neg (by rw [hd]; decide), if_neg]
  rintro ⟨hnew, hfull⟩
  simp only [Bool.and_eq_true, Bool.not_eq_true', List.contains_iff_mem, Bool.eq_false_iff, ne_eq] at hnew
  rcases hroom hnew.1 with hlt | hmem
  · omega
  · exact hnew.2 hmem

/-- A read that is neither refused nor held reaches its slice; of the device, its line in the filter and the spines change. -/
theorem hostRead_reaches (ws : mwf {} s.spines = true) (wp : mwf {} s.ports = true)
    (hd : dieServes s (paToDa (getPart s p) (pa - pa % 64)) = true)
    (hroom : cached = true → (getPort s o.val).filter.length < 2 ^ 21 ∨ pa / 64 ∈ (getPort s o.val).filter) :
    let da := paToDa (getPart s p) (pa - pa % 64)
    let n := da / 2 ^ 37
    let g := da % 2 ^ 37 / 256
    let sl := sliceOf (256 * g)
    let l := mget [] (getSpine s n).reads sl
    let a := acceptedAt s n sl (ringArrival s n)
    let rd := Reader.host o.val (hpa - hpa % 64) cached (da % 256)
    let lines := (getPort s o.val).filter
    ∃ s', exec (.cxlMemRead o hpa cached) s = .next s' ∧
      (getPort s' o.val).filter = (if cached = true ∧ pa / 64 ∉ lines then lines ++ [pa / 64] else lines) ∧
      (getPort s' o.val).out = (getPort s o.val).out ∧
      s'.stk = s.stk ∧ s'.tiles = s.tiles ∧ s'.parts = s.parts ∧ s'.cycle = s.cycle ∧
      (l.any (joinsAt g a) = true → mget [] (getSpine s' n).reads sl = joined g a rd l) ∧
      (l.any (joinsAt g a) = false → ∃ r, mget [] (getSpine s' n).reads sl = l ++ [r] ∧ Opens s n g a rd r) := by
  intro da n g sl l a rd lines
  have hport := getPort_lineTracked wp o.val (pa / 64) cached
  obtain ⟨ps, hu⟩ := lineTracked_eq o.val (pa / 64) cached s
  have hexec := exec_cxlMemRead_arrives (cached := cached) h hd hroom
  rw [hu] at hport hexec
  obtain ⟨hside, hstk⟩ := stackSide_arriveRead n g (ringArrival s n) rd { s with ports := ps }
  obtain ⟨hjoin, hopen⟩ := reads_arriveRead (s := { s with ports := ps }) ws n g (ringArrival s n) rd
  have hports : getPort (arriveRead n g (ringArrival s n) rd { s with ports := ps }) o.val = _ :=
    (hside.getPort o.val).trans hport
  refine ⟨_, hexec, ?_, ?_, hstk, hside.tiles, hside.parts, hside.cycle, hjoin, fun hno => ?_⟩
  · exact (congrArg Port.filter hports :)
  · exact (congrArg Port.out hports :)
  · obtain ⟨r, hl, hr⟩ := hopen hno
    exact ⟨r, hl, hr.granule, hr.joins, hr.returned, hr.opened, hr.due, hr.data, hr.poison⟩

omit h

/-! ### The read returns -/

variable {r : DramRead} {d : Fin 48} {sl : Fin 64} {e : ChunkEcc} {q line ofs : Nat}

/-- A read with one host joined to it returns: the chunks are checked, the read leaves its slice, the host is answered. -/
theorem exec_dramReadReturn_host (hl : mget [] (getSpine s d.val).reads sl.val = [r]) (hret : r.returned = false)
    (hj : r.joins = [.host q line cached ofs]) :
    let z := checkedChunks d.val sl.val r e (advanceTo s (max s.cycle r.due))
    ∃ f ps, exec (.dramReadReturn d sl e) s = .next (portOut q
      (.memData line (BitVec.ofNat 512 (fld r.data.toNat (8 * (ofs - ofs % 64)) 512)) (bit (packFields z.2) (ofs / 64)))
      { modSpine z.1 d.val f with parts := ps }) := by
  intro z
  have htake : takeRead [r] = some (r, [{ r with returned := true }]) := by simp [takeRead, hret]
  let f : Spine → Spine := fun sp =>
    { sp with reads := mset [] sp.reads sl.val (freeEntries z.1.cycle [{ r with returned := true }]) }
  have hexec : exec (.dramReadReturn d sl e) s = .next (setWecc .clean r.joins
      (r.joins.foldl (fun s rd => deliverRead d.val r.data (packFields z.2) rd s) (setWecc e.w r.joins
        (modSpine z.1 d.val f)))) := by
    show execDramReadReturn d sl e s = _
    unfold execDramReadReturn
    rw [hl, htake]
    rfl
  have hone (c : Ecc) (u : State) : setWecc c r.joins u = u := by
    rw [hj]
    rfl
  rw [hexec, hone, hone, hj, List.foldl_cons, List.foldl_nil, deliverRead]
  dsimp only
  split
  · exact ⟨f, _, rfl⟩
  · exact ⟨f, z.1.parts, rfl⟩

theorem hostRead_returns (wp : mwf {} s.ports = true) (wm : mwf false s.stk.poison = true) (hofs : ofs < 256)
    (hl : mget [] (getSpine s d.val).reads sl.val = [r]) (hret : r.returned = false)
    (hj : r.joins = [.host o.val line cached ofs]) :
    let first := devAddr d.val (256 * r.granule) / 64
    ∃ s', exec (.dramReadReturn d sl e) s = .next s' ∧ s'.cycle = max s.cycle r.due ∧
      (getPort s' o.val).out = (getPort s o.val).out ++
        [.memData line (BitVec.ofNat 512 (fld r.data.toNat (512 * (ofs / 64)) 512))
          (bit r.poison.toNat (ofs / 64) || chunkLost r e (ofs / 64))] ∧
      (∀ k < 4, mget false s'.stk.poison (first + k) = (mget false s.stk.poison (first + k) || chunkLost r e k)) ∧
      (∀ c, c < first ∨ first + 4 ≤ c → mget false s'.stk.poison c = mget false s.stk.poison c) ∧
      s'.stk.mem = s.stk.mem ∧ s'.tiles = s.tiles := by
  intro first
  obtain ⟨f, ps, hexec⟩ := exec_dramReadReturn_host (e := e) hl hret hj
  obtain ⟨hside, hmem, hflags, hmarks, hothers⟩ :=
    checkedChunks_spec (s := advanceTo s (max s.cycle r.due)) wm d.val sl.val r e
  generalize checkedChunks d.val sl.val r e (advanceTo s (max s.cycle r.due)) = z at hside hmem hflags hmarks hothers hexec
  have hcycle : z.1.cycle = max s.cycle (max s.cycle r.due) := hside.cycle
  have hpos : 8 * (ofs - ofs % 64) = 512 * (ofs / 64) := by omega
  have wz : mwf {} z.1.ports = true := (congrArg (mwf {}) hside.ports).trans wp
  refine ⟨_, hexec, hcycle.trans (by omega), (out_portOut wz ..).trans ?_, hmarks, hothers, hmem, hside.tiles⟩
  rw [hpos, hflags _ (by omega)]
  exact congrArg (fun q => Port.out q ++ _) (hside.getPort o.val)

end Sys2Proof.Machine

open Sys2Proof Sys2Proof.Machine

theorem hostReads : HostReads := by
  intro s o hpa ws wp line
  refine ⟨fun h cached => exec_cxlMemRead_outside h, fun p pa h => ?within,
    fun d sl r ofs cached e hofs hl hret hj => ?returns⟩
  case within =>
    intro da n g sl l a lines
    refine ⟨fun hd cached => exec_cxlMemRead_unserved h hd, exec_cxlMemRead_waits h, fun cached hd _ hroom => ?_⟩
    intro rd reads
    obtain ⟨s', hexec, hfilter, hout, hstk, htiles, hparts, hcycle, hjoin, hopen⟩ := hostRead_reaches h ws wp hd hroom
    refine ⟨fun hno => ⟨s', hexec, ?_, hfilter, hout, hstk, htiles, hparts, hcycle⟩,
      fun r hl hg he hj hwin => ⟨s', hexec, ?_, hfilter, hout, hstk, htiles, hparts, hcycle⟩⟩
    · obtain ⟨r, hl, hr⟩ := hopen (List.any_eq_false.mpr fun r hr hjoins => hno r hr (by
        simp only [joinsAt, Bool.and_eq_true, decide_eq_true_eq] at hjoins
        exact hjoins.1.1.1))
      exact ⟨r, hl, hr.granule, hr.joins, hr.returned, hr.opened, hr.due, hr.data_toNat, fun k hk => by
        rw [hstk]
        exact hr.bit_poison hk⟩
    · have hjoins : joinsAt g a r = true := by simp [joinsAt, hg, he, hj, show a ≤ r.opened + 63 from hwin]
      have hl' := hjoin (by
        show l.any (joinsAt g a) = true
        rw [hl, List.any_cons, hjoins]
        rfl)
      refine hl'.trans ?_
      show joined g a rd l = _
      rw [hl, joined, List.map_singleton, if_pos hjoins]
  case returns =>
    intro da lost wm
    have hlost (k : Nat) : decide (lost k) = chunkLost r e k := by
      unfold lost chunkLost
      rw [Bool.decide_and]
      simp
    simp only [hlost]
    exact hostRead_returns wp wm hofs hl hret hj

end

/-! ## A host's writes of stack memory (R236, R242, R243, R244, R332) -/

section
namespace Sys2Proof.Machine

variable {s : State} {o : Fin 4} {w : HostWrite} {p pa k : Nat}

/-! ### The bytes of a line -/

theorem memByte_putLine {m : List Host.Cell} (wm : Memory.wf m) (da : Nat) (d : Unit512) (hk : k < 64) :
    memByte (memPut m da (bytesLE d.toNat 64)) (da + k) = BitVec.ofNat 8 (elem d.toNat 8 k) := by
  rw [memByte_memPut wm (by rwa [length_bytesLE]), ← List.getD_eq_getElem _ 0, getD_bytesLE hk]

theorem memByte_putLine_ne {m : List Host.Cell} (wm : Memory.wf m) {da a : Nat} (d : Unit512) (ha : a < da ∨ da + 64 ≤ a) :
    memByte (memPut m da (bytesLE d.toNat 64)) a = memByte m a :=
  memByte_memPut_ne wm (by rwa [length_bytesLE])

/-- The chunk at a device address as stack memory holds it. -/
def chunkAt (m : List Host.Cell) (da : Nat) : Unit512 := BitVec.ofNat 512 (memNat m da 64)

theorem elem_chunkAt (m : List Host.Cell) (da : Nat) (hk : k < 64) :
    elem (chunkAt m da).toNat 8 k = (memByte m (da + k)).toNat := by
  rw [chunkAt, elem_toNat_ofNat_of_lt _ (by omega), memNat, elem_ofBytesLE]
  simp [nth, hk]

theorem elem_maskedBytes (old new : Unit512) (mask : Nat) (hk : k < 64) :
    elem (maskedBytes old new mask).toNat 8 k = if bit mask k then elem new.toNat 8 k else elem old.toNat 8 k := by
  have hlt (x : Nat) : elem x 8 k % 2 ^ 8 = elem x 8 k := Nat.mod_eq_of_lt (fld_lt ..)
  rw [maskedBytes, elem_toNat_ofNat_of_lt _ (by omega), elem_joinElems]
  simp only [nth, List.getD_eq_getElem?_getD, List.getElem?_map, List.getElem?_range hk, Option.map_some, Option.getD_some]
  split <;> exact hlt _

/-! ### Where the write goes -/

theorem exec_cxlMemWrite_outside (h : hostAddr s o.val w.hpa = none) : exec (.cxlMemWrite o w) s =
    .next (portOut o.val (.memDone (w.hpa - w.hpa % 64)) (portRange s o.val w.hpa)) := by
  show execCxlMemWrite o w s = _
  unfold execCxlMemWrite
  dsimp only
  rw [h]

/-- A write reaches its slice and the check channels of its partition. -/
def lineServed (p pa da : Nat) (w : HostWrite) (s : State) : State :=
  foldLine p 0 pa w.data (serveWrite da (ringArrival s (da / 2 ^ 37)) (decide (w.mask = BitVec.allOnes 64)) s)

theorem lineServed_eq (p pa da : Nat) (w : HostWrite) (s : State) :
    ∃ ps ss, lineServed p pa da w s = { s with parts := ps, spines := ss } := ⟨_, _, rfl⟩

/-- A write under a mask is done to its chunk. -/
def lineMasked (o da : Nat) (w : HostWrite) (s : State) : State :=
  let marked := mget false s.stk.poison (da / 64)
  let u := writePart da 0 [] (w.poison || marked) w.e (0x10 + o) s
  if !marked && decide (w.e = .double) then u
  else { u with stk := { u.stk with
    mem := memPut u.stk.mem da (bytesLE (maskedBytes (chunkAt s.stk.mem da) w.data w.mask.toNat).toNat 64) } }

theorem exec_cxlMemWrite_within (h : hostAddr s o.val w.hpa = some (p, pa)) :
    let da := paToDa (getPart s p) (pa - pa % 64)
    let line := w.hpa - w.hpa % 64
    let u := lineServed p (pa - pa % 64) da w s
    exec (.cxlMemWrite o w) s = if !dieServes s da then .next (portOut o.val (.memDone line) s) else
      .next (portOut o.val (.memDone line) (if decide (w.mask = BitVec.allOnes 64) then writeChunk da w.data w.poison u
        else lineMasked o.val da w u)) := by
  intro da line u
  show execCxlMemWrite o w s = _
  unfold execCxlMemWrite
  dsimp only
  rw [h]
  rfl

/-- The marker after a write of no byte to a part of a chunk. -/
theorem writePart_none (da : Nat) (poison : Bool) (e : Ecc) (who : Nat) (s : State) :
    let u := writePart da 0 [] poison e who s
    u.stk.mem = s.stk.mem ∧ u.stk.poison = if mget false s.stk.poison (da / 64) then s.stk.poison
      else mset false s.stk.poison (da / 64) (poison || decide (e = .double)) := by
  intro u
  unfold u writePart
  extract_lets n marked s1 sl s2 k2 s4 k4 s5 s6
  split
  · exact ⟨rfl, rfl⟩
  · split
    next he => exact ⟨rfl, by simp [he]; rfl⟩
    next he =>
      have h6 : s6.stk = s.stk := by
        unfold s6
        split
        · split <;> rfl
        · rfl
      rw [← h6]
      exact ⟨rfl, by simp [he]⟩

theorem lineMasked_spec (o da : Nat) (w : HostWrite) (s : State) :
    let u := lineMasked o da w s
    let marked := mget false s.stk.poison (da / 64)
    StackSide s u ∧
      u.stk.mem = (if marked = false ∧ w.e = .double then s.stk.mem
        else memPut s.stk.mem da (bytesLE (maskedBytes (chunkAt s.stk.mem da) w.data w.mask.toNat).toNat 64)) ∧
      u.stk.poison = (if marked then s.stk.poison
        else mset false s.stk.poison (da / 64) (w.poison || decide (w.e = .double))) := by
  have hside := (writePart_spec da 0 [] (w.poison || mget false s.stk.poison (da / 64)) w.e (0x10 + o) s).1
  obtain ⟨hmem, hmark⟩ := writePart_none da (w.poison || mget false s.stk.poison (da / 64)) w.e (0x10 + o) s
  unfold lineMasked
  dsimp only at hside hmem hmark ⊢
  generalize writePart da 0 [] _ w.e (0x10 + o) s = v at hside hmem hmark ⊢
  generalize mget false s.stk.poison (da / 64) = marked at hmark ⊢
  have hmark : v.stk.poison = if marked then s.stk.poison
      else mset false s.stk.poison (da / 64) (w.poison || decide (w.e = .double)) := by
    rw [hmark]
    cases marked <;> simp
  by_cases hlost : marked = false ∧ w.e = .double
  · rw [if_pos (by simpa using hlost), if_pos hlost]
    exact ⟨hside, hmem, hmark⟩
  · rw [if_neg (by simpa using hlost), if_neg hlost]
    exact ⟨hside.trans (stackSide_stk ..), by rw [hmem], hmark⟩

theorem writeChunk_spec (da : Nat) (d : Unit512) (poison : Bool) (s : State) : let u := writeChunk da d poison s
    StackSide s u ∧ u.stk.mem = memPut s.stk.mem da (bytesLE d.toNat 64) ∧
      u.stk.poison = mset false s.stk.poison (da / 64) poison := by
  intro u
  unfold u writeChunk
  generalize bytesLE d.toNat 64 = bs
  exact ⟨(stackSide_closeEntries da s).trans (stackSide_stk ..), rfl, rfl⟩

theorem bit_allOnes (hk : k < 64) : bit (BitVec.allOnes 64).toNat k = true := by
  rw [bit_toNat, BitVec.getLsbD_allOnes, decide_eq_true hk]

/-- A write that its die serves puts a line in place of its chunk, unless the chunk is lost. -/
theorem exec_cxlMemWrite_served (h : hostAddr s o.val w.hpa = some (p, pa))
    (hd : dieServes s (paToDa (getPart s p) (pa - pa % 64)) = true) :
    let da := paToDa (getPart s p) (pa - pa % 64)
    let marked := mget false s.stk.poison (da / 64)
    let full := w.mask = BitVec.allOnes 64
    ∃ v d, exec (.cxlMemWrite o w) s = .next (portOut o.val (.memDone (w.hpa - w.hpa % 64)) v) ∧
      v.ports = s.ports ∧ v.tiles = s.tiles ∧ v.cycle = s.cycle ∧
      v.stk.mem = (if ¬ full ∧ marked = false ∧ w.e = .double then s.stk.mem
        else memPut s.stk.mem da (bytesLE (d : Unit512).toNat 64)) ∧
      (∀ k < 64, elem d.toNat 8 k =
        if bit w.mask.toNat k then elem w.data.toNat 8 k else (memByte s.stk.mem (da + k)).toNat) ∧
      v.stk.poison = (if full then mset false s.stk.poison (da / 64) w.poison else if marked then s.stk.poison
        else mset false s.stk.poison (da / 64) (w.poison || decide (w.e = .double))) := by
  intro da marked full
  obtain ⟨ps, ss, hu⟩ := lineServed_eq p (pa - pa % 64) da w s
  have hexec := exec_cxlMemWrite_within h
  dsimp only at hexec
  rw [if_neg (by rw [hd]; decide), show lineServed p (pa - pa % 64) (paToDa (getPart s p) (pa - pa % 64)) w s = _ from hu]
    at hexec
  by_cases hfull : full
  · rw [if_pos (decide_eq_true hfull)] at hexec
    obtain ⟨hside, hmem, hmark⟩ := writeChunk_spec da w.data w.poison { s with parts := ps, spines := ss }
    refine ⟨_, w.data, hexec, hside.ports, hside.tiles, hside.cycle, ?_, fun k hk => ?_, ?_⟩
    · rw [if_neg fun hlost => hlost.1 hfull]
      exact hmem
    · rw [show w.mask = _ from hfull, bit_allOnes hk, if_pos rfl]
    · rw [if_pos hfull]
      exact hmark
  · rw [if_neg fun hf => hfull (of_decide_eq_true hf)] at hexec
    obtain ⟨hside, hmem, hmark⟩ := lineMasked_spec o.val da w { s with parts := ps, spines := ss }
    refine ⟨_, maskedBytes (chunkAt s.stk.mem da) w.data w.mask.toNat, hexec, hside.ports, hside.tiles, hside.cycle, ?_,
      fun k hk => ?_, ?_⟩
    · refine hmem.trans ?_
      simp only [hfull, not_false_eq_true, true_and]
      rfl
    · rw [elem_maskedBytes _ _ _ hk, elem_chunkAt _ _ hk]
    · rw [if_neg hfull]
      exact hmark

end Sys2Proof.Machine

open Sys2Proof Sys2Proof.Machine

theorem hostWrites : HostWrites := by
  intro s o w done
  refine ⟨exec_cxlMemWrite_outside, fun p pa h => ?_⟩
  intro da marked full lost
  refine ⟨fun hd => (exec_cxlMemWrite_within h).trans (if_pos (by rw [hd]; rfl)), fun hd wm wk wp => ?_⟩
  obtain ⟨v, d, hexec, hports, htiles, hcycle, hmem, hline, hmark⟩ := exec_cxlMemWrite_served h hd
  have hlost : v.stk.mem = if lost then s.stk.mem else memPut s.stk.mem da (bytesLE d.toNat 64) := hmem
  refine ⟨_, hexec, fun k hk => ?_, fun a ha => ?_, ?_, fun c hc => ?_, ?_, htiles, hcycle⟩
  · show memByte v.stk.mem (da + k) = _
    rw [hlost]
    by_cases hl : lost
    · simp [hl]
    · rw [if_neg hl, memByte_putLine wm da d hk, hline k hk]
      cases bit w.mask.toNat k <;> simp [hl, da]
  · show memByte v.stk.mem a = _
    rw [hlost]
    split
    · rfl
    · exact memByte_putLine_ne wm d ha
  · show mget false v.stk.poison (da / 64) = true ↔ _
    rw [hmark]
    by_cases hfull : full
    · rw [if_pos hfull, mget_mset wk]
      simp [lost, hfull]
    · rw [if_neg hfull]
      split
      next hm =>
        have hm : marked = true := hm
        simp [lost, hfull, hm, show mget false s.stk.poison (da / 64) = true from hm]
      next hm =>
        have hm : marked = false := Bool.eq_false_iff.mpr hm
        rw [mget_mset wk]
        simp [lost, hfull, hm]
  · show mget false v.stk.poison c = _
    rw [hmark]
    split
    · exact mget_mset_ne wk hc
    · split
      · rfl
      · exact mget_mset_ne wk hc
  · rw [out_portOut (by rw [hports]; exact wp)]
    exact congrArg (fun m => (mget {} m o.val).out ++ [done]) hports

/-- Settles O37: what a read and a write of a host do where each may go (hostReads, hostWrites). -/
theorem hostMemory : Obligations.HostMemory := ⟨hostReads, hostWrites⟩

end

/-! ## Merge entries that free, refresh and patrol scrub (R238, R239, R241, R242) -/

section
namespace Sys2Proof.Machine

variable {s s' s'' : State} {sl n : Nat}

/-! ### The window of a merge entry ends -/

theorem freeEntries_cons {c : Nat} {r : DramRead} (hr : r.returned = true) (hc : r.opened + 64 ≤ c) (l : List DramRead) :
    freeEntries c (r :: l) = freeEntries c l := by
  simp [freeEntries, hr, hc]

theorem mem_freeEntries {c : Nat} {r : DramRead} {l : List DramRead} (h : r ∈ l) (hr : r.returned = false) :
    r ∈ freeEntries c l := by
  simp [freeEntries, h, hr]

theorem exec_mergeEntryExpiry {d : Fin 48} {sl : Fin 64} {r : DramRead} {l : List DramRead} (w : mwf {} s.spines = true)
    (wr : mwf [] (getSpine s d.val).reads = true) (hl : mget [] (getSpine s d.val).reads sl.val = r :: l)
    (he : r.entry = true) (hr : r.returned = true) :
    let c := max s.cycle (r.opened + 64)
    ∃ s', exec (.mergeEntryExpiry d sl) s = .next s' ∧ s'.cycle = c ∧
      mget [] (getSpine s' d.val).reads sl.val = freeEntries c l ∧ s'.stk = s.stk ∧ s'.tiles = s.tiles ∧
        s'.parts = s.parts := by
  intro c
  have hhead : ((r :: l).filter fun r => r.entry && r.returned).head? = some r := by simp [he, hr]
  have hc : max s.cycle c = c := by omega
  have hexec : exec (.mergeEntryExpiry d sl) s = .next (modSpine (advanceTo s c) d.val fun sp =>
      { sp with reads := mset [] sp.reads sl.val (freeEntries (max s.cycle c) (r :: l)) }) := by
    show execMergeEntryExpiry d sl s = _
    unfold execMergeEntryExpiry
    rw [hl]
    dsimp only
    rw [hhead]
    rfl
  rw [hc, freeEntries_cons hr (by omega)] at hexec
  refine ⟨_, hexec, hc, ?_, rfl, rfl, rfl⟩
  rw [getSpine_modSpine_same (s := advanceTo s c) w]
  exact mget_mset wr

/-! ### Patrol scrub moves on -/

theorem scrubDie_spec (w : mwf {} s.spines = true) (sl n : Nat) :
    StackSide s (scrubDie sl n s) ∧ (scrubDie sl n s).stk = s.stk ∧ ∀ k, (getSpine (scrubDie sl n s) k).scrub =
      if k = n ∧ sliceUp (getSpine s n) sl = true then mmod 0 (getSpine s n).scrub sl fun g => (g + 2) % 8388608
      else (getSpine s k).scrub := by
  unfold scrubDie
  split
  next hup =>
    let f : Spine → Spine := fun sp => { sp with scrub := mmod 0 sp.scrub sl fun g => (g + 2) % 8388608 }
    have hf : StackSide s (modSpine s n f) := stackSide_modSpine fun _ => rfl
    have hb : SpinesCount (modSpine s n f) (spineBump n 0x58 2 (modSpine s n f)) := spinesCount_spineBump ..
    refine ⟨hf.trans hb.toStackSide, rfl, fun k => ?_⟩
    rw [hb.scrub (hf.wf w), getSpine_modSpine_eq w]
    by_cases hk : k = n
    · rw [if_pos hk, if_pos ⟨hk, hup⟩]
    · rw [if_neg hk, if_neg fun h => hk h.1]
  next hup => exact ⟨StackSide.refl s, rfl, fun k => (if_neg fun h => hup h.2).symm⟩

/-- The slice of every die of a list that has its stack in service. -/
theorem scrubDies_spec (w : mwf {} s.spines = true) (sl : Nat) {l : List Nat} (hl : l.Nodup) :
    let u := l.foldl (fun s n => scrubDie sl n s) s
    StackSide s u ∧ u.stk = s.stk ∧ ∀ k, (getSpine u k).scrub =
      if k ∈ l ∧ sliceUp (getSpine s k) sl = true then mmod 0 (getSpine s k).scrub sl fun g => (g + 2) % 8388608
      else (getSpine s k).scrub := by
  induction l generalizing s with
  | nil => exact ⟨StackSide.refl s, rfl, fun k => by simp⟩
  | cons n l ih =>
    obtain ⟨hnl, hl⟩ := List.nodup_cons.mp hl
    obtain ⟨hside, hstk, hscrub⟩ := scrubDie_spec w sl n
    obtain ⟨hside', hstk', hscrub'⟩ := ih (hside.wf w) hl
    refine ⟨hside.trans hside', hstk'.trans hstk, fun k => (hscrub' k).trans ?_⟩
    rw [hscrub k, hside.sliceUp w]
    by_cases hk : k = n
    · simp [hk, hnl]
    · simp [hk]

/-! ### What scrub finds -/

variable {f : ScrubFind}

/-- A chunk lies in one of the two granules that its slice has just scrubbed. -/
def Scanned (s : State) (sl : Nat) (f : ScrubFind) : Prop :=
  let g := sliceOffset (64 * f.chunk) / 256
  let pos := mget 0 (getSpine s f.die).scrub sl
  sliceOf (64 * f.chunk) = sl ∧ f.die < 48 ∧ sliceUp (getSpine s f.die) sl = true ∧
    ((g + 1) % 8388608 = pos ∨ (g + 2) % 8388608 = pos)

theorem SpinesCount.scanned (h : SpinesCount s s') (w : mwf {} s.spines = true) (hf : Scanned s sl f) : Scanned s' sl f := by
  unfold Scanned at hf ⊢
  rw [h.scrub w, h.sliceUp w]
  exact hf

/-- The read of a granule that scrub makes for one chunk, and what the code finds there. -/
def scrubRead (f : ScrubFind) : DramRead :=
  { granule := 64 * f.chunk / 256, opened := 0, entry := false, joinable := true, joins := [], data := 0
    poison := 0, due := 0 }

def scrubEcc (f : ScrubFind) : ChunkEcc :=
  let at_ := fun k => if k = f.chunk % 4 then f.e else .clean
  { c0 := at_ 0, c1 := at_ 1, c2 := at_ 2, c3 := at_ 3, w := .clean }

theorem chunkOf_scrubRead (f : ScrubFind) : chunkOf f.die (scrubRead f) (f.chunk % 4) = devAddr f.die (64 * f.chunk) / 64 := by
  unfold chunkOf scrubRead
  rw [show 256 * (64 * f.chunk / 256) + 64 * (f.chunk % 4) = 64 * f.chunk by omega]

theorem chunkLost_scrubRead (f : ScrubFind) : chunkLost (scrubRead f) (scrubEcc f) (f.chunk % 4) = decide (f.e = .double) := by
  have hmark : bit (scrubRead f).poison.toNat (f.chunk % 4) = false := by simp [scrubRead, bit, fld]
  have hecc : eccAt (scrubEcc f) (f.chunk % 4) = f.e := by
    have hk : f.chunk % 4 < 4 := Nat.mod_lt _ (by decide)
    unfold scrubEcc
    interval_cases f.chunk % 4 <;> rfl
  rw [chunkLost, hmark, hecc]
  rfl

theorem scrubFind_of_scanned (h : Scanned s sl f) : scrubFind sl f s =
    if mget false s.stk.poison (devAddr f.die (64 * f.chunk) / 64) then s
    else (checkChunk f.die sl (scrubRead f) (scrubEcc f) (f.chunk % 4) s).1 := by
  obtain ⟨hsl, hdie, hup, hpos⟩ := h
  unfold scrubFind
  dsimp only
  rw [if_neg]
  · rfl
  · rintro (h | h | h | h)
    · exact h hsl
    · omega
    · rw [hup] at h
      exact absurd h (by decide)
    · exact h hpos

theorem scrubFind_of_not_scanned (h : ¬ Scanned s sl f) : scrubFind sl f s = s := by
  unfold scrubFind
  dsimp only
  rw [if_pos]
  by_contra hall
  rw [not_or, not_or, not_or] at hall
  obtain ⟨hsl, hdie, hup, hpos⟩ := hall
  exact h ⟨not_not.mp hsl, not_le.mp hdie, by simpa using hup, not_not.mp hpos⟩

/-- Markers have been set and none cleared, and no byte has changed. -/
structure Marks (s s' : State) : Prop extends SpinesCount s s' where
  mem : s'.stk.mem = s.stk.mem
  poisonWf : mwf false s.stk.poison = true → mwf false s'.stk.poison = true
  keeps : mwf false s.stk.poison = true → ∀ c, mget false s.stk.poison c = true → mget false s'.stk.poison c = true

theorem Marks.refl (s : State) : Marks s s := ⟨SpinesCount.refl s, rfl, id, fun _ _ h => h⟩

theorem Marks.trans (h : Marks s s') (h' : Marks s' s'') : Marks s s'' where
  toSpinesCount := h.toSpinesCount.trans h'.toSpinesCount
  mem := h'.mem.trans h.mem
  poisonWf wp := h'.poisonWf (h.poisonWf wp)
  keeps wp c hc := h'.keeps (h.poisonWf wp) c (h.keeps wp c hc)

theorem marks_checkChunk (n sl : Nat) (r : DramRead) (e : ChunkEcc) (k : Nat) (s : State) :
    Marks s (checkChunk n sl r e k s).1 where
  toSpinesCount := spinesCount_checkChunk ..
  mem := (stackSide_checkChunk ..).2
  poisonWf wp := (checkChunk_marks wp n sl r e k 0).1
  keeps wp c hc := by rw [(checkChunk_marks wp n sl r e k c).2, hc, Bool.true_or]

theorem marks_scrubFind (sl : Nat) (f : ScrubFind) (s : State) : Marks s (scrubFind sl f s) := by
  by_cases h : Scanned s sl f
  · rw [scrubFind_of_scanned h]
    split
    · exact Marks.refl s
    · exact marks_checkChunk ..
  · rw [scrubFind_of_not_scanned h]
    exact Marks.refl s

theorem scrubFind_double (wp : mwf false s.stk.poison = true) (h : Scanned s sl f) (he : f.e = .double) :
    mget false (scrubFind sl f s).stk.poison (devAddr f.die (64 * f.chunk) / 64) = true := by
  rw [scrubFind_of_scanned h]
  split
  next hm => exact hm
  next =>
    rw [(checkChunk_marks wp ..).2, chunkOf_scrubRead, chunkLost_scrubRead, he]
    simp

theorem scrubFinds_spec (sl : Nat) (l : List ScrubFind) (s : State) :
    let u := l.foldl (fun s f => scrubFind sl f s) s
    Marks s u ∧ (mwf {} s.spines = true → mwf false s.stk.poison = true → ∀ f ∈ l, Scanned s sl f → f.e = .double →
      mget false u.stk.poison (devAddr f.die (64 * f.chunk) / 64) = true) := by
  induction l generalizing s with
  | nil => exact ⟨Marks.refl s, fun _ _ f hf => absurd hf List.not_mem_nil⟩
  | cons f l ih =>
    have hf := marks_scrubFind sl f s
    obtain ⟨hl, hfound⟩ := ih (scrubFind sl f s)
    refine ⟨hf.trans hl, fun w wp x hx hscan he => ?_⟩
    rcases List.mem_cons.mp hx with rfl | hx
    · exact hl.keeps (hf.poisonWf wp) _ (scrubFind_double wp hscan he)
    · exact hfound (hf.wf w) (hf.poisonWf wp) x hx (hf.scanned w hscan) he

/-! ### The calendar passes to its next slice -/

theorem exec_refreshPhase (e : List ScrubFind) (s : State) :
    let m := s.cycle / 110 + 1
    exec (.refreshPhase e) s = .next (e.foldl (fun s f => scrubFind (m % 64) f s)
      ((List.range 48).foldl (fun s n => scrubDie (m % 64) n s) { s with cycle := m * 110 })) := by
  intro m
  have hc : max s.cycle (s.cycle + (110 - s.cycle % 110)) = m * 110 := by omega
  have hsl : m * 110 % 7040 / 110 = m % 64 := by omega
  show execRefreshPhase e s = _
  unfold execRefreshPhase advanceTo
  dsimp only
  rw [hc, hsl]

/-- A granule at the place of a slice's scrub, or the next, lies before the place that is two on. -/
theorem scanned_of_place {g pos : Nat} (hg : g ∈ [pos % 2 ^ 23, (pos + 1) % 2 ^ 23]) :
    (g + 1) % 8388608 = (pos + 2) % 8388608 ∨ (g + 2) % 8388608 = (pos + 2) % 8388608 := by
  simp only [List.mem_cons, List.not_mem_nil, or_false] at hg
  omega

end Sys2Proof.Machine

open Sys2Proof Sys2Proof.Machine

theorem spineHousekeeping : SpineHousekeeping := by
  intro s w
  refine ⟨fun d sl r l hl he hr wr => ?expiry, fun e wp => ?refresh⟩
  case expiry =>
    obtain ⟨s', hexec, hcycle, hreads, hframe⟩ := exec_mergeEntryExpiry w wr hl he hr
    exact ⟨s', hexec, hcycle, ⟨_, hreads, List.filter_sublist, fun x hx hret => mem_freeEntries hx hret⟩, hframe⟩
  case refresh =>
    obtain ⟨hside, hstk, hscrub⟩ := scrubDies_spec (s := { s with cycle := (s.cycle / 110 + 1) * 110 }) w
      ((s.cycle / 110 + 1) % 64) (List.nodup_range (n := 48))
    have hexec := exec_refreshPhase e s
    dsimp only at hexec
    generalize (List.range 48).foldl _ _ = u at hside hstk hscrub hexec
    obtain ⟨hmarks, hfound⟩ := scrubFinds_spec ((s.cycle / 110 + 1) % 64) e u
    have wu := hside.wf w
    have wpu : mwf false u.stk.poison = true := by rw [hstk]; exact wp
    refine ⟨_, hexec, hmarks.cycle.trans hside.cycle, hmarks.mem.trans (congrArg Stacks.mem hstk),
      hmarks.tiles.trans hside.tiles, ?_⟩
    intro sl
    have hplace (n : Nat) (hn : n < 48) (hup : sliceUp (getSpine s n) sl = true) (ws : mwf 0 (getSpine s n).scrub = true) :
        mget 0 (getSpine u n).scrub sl = (mget 0 (getSpine s n).scrub sl + 2) % 2 ^ 23 := by
      rw [hscrub n, if_pos ⟨List.mem_range.mpr hn, hup⟩]
      exact mget_mmod ws
    refine ⟨fun c hc => hmarks.keeps wpu c (by rw [hstk]; exact hc), fun f hf he hdie hsl hup ws => ?_, fun n hn ws => ?_⟩
    · intro pos hg _
      refine hfound wu wpu f hf ⟨hsl, hdie, (hside.sliceUp w ..).trans hup, ?_⟩ he
      rw [hplace f.die hdie hup ws]
      exact scanned_of_place hg
    · rw [hmarks.scrub wu]
      split
      next hup => exact hplace n hn hup ws
      next hup =>
        rw [hscrub n, if_neg fun h => hup h.2]
        rfl

end

/-! ## Stack streams (R233, R234, R235) -/

section
namespace Sys2Proof.Machine

variable {s s' s'' : State} {n k p : Nat} {t : StackStream}

/-! ### The table of streams -/

/-- A stream of a table by its index. -/
def streamIn (m : SMap StackStream) (k : Nat) : Option StackStream := (m.find? fun (i, _) => decide (i = k)).map (·.2)

theorem getStream_eq (s : State) (n k : Nat) : getStream s n k = streamIn (getSpine s n).streams k := rfl

theorem streamIn_cons (i k : Nat) (t : StackStream) (m : SMap StackStream) :
    streamIn ((i, t) :: m) k = if i = k then some t else streamIn m k := by
  by_cases h : i = k <;> simp [streamIn, h]

theorem streamIn_map (f : StackStream → StackStream) (m : SMap StackStream) (k : Nat) :
    streamIn (m.map fun (i, t) => if i = k then (i, f t) else (i, t)) k = (streamIn m k).map f := by
  induction m with
  | nil => rfl
  | cons a m ih =>
    obtain ⟨i, t⟩ := a
    rw [List.map_cons, streamIn_cons]
    by_cases h : i = k
    · simp [h, streamIn_cons]
    · simp only [h, if_false, streamIn_cons, ih]

/-- What the table reads as a map is the stream of that index. -/
theorem streamIn_of_mget {m : SMap StackStream} (h : mget none (m.map fun (i, t) => (i, some t)) k = some t) :
    streamIn m k = some t := by
  induction m with
  | nil => exact absurd h (by simp [mget])
  | cons a m ih =>
    obtain ⟨i, u⟩ := a
    rw [List.map_cons, mget] at h
    rw [streamIn_cons]
    by_cases hk : k = i
    · rw [if_pos hk] at h
      rw [if_pos hk.symm, h]
    · rw [if_neg hk] at h
      rw [if_neg (Ne.symm hk)]
      split at h
      · exact absurd h (by simp)
      · exact ih h

theorem stackSide_modStream (n k : Nat) (f : StackStream → StackStream) (s : State) : StackSide s (modStream n k f s) :=
  stackSide_modSpine fun _ => rfl

theorem getStream_modStream (w : mwf {} s.spines = true) (n k : Nat) (f : StackStream → StackStream) :
    getStream (modStream n k f s) n k = (getStream s n k).map f := by
  rw [getStream_eq, modStream, getSpine_modSpine_same w, getStream_eq, ← streamIn_map]

theorem getStream_arriveRead (w : mwf {} s.spines = true) (g arr : Nat) (rd : Reader) (j : Nat) :
    getStream (arriveRead n g arr rd s) j k = getStream s j k := by
  rw [getStream_eq, getStream_eq, streams_arriveRead w]

/-! ### A stream reads ahead -/

/-- A stream has read on, at most sixteen granules ahead of what it has sent, and nothing else of it has changed; of the
device, ports have snooped and spines have read. -/
structure ReadsOn (n k : Nat) (s s' : State) : Prop where
  rest : s' = { s with ports := s'.ports, spines := s'.spines }
  wf : mwf {} s.spines = true → mwf {} s'.spines = true
  stream : mwf {} s.spines = true → ∀ t, getStream s n k = some t →
    ∃ r, getStream s' n k = some { t with read := r } ∧ t.read ≤ r ∧ r ≤ max t.read (t.sent + streamDepth)

theorem ReadsOn.refl (n k : Nat) (s : State) : ReadsOn n k s s :=
  ⟨rfl, id, fun _ t h => ⟨t.read, h, le_rfl, Nat.le_max_left ..⟩⟩

theorem ReadsOn.trans (h : ReadsOn n k s s') (h' : ReadsOn n k s' s'') : ReadsOn n k s s'' where
  rest := by rw [h'.rest, h.rest]
  wf w := h'.wf (h.wf w)
  stream w t ht := by
    obtain ⟨r, hr, hlo, hhi⟩ := h.stream w t ht
    obtain ⟨r', hr', hlo', hhi'⟩ := h'.stream (h.wf w) _ hr
    refine ⟨r', hr', hlo.trans hlo', ?_⟩
    dsimp only at hhi'
    omega

theorem readsOn_streamRead (p n k : Nat) (s : State) : ReadsOn n k s (streamRead p n k s) := by
  unfold streamRead
  split
  · exact ReadsOn.refl n k s
  next t ht =>
    split
    · exact ReadsOn.refl n k s
    next hroom =>
      extract_lets q da held s1
      split
      · exact ⟨rfl, id, fun _ t h => ⟨t.read, h, le_rfl, Nat.le_max_left ..⟩⟩
      · have hs1 : s1 = modStream n k (fun t => { t with read := t.read + 1 }) s := rfl
        have w1 : mwf {} s.spines = true → mwf {} s1.spines = true := (hs1 ▸ stackSide_modStream n k _ s).wf
        obtain ⟨hside, hstk⟩ := stackSide_arriveRead n (t.first + t.read) s1.cycle (.stream k t.read) s1
        refine ⟨?_, fun w => hside.wf (w1 w), fun w u hu => ⟨u.read + 1, ?_, Nat.le_succ _, ?_⟩⟩
        · rw [hside.rest, hstk]
          rfl
        · rw [getStream_arriveRead (w1 w), hs1, getStream_modStream w, hu]
          rfl
        · have htu : t = u := Option.some.inj ((streamIn_of_mget ht).symm.trans hu)
          rw [← htu]
          omega

theorem readsOn_streamReads (p n k m : Nat) (s : State) :
    ReadsOn n k s ((List.range m).foldl (fun s _ => streamRead p n k s) s) := by
  induction m with
  | zero => exact ReadsOn.refl n k s
  | succ m ih =>
    rw [List.range_succ, List.foldl_append]
    exact ih.trans (readsOn_streamRead p n k _)

/-! ### A stream starts -/

variable {d : Fin 48} {i : Fin 64}

theorem exec_stackStreamStart (hs : getStream s d.val i.val = some t) (hp : partOfDie s d.val = some p)
    (hst : (getPart s p).st = .running) (hstop : t.stopped = false) (hstart : t.started = false) :
    exec (.stackStreamStart d i) s = .next ((List.range streamDepth).foldl (fun s _ => streamRead p d.val i.val s)
      (modStream d.val i.val (fun t => { t with started := true }) (advanceTo s (max s.cycle t.start)))) := by
  show execStackStreamStart d i s = _
  unfold execStackStreamStart
  rw [hs, hp]
  dsimp only
  rw [if_neg (by simp [hst, hstop, hstart])]

theorem streamStart_spec (w : mwf {} s.spines = true) (hs : getStream s d.val i.val = some t)
    (hp : partOfDie s d.val = some p) (hst : (getPart s p).st = .running) (hstop : t.stopped = false)
    (hstart : t.started = false) : ∃ s' r, exec (.stackStreamStart d i) s = .next s' ∧ s'.cycle = max s.cycle t.start ∧
      getStream s' d.val i.val = some { t with started := true, read := r } ∧ t.read ≤ r ∧ r ≤ max t.read (t.sent + 16) ∧
      s'.stk = s.stk ∧ s'.tiles = s.tiles := by
  have hexec := exec_stackStreamStart hs hp hst hstop hstart
  let f : StackStream → StackStream := fun t => { t with started := true }
  let u := modStream d.val i.val f (advanceTo s (max s.cycle t.start))
  have hu : getStream u d.val i.val = some (f t) := by
    rw [getStream_modStream (s := advanceTo s (max s.cycle t.start)) w]
    exact congrArg (Option.map f) hs
  have hreads := readsOn_streamReads p d.val i.val streamDepth u
  obtain ⟨r, hr, hlo, hhi⟩ := hreads.stream ((stackSide_modStream ..).wf w) (f t) hu
  refine ⟨_, r, hexec, ?_, hr, hlo, hhi, (congrArg State.stk hreads.rest :), (congrArg State.tiles hreads.rest :)⟩
  have hcycle : max s.cycle (max s.cycle t.start) = max s.cycle t.start := by omega
  exact (congrArg State.cycle hreads.rest :).trans hcycle

/-! ### A granule leaves -/

/-- The offset of a stream's next slot in its window, and the slots that go there before the window's end. -/
def streamOfs (len : Nat) (t : StackStream) : Nat :=
  let run := t.ofs + 4 * t.sent + t.part
  if len = 0 then run else run % len

def streamSlots (len : Nat) (t : StackStream) : Nat :=
  if len = 0 then 4 - t.part else min (4 - t.part) (len - streamOfs len t)

/-- A stream once slots of its granule in hand have left. -/
def slotsSent (m : Nat) (t : StackStream) : StackStream :=
  if t.part + m < 4 then { t with part := t.part + m }
  else { t with sent := t.sent + 1, part := 0, ready := t.ready.filter fun r => decide (r.1 ≠ t.sent) }

/-- The header of a stream's packet, but for its SEQ. -/
def streamHdr (o k m ofs : Nat) (t : StackStream) : Hdr :=
  { kind := 1, dx := t.x, dy := t.y, tag := 0x8000 + k, npay := m, win := t.win, offset := ofs, issuer := streamIssuer o }

/-- Slots of a granule with their poison. -/
def granuleSlots (data : BitVec 2048) (poison : BitVec 4) (part m : Nat) : List (Unit512 × Bool) :=
  (List.range m).map fun i => (BitVec.ofNat 512 (fld data.toNat (512 * (part + i)) 512), bit poison.toNat (part + i))

variable {j : Nat} {data : BitVec 2048} {poison : BitVec 4}

theorem exec_stackStreamPacket (hs : getStream s d.val i.val = some t) (hp : partOfDie s d.val = some p)
    (hst : (getPart s p).st = .running) (hstop : t.stopped = false)
    (hready : (t.ready.find? fun r => decide (r.1 = t.sent)) = some (j, data, poison))
    (hsus : (getPart s p).suspended = false) (hwave : (getPart s p).wave = none)
    (hmay : mayIssue s (streamIssuer (getPart s p).port) (some d.val) (0x8000 + i.val) = true) :
    let len := wLen (mget 0 (getTile s t.x t.y).mu.win t.win)
    let m := streamSlots len t
    exec (.stackStreamPacket d i) s = .next (streamRead p d.val i.val (modStream d.val i.val (slotsSent m)
      (issuePacket p (some d.val) (streamHdr (getPart s p).port i.val m (streamOfs len t) t)
        (granuleSlots data poison t.part m) s))) := by
  intro len m
  show execStackStreamPacket d i s = _
  unfold execStackStreamPacket
  rw [hs, hp]
  dsimp only
  rw [hready]
  dsimp only
  rw [if_neg (by simp [hst, hstop, hsus, hwave, hmay])]
  rfl

theorem streamPacket_spec (w : mwf {} s.spines = true) (hs : getStream s d.val i.val = some t)
    (hp : partOfDie s d.val = some p) (hst : (getPart s p).st = .running) (hstop : t.stopped = false)
    (hready : (t.ready.find? fun r => decide (r.1 = t.sent)) = some (j, data, poison))
    (hsus : (getPart s p).suspended = false) (hwave : (getPart s p).wave = none)
    (hmay : mayIssue s (streamIssuer (getPart s p).port) (some d.val) (0x8000 + i.val) = true) :
    let len := wLen (mget 0 (getTile s t.x t.y).mu.win t.win)
    let m := streamSlots len t
    ∃ s' r pk seq, exec (.stackStreamPacket d i) s = .next s' ∧
      getStream s' d.val i.val = some { slotsSent m t with read := r } ∧ s'.issued = s.issued ++ [(pk, some d.val)] ∧
      pk.header = packHdr { streamHdr (getPart s p).port i.val m (streamOfs len t) t with seq := seq } ∧
      pk.epoch = (getPart s p).epoch ∧ pk.payload = granuleSlots data poison t.part m ∧
      s'.stk = s.stk ∧ s'.tiles = s.tiles ∧ s'.cycle = s.cycle := by
  intro len m
  have hexec := exec_stackStreamPacket hs hp hst hstop hready hsus hwave hmay
  let v := issuePacket p (some d.val) (streamHdr (getPart s p).port i.val m (streamOfs len t) t)
    (granuleSlots data poison t.part m) s
  let u := modStream d.val i.val (slotsSent m) v
  have hu : getStream u d.val i.val = some (slotsSent m t) := by
    rw [getStream_modStream (s := v) w]
    exact congrArg (Option.map (slotsSent m)) hs
  have hreads := readsOn_streamRead p d.val i.val u
  obtain ⟨r, hr, -⟩ := hreads.stream ((stackSide_modStream d.val i.val (slotsSent m) v).wf w) _ hu
  have hrest := hreads.rest
  exact ⟨_, r, _, _, hexec, hr, (congrArg State.issued hrest :), rfl, rfl, rfl, (congrArg State.stk hrest :),
    (congrArg State.tiles hrest :), (congrArg State.cycle hrest :)⟩

/-- No more slots leave than the granule in hand still has, and they go where the window's LEN puts them. -/
theorem streamSlots_eq (len : Nat) (t : StackStream) : streamSlots len t =
    if len = 0 then 4 - t.part else min (4 - t.part) (len - (t.ofs + 4 * t.sent + t.part) % len) := by
  unfold streamSlots streamOfs
  split <;> rfl

theorem streamSlots_le (len : Nat) (t : StackStream) : streamSlots len t ≤ 4 := by
  unfold streamSlots
  split <;> omega

theorem slotsSent_part {m : Nat} (h : t.part + m < 4) : slotsSent m t = { t with part := t.part + m } := if_pos h

theorem slotsSent_whole {m : Nat} (h : 4 ≤ t.part + m) : slotsSent m t =
    { t with sent := t.sent + 1, part := 0, ready := t.ready.filter fun r => decide (r.1 ≠ t.sent) } :=
  if_neg (by omega)

theorem granuleSlots_get {part m x : Nat} (h : x < m) : (granuleSlots data poison part m)[x]? =
    some (BitVec.ofNat 512 (fld data.toNat (512 * (part + x)) 512), bit poison.toNat (part + x)) := by
  simp [granuleSlots, h]

end Sys2Proof.Machine

open Sys2Proof Sys2Proof.Machine

theorem stackStreams : StackStreams := by
  intro s d i t p w _ hs hp hst hstop
  refine ⟨fun hstart => ?start, fun j data poison hready hsus hwave _ hmay hx hy hwin hport => ?packet⟩
  case start =>
    obtain ⟨s', r, hexec, hcycle, hr, hlo, hhi, hframe⟩ := streamStart_spec w hs hp hst hstop hstart
    exact ⟨s', _, hexec, hcycle, hr, rfl, rfl, rfl, hlo, hhi, hframe⟩
  case packet =>
    intro len run m
    have hm : streamSlots len t = m := streamSlots_eq len t
    obtain ⟨s', r, pk, seq, hexec, hr, hissued, hhdr, hepoch, hpay, hframe⟩ :=
      streamPacket_spec w hs hp hst hstop hready hsus hwave hmay
    rw [show streamSlots _ t = m from hm] at hr hhdr hpay
    have hm4 : m ≤ 4 := hm ▸ streamSlots_le len t
    obtain ⟨hkind, hdx, hdy, -, -, hnpay, hw, hofs, hissuer⟩ :=
      header_fields { streamHdr (getPart s p).port i.val m (streamOfs len t) t with seq := seq }
    rw [← show pk.header = _ from hhdr] at hkind hdx hdy hnpay hw hofs hissuer
    refine ⟨s', _, pk, hexec, hr, fun h => ?_, fun h => ?_, hissued, hkind, hdx.trans (Nat.mod_eq_of_lt hx),
      hdy.trans (Nat.mod_eq_of_lt hy), hw.trans (Nat.mod_eq_of_lt hwin), hnpay.trans (Nat.mod_eq_of_lt (show m < 16 by omega)),
      hofs, hissuer.trans (Nat.mod_eq_of_lt (show 2 + (getPart s p).port < 16 by omega)), hepoch, ?_, fun x hx => ?_, hframe⟩
    · rw [slotsSent_part h]
      exact ⟨rfl, rfl, rfl⟩
    · rw [slotsSent_whole h]
      exact ⟨rfl, rfl, rfl⟩
    · rw [hpay, granuleSlots, List.length_map, List.length_range]
    · rw [hpay, granuleSlots_get hx]

/-- Settles O38: spines by their merge entries and their calendar (spineHousekeeping), streams by their start and their
packets (stackStreams). -/
theorem spinesAndStreams : Obligations.SpinesAndStreams := ⟨spineHousekeeping, stackStreams⟩

end

/-! ## Section entries (R249, R259, R264, R269, R274, R301, R314, R317, R354) -/

section
namespace Sys2Proof.Machine

variable {s : State} {p k : Nat} {o : LoadOpts} {q : Partition}

/-! ### The entry of the Array engine -/

theorem arrayFree_sw (h : arrayFree q = true) : q.sw = none := by
  simp only [arrayFree, Bool.and_eq_true, Option.isNone_iff_eq_none] at h
  obtain ⟨⟨⟨hsw, -⟩, -⟩, -⟩ := h
  exact hsw

/-- A partition whose entry of the Array engine has started. -/
def entryStarted (q : Partition) : Partition := modEng q 0 fun g => { g with cur := { g.cur with started := true } }

/-- A partition whose entry of the Array engine has ended. -/
def entryEnded (st d0 d1 : Nat) (q : Partition) : Partition :=
  modEng q 0 fun g => { g with cur := { g.cur with ended := some (st, d0, d1) } }

theorem getEng_entryStarted (w : mwf {} q.eng = true) :
    getEng (entryStarted q) 0 = { getEng q 0 with cur := { (getEng q 0).cur with started := true } } := getEng_modEng w

theorem entryStarted_wf (w : mwf {} q.eng = true) : mwf {} (entryStarted q).eng = true := modEng_wf w

theorem getEng_entryEnded (st d0 d1 : Nat) (w : mwf {} q.eng = true) :
    getEng (entryEnded st d0 d1 q) 0 = { getEng q 0 with cur := { (getEng q 0).cur with ended := some (st, d0, d1) } } :=
  getEng_modEng w

/-- An engine has an open entry while a list runs in it and the current entry has not ended. -/
theorem isSome_openEntry_iff : (openEntry s p k).isSome = true ↔
    (runList (getEng (getPart s p) k)).isSome = true ∧ (getEng (getPart s p) k).cur.ended = none := by
  unfold openEntry
  dsimp only
  cases runList (getEng (getPart s p) k) <;> cases (getEng (getPart s p) k).cur.ended <;> simp

theorem isSome_openEntry_of_entryOf {op : Nat} {b : Bool} {x : CmdList × Unit512 × Entry}
    (h : entryOf s p k op b = some x) : (openEntry s p k).isSome = true := by
  rw [(Option.filter_eq_some_iff.mp h).1]
  rfl

theorem getPart_startEntry (w : mwf {} s.parts = true) :
    getPart (startEntry p 0 s) p = entryStarted (getPart s p) := getPart_modPart_same w

theorem isSome_openEntry_startEntry (w : mwf {} s.parts = true) (we : mwf {} (getPart s p).eng = true)
    (h : (openEntry s p 0).isSome = true) : (openEntry (startEntry p 0 s) p 0).isSome = true := by
  rw [isSome_openEntry_iff] at h ⊢
  rw [getPart_startEntry w, getEng_entryStarted we]
  exact h

/-- An open entry of the Array engine ends, and nothing else changes. -/
theorem endEntry_array (h : (openEntry s p 0).isSome = true) (st d0 d1 : Nat) :
    endEntry p 0 st d0 d1 s = modPart s p (entryEnded st d0 d1) := by
  obtain ⟨x, hx⟩ := Option.isSome_iff_exists.mp h
  rw [endEntry, hx]
  rfl

/-- An entry of the Array engine that starts and ends at once. -/
theorem endEntry_startEntry (w : mwf {} s.parts = true) (we : mwf {} (getPart s p).eng = true)
    (h : (openEntry s p 0).isSome = true) (st d0 d1 : Nat) :
    ∃ ps, endEntry p 0 st d0 d1 (startEntry p 0 s) = { s with parts := ps } ∧
      getPart { s with parts := ps } p = entryEnded st d0 d1 (entryStarted (getPart s p)) := by
  refine ⟨_, endEntry_array (isSome_openEntry_startEntry w we h) st d0 d1, ?_⟩
  rw [← getPart_startEntry w]
  exact getPart_modPart_same (modPart_wf w)

/-- Such an entry has started, and has ended with its status. -/
theorem cur_ended_started (w : mwf {} q.eng = true) (st d0 d1 : Nat) :
    (getEng (entryEnded st d0 d1 (entryStarted q)) 0).cur.started = true ∧
      (getEng (entryEnded st d0 d1 (entryStarted q)) 0).cur.ended = some (st, d0, d1) := by
  rw [getEng_entryEnded st d0 d1 (entryStarted_wf w), getEng_entryStarted w]
  exact ⟨rfl, rfl⟩

/-- The entry of another engine that ends leaves an engine as it is. -/
theorem getEng_endEntry_ne {j : Nat} (w : mwf {} s.parts = true) (we : mwf {} (getPart s p).eng = true) (hj : j ≠ k)
    (st d0 d1 : Nat) : getEng (getPart (endEntry p k st d0 d1 s) p) j = getEng (getPart s p) j := by
  have hcur : getEng (getPart (modCur p k (fun c => { c with ended := some (st, d0, d1) }) s) p) j =
      getEng (getPart s p) j := by
    rw [modCur, modEngine, getPart_modPart_same w, getEng, modEng, mget_mmod_ne we hj, getEng]
  unfold endEntry
  split
  · rfl
  · dsimp only
    split <;> exact hcur

/-- The forced path leaves the Array engine as it is. -/
theorem getEng_forcePath (m : SwitchKind) (w : mwf {} s.parts = true) (we : mwf {} (getPart s p).eng = true) :
    getEng (getPart (forcePath p m s) p) 0 = getEng (getPart s p) 0 := by
  have wv : mwf {} (startWave s p).parts = true := modPart_wf w
  have hwave : getPart (startWave s p) p = { getPart s p with wave := some s.cycle } := getPart_modPart_same w
  have habort : getEng (getPart (abortTiles p (startWave s p)) p) 0 = getEng (getPart (startWave s p) p) 0 := by
    unfold abortTiles
    split
    · split
      · exact getEng_endEntry_ne wv (by rw [hwave]; exact we) (by decide) ..
      · rfl
    · rfl
  rw [forcePath_abortTiles, getPart_modPart_same (getPart_abortTiles wv).1]
  exact habort.trans (by rw [hwave]; rfl)

/-- A switch takes the forced path: the halt wave starts and issue stops. -/
theorem forcePath_spec (m : SwitchKind) (w : mwf {} s.parts = true) (we : mwf {} (getPart s p).eng = true) :
    let s' := forcePath p m s
    let r := getPart s' p
    r.st = .halted ∧ r.wave = some s.cycle ∧ r.suspended = true ∧ r.sw = some ⟨m, .inflight⟩ ∧
      r.replay = (getPart s p).replay ∧ r.epoch = (getPart s p).epoch ∧ getEng r 0 = getEng (getPart s p) 0 ∧
      s'.tiles = s.tiles ∧ s'.stk = s.stk ∧ s'.cycle = s.cycle := by
  intro s' r
  obtain ⟨ps, a, hs'⟩ : ∃ ps a, s' = { s with parts := ps, asked := a } := forcePath_eq m s
  obtain ⟨g, hr⟩ : ∃ g, r = forcedPart m s.cycle g (getPart s p) := getPart_forcePath m w
  have heng : getEng r 0 = getEng (getPart s p) 0 := getEng_forcePath m w we
  rw [heng, hr, hs']
  exact ⟨rfl, rfl, rfl, rfl, rfl, rfl, rfl, rfl, rfl, rfl⟩

/-! ### The replay log (R274) -/

/-- The loads of a replay log once a load has joined it, while it has room. -/
def loggedLoads (o : LoadOpts) (l : List LoadOpts) : List LoadOpts := if 63 ≤ l.length then l else l ++ [o]

theorem logLoad_eq (o : LoadOpts) (q : Partition) :
    ∃ b, logLoad o q = { q with replay := loggedLoads o q.replay, replayLost := b } := by
  unfold logLoad loggedLoads
  split <;> exact ⟨_, rfl⟩

/-! ### The defect map before a load into an IDLE partition (R301, R311, R317) -/

/-- The defect map, the die columns out of service and what Sage keeps are all that changes. -/
def MapAndSage (s s' : State) : Prop := ∃ d b g, s' = { s with defects := d, boot := b, sage := g }

theorem MapAndSage.refl (s : State) : MapAndSage s s := ⟨s.defects, s.boot, s.sage, rfl⟩

theorem MapAndSage.trans {s' s'' : State} (h : MapAndSage s s') (h' : MapAndSage s' s'') : MapAndSage s s'' := by
  obtain ⟨d, b, g, rfl⟩ := h
  obtain ⟨d', b', g', rfl⟩ := h'
  exact ⟨d', b', g', rfl⟩

theorem mapAndSage_setDefects (ds : List DefectRec) (s : State) : MapAndSage s (setDefects ds s) := by
  unfold setDefects
  split <;> exact ⟨_, _, _, rfl⟩

theorem mapAndSage_fieldDefect (d : DefectRec) (s : State) : MapAndSage s (fieldDefect d s) := by
  unfold fieldDefect addDefect
  extract_lets g bar
  have hsage : MapAndSage s { s with sage := { g with returned := g.returned.filter (fun a => a != d), barred := bar } } :=
    ⟨_, _, _, rfl⟩
  split
  · exact hsage
  · exact hsage.trans (mapAndSage_setDefects ..)

theorem mapAndSage_retireColumn (n c : Nat) (s : State) : MapAndSage s (retireColumn n c s) := by
  unfold retireColumn
  extract_lets d u out
  split
  · exact ⟨_, _, _, rfl⟩
  · have hu : MapAndSage s u :=
      (show MapAndSage s (addHistory (.retirement n c) s) from ⟨_, _, _, rfl⟩).trans
        ((mapAndSage_fieldDefect d _).trans ⟨_, _, _, rfl⟩)
    exact hu.trans ⟨_, _, _, rfl⟩

theorem mapAndSage_deadTile (n c a : Nat) (s : State) : MapAndSage s (deadTile n c a s) := by
  unfold deadTile
  extract_lets u
  have hu : MapAndSage s u := mapAndSage_fieldDefect ..
  split
  · exact hu.trans (mapAndSage_retireColumn ..)
  · exact hu

theorem mapAndSage_refreshMap (p : Nat) (s : State) : MapAndSage s (refreshMap p s) := by
  unfold refreshMap
  extract_lets q back u g v
  have hu : MapAndSage s u := mapAndSage_setDefects ..
  have hv : MapAndSage u v := ⟨u.defects, u.boot, v.sage, rfl⟩
  exact List.foldlRecOn (suspectRecs v p) _ (hu.trans hv) fun _ h _ _ => h.trans (mapAndSage_deadTile ..)

theorem checkPlacement_eq (p : Nat) (o : LoadOpts) (s : State) :
    ∃ v g, checkPlacement p o s = modPart { s with sage := g } p fun q => { q with lastPlace := v } := by
  unfold checkPlacement
  extract_lets q prog now u
  refine ⟨some (prog, now), u.sage, ?_⟩
  have hu : u = { s with sage := u.sage } := by
    unfold u
    split
    · split <;> rfl
    · rfl
  rw [← hu]

/-! ### A load into an IDLE partition (R259, R269, R314) -/

/-- A partition in which a load into it while it was IDLE has begun. -/
def loadBegun (o : LoadOpts) (q : Partition) : Partition :=
  { startJob (logLoad o q) with suspended := true, endSeen := none, gap := false, bunits := 0 }

/-- The device with that partition: the defect map is refreshed and the placement compared. -/
def idleBegun (p : Nat) (o : LoadOpts) (s : State) : State := modPart (checkPlacement p o (refreshMap p s)) p (loadBegun o)

theorem idleLoad_begun (p : Nat) (o : LoadOpts) (s : State) : idleLoad p o s =
    if o.ckpt ∨ testWaits (getPart (idleBegun p o s) p) then
      beginCapture p (modPart (idleBegun p o s) p fun q => { q with sw := some { kind := .load o, phase := .capture } })
    else beginImage p (.load o) (idleBegun p o s) := rfl

/-- What of a partition has changed once a load into it has begun. -/
structure Begun (o : LoadOpts) (q r : Partition) : Prop where
  suspended : r.suspended = true
  replay : r.replay = loggedLoads o q.replay
  tickets : r.tickets = q.tickets
  eng : r.eng = q.eng

theorem idleBegun_frame (p : Nat) (o : LoadOpts) (s : State) :
    (idleBegun p o s).tiles = s.tiles ∧ (idleBegun p o s).stk = s.stk ∧ (idleBegun p o s).cycle = s.cycle := by
  obtain ⟨d, b, g, hmap⟩ := mapAndSage_refreshMap p s
  obtain ⟨v, g', hplace⟩ := checkPlacement_eq p o (refreshMap p s)
  rw [idleBegun, hplace, hmap]
  exact ⟨rfl, rfl, rfl⟩

theorem idleBegun_spec (w : mwf {} s.parts = true) :
    mwf {} (idleBegun p o s).parts = true ∧ Begun o (getPart s p) (getPart (idleBegun p o s) p) ∧
      (getPart (idleBegun p o s) p).epoch = (getPart s p).epoch := by
  obtain ⟨d, b, g, hmap⟩ := mapAndSage_refreshMap p s
  obtain ⟨v, g', hplace⟩ := checkPlacement_eq p o (refreshMap p s)
  have wp : mwf {} (checkPlacement p o (refreshMap p s)).parts = true := by
    rw [hplace, hmap]
    exact modPart_wf w
  have hq : getPart (checkPlacement p o (refreshMap p s)) p = { getPart s p with lastPlace := v } := by
    rw [hplace, hmap]
    exact getPart_modPart_same (s := { s with defects := d, boot := b, sage := g' }) w
  obtain ⟨lost, hlog⟩ := logLoad_eq o { getPart s p with lastPlace := v }
  refine ⟨modPart_wf wp, ?_⟩
  rw [idleBegun, getPart_modPart_same wp, hq, loadBegun, hlog]
  exact ⟨⟨rfl, rfl, rfl, rfl⟩, rfl⟩

theorem stackSide_clearValid (n b : Nat) (s : State) : StackSide s (clearValid n b s) := by
  unfold clearValid putChunk
  exact (stackSide_serveWrite ..).1.trans (writeChunk_spec ..).1

/-- A capture begins: stack memory and its spines change, and the partition's state and phase. -/
theorem beginCapture_spec (w : mwf {} s.parts = true) : (beginCapture p s).cycle = s.cycle ∧
    getPart (beginCapture p s) p = { getPart s p with
      st := .checkpointing, sw := (getPart s p).sw.map fun w => { w with phase := .capture } } := by
  unfold beginCapture
  extract_lets b u
  have hu : StackSide s u := List.foldlRecOn _ _ (StackSide.refl s) fun _ h _ _ => h.trans (stackSide_clearValid ..)
  rw [getPart_modPart_same (hu.parts ▸ w), getPart, hu.parts]
  exact ⟨hu.cycle, rfl⟩

/-! ### The image of a load begins to be read (R249, R262) -/

theorem overTiles_eq (ts : List (Nat × Nat)) (f : Nat → Nat → Tile → Tile) (s : State) :
    ∃ m, overTiles s ts f = { s with tiles := m } := foldl_tiles (fun _ _ => ⟨_, rfl⟩) ts s

/-- What a change makes of every tile, it makes of each tile of the list. -/
theorem getTile_overTiles_of_forall {P : Tile → Prop} {f : Nat → Nat → Tile → Tile} (hf : ∀ x y t, P (f x y t))
    {x y : Nat} :
    ∀ (ts : List (Nat × Nat)) {s : State}, mwf {} s.tiles = true → (x, y) ∈ ts ∨ P (getTile s x y) →
      P (getTile (overTiles s ts f) x y)
  | [], _, _, h => h.resolve_left List.not_mem_nil
  | (a, b) :: ts, s, w, h => by
    refine getTile_overTiles_of_forall hf ts (s := modTile s a b (f a b)) (modTile_wf a b _ w) ?_
    by_cases hkey : tileKey x y = tileKey a b
    · have hsame : getTile (modTile s a b (f a b)) x y = f a b (getTile s a b) := by
        rw [getTile, hkey]
        exact getTile_modTile a b (f a b) w
      exact .inr (hsame ▸ hf a b _)
    · rw [getTile_modTile_ne _ w hkey]
      refine h.imp_left fun hmem => (List.mem_cons.mp hmem).resolve_left fun heq => hkey ?_
      rw [(Prod.mk.inj heq).1, (Prod.mk.inj heq).2]

theorem beginImage_eq (p : Nat) (m : SwitchKind) (s : State) :
    ∃ ts ps, beginImage p m s = { s with tiles := ts, parts := ps } := by
  unfold beginImage
  extract_lets e u
  obtain ⟨ts, hu⟩ : ∃ ts, u = { s with tiles := ts } := overTiles_eq ..
  exact ⟨ts, _, by rw [hu]; rfl⟩

theorem beginImage_frame (p : Nat) (m : SwitchKind) (s : State) :
    (beginImage p m s).stk = s.stk ∧ (beginImage p m s).cycle = s.cycle := by
  obtain ⟨ts, ps, h⟩ := beginImage_eq p m s
  rw [h]
  exact ⟨rfl, rfl⟩

/-- A partition that loads, in its next epoch. -/
def imageBegun (m : SwitchKind) (q : Partition) : Partition :=
  { q with
    epoch := q.epoch + 1, st := .loading, sw := some { kind := m, phase := .image }, stallMap := [], mapping := false }

theorem getPart_beginImage (m : SwitchKind) (w : mwf {} s.parts = true) :
    getPart (beginImage p m s) p = imageBegun m (getPart s p) := by
  unfold beginImage
  extract_lets e u
  obtain ⟨ts, hu⟩ : ∃ ts, u = { s with tiles := ts } := overTiles_eq ..
  rw [hu]
  exact getPart_modPart_same (s := { s with tiles := ts }) w

/-- Every tile of the band is in the partition's next epoch. -/
theorem epoch_beginImage (m : SwitchKind) (w : mwf {} s.parts = true) (wt : mwf {} s.tiles = true) :
    ∀ xy ∈ bandTiles (beginImage p m s) p,
      (getTile (beginImage p m s) xy.1 xy.2).tab.epoch = (getPart s p).epoch + 1 := by
  intro xy hmem
  have hband : bandTiles (beginImage p m s) p = bandTiles s p := by
    obtain ⟨ts, ps, h⟩ := beginImage_eq p m s
    have hdies : bandDies (getPart (beginImage p m s) p) = bandDies (getPart s p) := by
      rw [getPart_beginImage m w]
      rfl
    rw [bandTiles, hdies, h]
    rfl
  rw [hband] at hmem
  exact getTile_overTiles_of_forall (P := fun t => t.tab.epoch = (getPart s p).epoch + 1) (fun _ _ _ => rfl) _ wt
    (.inl hmem)

/-! ### The two ways of a load into an IDLE partition -/

theorem testWaits_idleBegun (w : mwf {} s.parts = true) :
    testWaits (getPart (idleBegun p o s) p) = testWaits (getPart s p) := by
  obtain ⟨-, hbegun, -⟩ := idleBegun_spec (p := p) (o := o) w
  rw [testWaits, hbegun.tickets, testWaits]

/-- Under CKPT, or for a test that waits, a checkpoint is captured first. -/
theorem idleLoad_captures (w : mwf {} s.parts = true) (h : o.ckpt = true ∨ testWaits (getPart s p) = true) :
    let s' := idleLoad p o s
    let r := getPart s' p
    Begun o (getPart s p) r ∧ r.st = .checkpointing ∧ r.epoch = (getPart s p).epoch ∧
      r.sw = some ⟨.load o, .capture⟩ ∧ s'.cycle = s.cycle := by
  obtain ⟨wb, hbegun, hepoch⟩ := idleBegun_spec (p := p) (o := o) w
  obtain ⟨-, -, hcycle⟩ := idleBegun_frame p o s
  let capturing (q : Partition) : Partition := { q with sw := some { kind := .load o, phase := .capture } }
  obtain ⟨hclock, hpart⟩ := beginCapture_spec (p := p) (modPart_wf (p := p) (f := capturing) wb)
  rw [getPart_modPart_same wb] at hpart
  rw [idleLoad_begun, testWaits_idleBegun w, if_pos h]
  intro s' r
  rw [show r = _ from hpart]
  exact ⟨⟨hbegun.suspended, hbegun.replay, hbegun.tickets, hbegun.eng⟩, rfl, hepoch, rfl, hclock.trans hcycle⟩

/-- Else the image begins to be read in the next epoch. -/
theorem idleLoad_loads (w : mwf {} s.parts = true) (h : ¬ (o.ckpt = true ∨ testWaits (getPart s p) = true)) :
    let s' := idleLoad p o s
    let r := getPart s' p
    Begun o (getPart s p) r ∧ r.st = .loading ∧ r.epoch = (getPart s p).epoch + 1 ∧ r.sw = some ⟨.load o, .image⟩ ∧
      s'.stk = s.stk ∧ s'.cycle = s.cycle ∧
      (mwf {} s.tiles = true → ∀ xy ∈ bandTiles s' p, (getTile s' xy.1 xy.2).tab.epoch = (getPart s p).epoch + 1) := by
  obtain ⟨wb, hbegun, hepoch⟩ := idleBegun_spec (p := p) (o := o) w
  obtain ⟨htiles, hstk, hcycle⟩ := idleBegun_frame p o s
  have hband := epoch_beginImage (p := p) (.load o) wb
  rw [hepoch, htiles] at hband
  rw [idleLoad_begun, testWaits_idleBegun w, if_neg h]
  obtain ⟨hstk', hcycle'⟩ := beginImage_frame p (.load o) (idleBegun p o s)
  intro s' r
  rw [show r = _ from getPart_beginImage (.load o) wb]
  unfold s'
  exact ⟨⟨hbegun.suspended, hbegun.replay, hbegun.tickets, hbegun.eng⟩, rfl, congrArg (· + 1) hepoch, rfl, hstk'.trans hstk,
    hcycle'.trans hcycle, hband⟩

/-! ### The commands -/

/-- A partition with a switch that waits for the end of its section. -/
def switchWaits (m : SwitchKind) (q : Partition) : Partition := { q with sw := some { kind := m, phase := .ended } }

variable {i : Fin 4} {l : CmdList} {e : Unit512} {c : Entry}

theorem exec_load (h : entryOf s i.val 0 0x01 false = some (l, e, c)) (hfree : arrayFree (getPart s i.val) = true) :
    exec (.load i) s = .next (
      if (getPart s i.val).hot then endEntry i.val 0 (stateStatus (getPart s i.val)) 0 0 (startEntry i.val 0 s)
      else if (getPart s i.val).st = .idle then idleLoad i.val (loadOpts e) (startEntry i.val 0 s)
      else if (loadOpts e).force then
        forcePath i.val (.load (loadOpts e)) (modPart (startEntry i.val 0 s) i.val (logLoad (loadOpts e)))
      else if (getPart s i.val).st = .running then
        modPart (startEntry i.val 0 s) i.val (switchWaits (.load (loadOpts e)))
      else endEntry i.val 0 (stateStatus (getPart s i.val)) 0 0 (startEntry i.val 0 s)) := by
  show execLoad i s = _
  unfold execLoad
  simp only [h, hfree, if_true]
  cases (getPart s i.val).hot
  · cases (getPart s i.val).st <;> cases (loadOpts e).force <;> rfl
  · rfl

theorem exec_restore (h : entryOf s i.val 0 0x02 false = some (l, e, c)) (hfree : arrayFree (getPart s i.val) = true) :
    exec (.restore i) s = .next (
      if (getPart s i.val).hot then endEntry i.val 0 (stateStatus (getPart s i.val)) 0 0 (startEntry i.val 0 s)
      else forcePath i.val (.restore false) (startEntry i.val 0 s)) := by
  show execRestore i s = _
  unfold execRestore
  simp only [h, hfree, if_true]
  cases (getPart s i.val).hot <;> rfl

theorem exec_finish (h : entryOf s i.val 0 0x03 false = some (l, e, c)) (hfree : arrayFree (getPart s i.val) = true) :
    exec (.finish i) s = .next (
      if (getPart s i.val).st = .idle then endEntry i.val 0 0 0 0 (startEntry i.val 0 s)
      else if (getPart s i.val).st = .running then
        modPart (startEntry i.val 0 s) i.val (switchWaits (.finish (enStats e)))
      else endEntry i.val 0 (stateStatus (getPart s i.val)) 0 0 (startEntry i.val 0 s)) := by
  show execFinish i s = _
  unfold execFinish
  simp only [h, hfree, if_true]
  cases (getPart s i.val).st <;> rfl

end Sys2Proof.Machine

open Sys2Proof Sys2Proof.Machine

/-- Settles O39: an entry starts, and then ends at once (endEntry_startEntry), waits, begins a load into an IDLE partition
(idleLoad_captures, idleLoad_loads) or takes the forced path (forcePath_spec). -/
theorem sectionEntries : Obligations.SectionEntries := by
  intro s p l e c w we hfree q o ends logged refused forced
  have hsw : q.sw = none := arrayFree_sw hfree
  have w1 : mwf {} (startEntry p.val 0 s).parts = true := modPart_wf w
  have hq1 : getPart (startEntry p.val 0 s) p.val = entryStarted q := getPart_startEntry w
  have hstarted : (getEng (entryStarted q) 0).cur.started = true := by rw [getEng_entryStarted we]
  have hstopped : q.st = .halted ∨ q.st = .faulted → q.st ≠ .idle ∧ q.st ≠ .running := by
    rintro (hst | hst) <;> rw [hst] <;> decide
  have hended : ∀ {op x st} {i : Instr}, entryOf s p.val 0 op false = some x →
      exec i s = .next (endEntry p.val 0 st 0 0 (startEntry p.val 0 s)) → ends i fun s' r => r.st = q.st ∧ r.sw = none ∧
        r.replay = q.replay ∧ (getEng r 0).cur.ended = some (st, 0, 0) ∧ s'.tiles = s.tiles ∧ s'.stk = s.stk := by
    intro op x st i h hexec
    obtain ⟨ps, hps, hpart⟩ := endEntry_startEntry w we (isSome_openEntry_of_entryOf h) st 0 0
    obtain ⟨hs, he⟩ := cur_ended_started we st 0 0
    rw [hps] at hexec
    refine ⟨_, hexec, ?_⟩
    rw [hpart]
    exact ⟨⟨rfl, hsw, rfl, he, rfl, rfl⟩, hs, rfl⟩
  have hwaits : ∀ {m : SwitchKind} {i : Instr}, exec i s = .next (modPart (startEntry p.val 0 s) p.val (switchWaits m)) →
      ends i fun s' r => r = switchWaits m (entryStarted q) ∧ s'.tiles = s.tiles ∧ s'.stk = s.stk := by
    intro m i hexec
    have hpart : getPart (modPart (startEntry p.val 0 s) p.val (switchWaits m)) p.val = switchWaits m (entryStarted q) := by
      rw [getPart_modPart_same w1, hq1]
    refine ⟨_, hexec, ⟨hpart, rfl, rfl⟩, ?_, rfl⟩
    rw [hpart]
    exact hstarted
  have hforced : ∀ {m : SwitchKind} {i : Instr} {ps : SMap Partition} {log : List LoadOpts} {b : Bool},
      mwf {} ps = true → getPart { s with parts := ps } p.val = { entryStarted q with replay := log, replayLost := b } →
      exec i s = .next (forcePath p.val m { s with parts := ps }) → forced i m log := by
    intro m i ps log b wps hps hexec
    obtain ⟨hst, hwave, hsus, hm, hlog, hepoch, heng, htiles, hstk, hcycle⟩ :=
      forcePath_spec (s := { s with parts := ps }) (p := p.val) m wps (by rw [hps]; exact entryStarted_wf we)
    rw [hps] at hlog hepoch heng
    exact ⟨_, hexec, ⟨hst, hwave, hsus, hm, hlog, hepoch, htiles, hstk⟩, by rw [heng]; exact hstarted, hcycle⟩
  refine ⟨fun h => ?load, fun h => ?restore, fun h => ?finish⟩
  case load =>
    have hexec := exec_load h hfree
    refine ⟨fun hhot => ?hot, fun hhot => ?idle, fun hhot hst hforce => ?running, fun hhot hst hforce => ?forced,
      fun hhot hst hforce => ?stopped⟩
    case hot =>
      rw [if_pos hhot] at hexec
      exact hended h hexec
    all_goals rw [if_neg (Bool.eq_false_iff.mp hhot)] at hexec
    case idle =>
      intro hst
      rw [if_pos hst] at hexec
      have hcur : ∀ {r}, Begun o (getPart (startEntry p.val 0 s) p.val) r → (getEng r 0).cur.started = true := fun hb => by
        rw [getEng, hb.eng, hq1]
        exact hstarted
      have htests : testWaits (getPart (startEntry p.val 0 s) p.val) = testWaits q := by rw [hq1]; rfl
      by_cases hck : o.ckpt = true ∨ testWaits q = true
      · obtain ⟨hb, hst', hepoch, hsw', hcycle⟩ := idleLoad_captures w1 (htests ▸ hck)
        have hcur := hcur hb
        rw [hq1] at hb hepoch
        exact ⟨_, hexec, ⟨hb.suspended, hb.replay, fun _ => ⟨hst', hepoch, hsw'⟩,
          fun hc ht => absurd hck (by simp [hc, ht])⟩, hcur, hcycle⟩
      · obtain ⟨hb, hst', hepoch, hsw', hstk, hcycle, hband⟩ := idleLoad_loads w1 (htests ▸ hck)
        have hcur := hcur hb
        rw [hq1] at hb hepoch hband
        exact ⟨_, hexec, ⟨hb.suspended, hb.replay, fun h => absurd h hck, fun _ _ => ⟨hst', hepoch, hsw', hstk, hband⟩⟩,
          hcur, hcycle⟩
    case running =>
      rw [if_neg (show q.st ≠ .idle by rw [hst]; decide), if_neg (Bool.eq_false_iff.mp hforce), if_pos hst] at hexec
      obtain ⟨s', hs', ⟨hr, hframe⟩, hrest⟩ := hwaits hexec
      refine ⟨s', hs', ?_, hrest⟩
      rw [hr]
      exact ⟨hst, rfl, rfl, rfl, hframe⟩
    case forced =>
      rw [if_neg hst, if_pos hforce] at hexec
      obtain ⟨b, hlog⟩ := logLoad_eq o (entryStarted q)
      exact hforced (modPart_wf w1) ((getPart_modPart_same w1).trans (by rw [hq1, hlog]; rfl)) hexec
    case stopped =>
      obtain ⟨hni, hnr⟩ := hstopped hst
      rw [if_neg hni, if_neg (Bool.eq_false_iff.mp hforce), if_neg hnr] at hexec
      exact hended h hexec
  case restore =>
    have hexec := exec_restore h hfree
    refine ⟨fun hhot => ?hot, fun hhot => ?forced⟩
    case hot =>
      rw [if_pos hhot] at hexec
      exact hended h hexec
    case forced =>
      rw [if_neg (Bool.eq_false_iff.mp hhot)] at hexec
      exact hforced w1 hq1 hexec
  case finish =>
    have hexec := exec_finish h hfree
    refine ⟨fun hst => ?running, fun hst => ?idle, fun hst => ?stopped⟩
    case running =>
      rw [if_neg (show q.st ≠ .idle by rw [hst]; decide), if_pos hst] at hexec
      obtain ⟨s', hs', ⟨hr, hframe⟩, hrest⟩ := hwaits hexec
      refine ⟨s', hs', ?_, hrest⟩
      rw [hr]
      exact ⟨hst, rfl, hframe⟩
    case idle =>
      rw [if_pos hst] at hexec
      obtain ⟨s', hs', ⟨hst', hsw', -, hrest⟩, hcur⟩ := hended h hexec
      exact ⟨s', hs', ⟨hst'.trans hst, hsw', hrest⟩, hcur⟩
    case stopped =>
      obtain ⟨hni, hnr⟩ := hstopped hst
      rw [if_neg hni, if_neg hnr] at hexec
      exact hended h hexec
end

/-! ## Images and release (R256, R258, R263, R274, R370) -/

section
namespace Sys2Proof.Machine

variable {s : State} {p c : Nat} {o : LoadOpts} {q : Partition} {i : Fin 4}

/-! ### The images are read (R228, R256, R258, R263, R370) -/

/-- What a load does to tiles and spines is all that changes. -/
def TilesAndSpines (s s' : State) : Prop := ∃ ts m, s' = { s with tiles := ts, spines := m }

theorem TilesAndSpines.refl (s : State) : TilesAndSpines s s := ⟨s.tiles, s.spines, rfl⟩

theorem TilesAndSpines.trans {s' s'' : State} (h : TilesAndSpines s s') (h' : TilesAndSpines s' s'') :
    TilesAndSpines s s'' := by
  obtain ⟨ts, m, rfl⟩ := h
  obtain ⟨ts', m', rfl⟩ := h'
  exact ⟨ts', m', rfl⟩

theorem tilesAndSpines_loadTiles (im : Img) (o : LoadOpts) (l : List (Nat × Nat)) (s : State) :
    TilesAndSpines s (loadTiles im o l s) := by
  obtain ⟨ts, h⟩ : ∃ ts, loadTiles im o l s = { s with tiles := ts } := foldl_tiles (fun _ _ => ⟨_, rfl⟩) l s
  exact ⟨ts, s.spines, h⟩

/-- The device once every die of a band has its image. -/
def imagesWritten (p : Nat) (o : LoadOpts) (s : State) : State :=
  (bandDies (getPart s p)).foldl (fun s n =>
    loadStreams (imgOf p o) n (loadTiles (imgOf p o) o (dieTiles s n) (noteImage n s))) (clearAsks p s)

theorem tilesAndSpines_imagesWritten (p : Nat) (o : LoadOpts) (s : State) : TilesAndSpines s (imagesWritten p o s) := by
  obtain ⟨m, hm⟩ := clearAsks_eq p s
  have hclear : TilesAndSpines s (clearAsks p s) := ⟨s.tiles, m, hm⟩
  refine List.foldlRecOn _ _ hclear fun u h n _ => ?_
  have hnote : TilesAndSpines u (noteImage n u) := ⟨u.tiles, (noteImage n u).spines, rfl⟩
  exact h.trans ((hnote.trans (tilesAndSpines_loadTiles ..)).trans ⟨_, _, rfl⟩)

/-- The refusals of the images of a load: die, reason, and the records that passed. -/
def loadFails (s : State) (p : Nat) (o : LoadOpts) : List (Nat × LoadFail × Nat) :=
  (bandDies (getPart s p)).filterMap fun n => (dieFail s (imgOf p o) n).map fun f => (n, f, passed s (imgOf p o) n)

theorem loadFails_eq_nil_iff : loadFails s p o = [] ↔ ∀ n ∈ bandDies (getPart s p), dieFail s (imgOf p o) n = none := by
  simp [loadFails, List.filterMap_eq_nil_iff]

/-- The release is broadcast: the switch waits for its cycle. -/
def Broadcast (o : LoadOpts) (at_ : Nat) (f : Partition → Partition) : Prop :=
  ∀ q, (f q).opts = some o ∧ (f q).sw = some ⟨.load o, .release at_⟩

/-- The cycle of the release of a load whose band begins with a die column. -/
def imageRelease (p : Nat) (o : LoadOpts) (lo : Nat) (s : State) : Nat :=
  releaseCycle s.cycle (dhRphase (dieHeader s (imgOf p o) (6 * lo)))

section
variable (hsw : (getPart s i.val).sw = some ⟨.load o, .image⟩) (hbusy : arrayBusy s i.val = false)
  (hruns : bandRuns s i.val = true)
include hsw hbusy hruns

theorem exec_imageLoadComplete_outside (hout : imageOutside s i.val o = true) :
    exec (.imageLoadComplete i) s = .next (refuseRange i.val o s) := by
  show execImageLoadComplete i s = _
  simp only [execImageLoadComplete, hsw, hbusy, hruns, imageOpts, switchOpts, hout, Bool.not_true, Bool.or_false,
    Bool.false_eq_true, if_false, if_true]

theorem exec_imageLoadComplete_refused (hin : imageOutside s i.val o = false) (hbad : loadFails s i.val o ≠ []) :
    exec (.imageLoadComplete i) s = .next (refuseLoad i.val o (loadFails s i.val o) s) := by
  show execImageLoadComplete i s = _
  simp only [execImageLoadComplete, hsw, hbusy, hruns, imageOpts, switchOpts, hin, Bool.not_true, Bool.or_false,
    Bool.false_eq_true, if_false]
  exact if_pos hbad

theorem exec_imageLoadComplete_loads (hin : imageOutside s i.val o = false) (hnone : loadFails s i.val o = []) :
    ∃ g f h, exec (.imageLoadComplete i) s =
      .next (modPart (modCur i.val 0 f { imagesWritten i.val o s with sage := g }) i.val h) ∧
      Broadcast o (imageRelease i.val o (getPart s i.val).lo (imagesWritten i.val o s)) h := by
  suffices h : ∃ g f h, execImageLoadComplete i s =
      .next (modPart (modCur i.val 0 f { imagesWritten i.val o s with sage := g }) i.val h) ∧
      Broadcast o (imageRelease i.val o (getPart s i.val).lo (imagesWritten i.val o s)) h from h
  unfold execImageLoadComplete
  extract_lets q dies written
  split
  case h_2 hk => exact absurd hsw (hk _)
  case h_1 k hk =>
    obtain rfl : k = .load o := by
      have := hk.symm.trans hsw
      simpa using this
    extract_lets o' im bad u h key stale v named at_
    have hv : v = { u with sage := v.sage } := by
      unfold v
      split <;> rfl
    have hcycle : named.cycle = u.cycle := show v.cycle = u.cycle by rw [hv]
    have hat : at_ = imageRelease i.val o (getPart s i.val).lo u := by
      unfold at_ imageRelease
      rw [hcycle]
      rfl
    have hrelease : (some ⟨.load o, .release at_⟩ : Option Switch) =
        some ⟨.load o, .release (imageRelease i.val o (getPart s i.val).lo u)⟩ := by rw [hat]
    rw [if_neg (by simp [hbusy, hruns]), if_neg (show ¬ imageOutside s i.val o' = true from Bool.eq_false_iff.mp hin),
      if_neg (show ¬ bad ≠ [] from not_not.mpr hnone)]
    exact ⟨v.sage, _, _, congrArg (fun v => Host.Outcome.next (modPart (modCur _ _ _ v) _ _)) hv,
      fun _ => ⟨rfl, hrelease⟩⟩
end

/-- A load that no die refuses goes on to its release. -/
theorem imageLoad_releases (w : mwf {} s.parts = true) (hsw : (getPart s i.val).sw = some ⟨.load o, .image⟩)
    (hbusy : arrayBusy s i.val = false) (hruns : bandRuns s i.val = true) (hin : imageOutside s i.val o = false)
    (hnone : loadFails s i.val o = []) : ∃ s', exec (.imageLoadComplete i) s = .next s' ∧
      (getPart s' i.val).sw = some ⟨.load o, .release (imageRelease i.val o (getPart s i.val).lo s)⟩ ∧
      (getPart s' i.val).opts = some o ∧ s'.cycle = s.cycle ∧ s'.stk = s.stk := by
  obtain ⟨g, f, h, hexec, hcast⟩ := exec_imageLoadComplete_loads hsw hbusy hruns hin hnone
  obtain ⟨ts, m, hu⟩ := tilesAndSpines_imagesWritten i.val o s
  rw [hu] at hexec hcast
  refine ⟨_, hexec, ?_, ?_, rfl, rfl⟩
  all_goals rw [getPart_modPart_same (by exact modPart_wf w)]
  · exact (hcast _).2
  · exact (hcast _).1

/-- The release is at least 512 cycles ahead, in the first cycle of the image's calendar phase. -/
theorem releaseCycle_spec (c phase : Nat) : c + 512 ≤ releaseCycle c phase ∧ releaseCycle c phase < c + 512 + 7040 ∧
    releaseCycle c phase % 7040 = phase % 7040 := by
  unfold releaseCycle
  omega

/-- A load whose image lies outside the store leaves the partition FAULTED. -/
theorem refuseRange_spec (w : mwf {} s.parts = true) :
    (getPart (refuseRange p o s) p).sw = none ∧ (getPart (refuseRange p o s) p).st = .faulted := by
  unfold refuseRange
  extract_lets at_ u
  obtain ⟨m, hu⟩ : ∃ m : SMap Spine, u = { s with spines := m } := foldl_spines (fun _ _ => ⟨_, rfl⟩) _ s
  obtain ⟨hst, hsw, -⟩ := failSwitch_spec (s := u) (p := p) (code := .stackRange) (st := .faulted) (hu ▸ w)
  exact ⟨hsw, hst⟩

/-- So does one that a die refuses. -/
theorem refuseLoad_spec (w : mwf {} s.parts = true) {bad : List (Nat × LoadFail × Nat)} (hbad : bad ≠ []) :
    (getPart (refuseLoad p o bad s) p).sw = none ∧ (getPart (refuseLoad p o bad s) p).st = .faulted := by
  have hlt : Config.firstRefusal (bad.map (·.1)) % bad.length < bad.length :=
    Nat.mod_lt _ (List.length_pos_of_ne_nil hbad)
  have hfail : ∀ {u : State} {g code}, TilesAndSpines s u → (getPart (failSwitch p code .faulted { u with sage := g }) p).sw =
      none ∧ (getPart (failSwitch p code .faulted { u with sage := g }) p).st = .faulted := by
    rintro _ g code ⟨ts, m, rfl⟩
    obtain ⟨hst, hsw, -⟩ := failSwitch_spec (s := { s with tiles := ts, spines := m, sage := g }) (p := p) (code := code)
      (st := .faulted) w
    exact ⟨hsw, hst⟩
  unfold refuseLoad
  rw [List.getElem?_eq_getElem hlt]
  generalize bad[Config.firstRefusal (bad.map (·.1)) % bad.length] = x
  obtain ⟨n, f, k⟩ := x
  dsimp -zeta only
  extract_lets im u
  have hu : TilesAndSpines s u :=
    List.foldlRecOn _ _ (TilesAndSpines.refl s) fun _ h _ _ => h.trans (tilesAndSpines_loadTiles ..)
  cases f with
  | poison a => exact hfail hu
  | refused reason ix cond tile => exact hfail hu

/-! ### Working tiles of a band -/

/-- A tile of a die column of the band, whose quadrant is not off, is a working tile. -/
theorem mem_workTiles {j k l : Nat} (hc : c < (getPart s p).hi + 1 - (getPart s p).lo) (hj : j < 6)
    (hk : k < colWidth s.grade s.defects ((getPart s p).lo + c)) (hl : l < 64)
    (hoff : tileOff s (gradeWidth s.grade * ((getPart s p).lo + c) + k) (64 * j + l) = false) :
    (gradeWidth s.grade * ((getPart s p).lo + c) + k, 64 * j + l) ∈ workTiles s p := by
  have hdie : dieNum ((getPart s p).lo + c) j ∈ bandDies (getPart s p) :=
    List.mem_flatMap.mpr ⟨c, List.mem_range.mpr hc, List.mem_map.mpr ⟨j, List.mem_range.mpr hj, rfl⟩⟩
  have hcol : dieNum ((getPart s p).lo + c) j / 6 = (getPart s p).lo + c := by unfold dieNum; omega
  have hrow : dieNum ((getPart s p).lo + c) j % 6 = j := by unfold dieNum; omega
  refine List.mem_filter.mpr ⟨List.mem_flatMap.mpr ⟨_, hdie, ?_⟩, by simp [hoff]⟩
  rw [dieTiles, hcol, hrow]
  exact List.mem_flatMap.mpr ⟨k, List.mem_range.mpr hk, List.mem_map.mpr ⟨l, List.mem_range.mpr hl, rfl⟩⟩

/-- The eight die columns of the device span 1,024 logical columns at most. -/
theorem x_lt_of_mem_workTiles (hhi : (getPart s p).hi < 8) {xy : Nat × Nat} (h : xy ∈ workTiles s p) : xy.1 < 1024 := by
  obtain ⟨n, hn, hxy⟩ := List.mem_flatMap.mp (List.mem_filter.mp h).1
  obtain ⟨c, hc, hn⟩ := List.mem_flatMap.mp hn
  obtain ⟨j, hj, rfl⟩ := List.mem_map.mp hn
  obtain ⟨k, hk, hxy⟩ := List.mem_flatMap.mp hxy
  obtain ⟨l, -, rfl⟩ := List.mem_map.mp hxy
  rw [List.mem_range] at hc hj hk
  have hcol : dieNum ((getPart s p).lo + c) j / 6 < 8 := by unfold dieNum; omega
  have hwidth : gradeWidth s.grade ≤ 128 := by cases s.grade <;> decide
  have hle : colWidth s.grade s.defects (dieNum ((getPart s p).lo + c) j / 6) ≤ gradeWidth s.grade := by
    unfold colWidth
    split <;> omega
  nlinarith

/-! ### The release of a band on the device (R19, R219, R263) -/

theorem releaseTile_loaded {spans : List (Nat × Nat)} {at_ : Nat} {t : Tile} (h : t.tab.st = .loaded) :
    releaseTile spans at_ t = { t with
      tab := { t.tab with st := .running, tc := 0, nextCore := tileStart spans at_ }
      mu := { t.mu with wUsed := 0, rUsed := 0 } } := if_pos h

/-- A tile is released once. -/
theorem releaseTile_releaseTile (spans : List (Nat × Nat)) (at_ : Nat) (t : Tile) :
    releaseTile spans at_ (releaseTile spans at_ t) = releaseTile spans at_ t := by
  by_cases h : t.tab.st = .loaded
  · rw [releaseTile_loaded h]
    rfl
  · have hsame : releaseTile spans at_ t = t := if_neg h
    rw [hsame, hsame]

/-- A change that takes effect once, over tiles of which none has another's key. -/
theorem getTile_overTiles {f : Nat → Nat → Tile → Tile} (hf : ∀ x y t, f x y (f x y t) = f x y t) {x y : Nat} :
    ∀ (ts : List (Nat × Nat)) {s : State}, mwf {} s.tiles = true →
      (∀ a ∈ ts, tileKey x y = tileKey a.1 a.2 → (x, y) = a) →
      getTile (overTiles s ts f) x y = if (x, y) ∈ ts then f x y (getTile s x y) else getTile s x y
  | [], _, _, _ => rfl
  | a :: ts, s, w, hkeys => by
    refine (getTile_overTiles hf ts (s := modTile s a.1 a.2 (f a.1 a.2)) (modTile_wf _ _ _ w)
      fun b hb => hkeys b (List.mem_cons_of_mem a hb)).trans ?_
    by_cases hkey : tileKey x y = tileKey a.1 a.2
    · obtain rfl := hkeys a List.mem_cons_self hkey
      rw [getTile_modTile x y _ w, hf, ite_self, if_pos List.mem_cons_self]
    · have hne : (x, y) ≠ a := fun h => hkey (h ▸ rfl)
      rw [getTile_modTile_ne _ w hkey]
      simp only [List.mem_cons, hne, false_or]

/-- The tiles of a band when its release takes effect. -/
def tilesReleased (p at_ : Nat) (s : State) : State :=
  overTiles (advanceTo s (max s.cycle at_)) (workTiles s p) fun x y =>
    releaseTile (spansOf s (tilePlace s x y).1 (tilePlace s x y).2) at_

theorem getTile_tilesReleased {at_ : Nat} (wt : mwf {} s.tiles = true) (hhi : (getPart s p).hi < 8) {xy : Nat × Nat}
    (h : xy ∈ workTiles s p) : getTile (tilesReleased p at_ s) xy.1 xy.2 =
      releaseTile (spansOf s (tilePlace s xy.1 xy.2).1 (tilePlace s xy.1 xy.2).2) at_ (getTile s xy.1 xy.2) := by
  have hkeys : ∀ a ∈ workTiles s p, tileKey xy.1 xy.2 = tileKey a.1 a.2 → (xy.1, xy.2) = a := fun a ha hkey =>
    Prod.ext_iff.mpr (tileKey_inj (x_lt_of_mem_workTiles hhi h) (x_lt_of_mem_workTiles hhi ha) hkey)
  exact (getTile_overTiles (fun _ _ => releaseTile_releaseTile _ at_) _ (s := advanceTo s (max s.cycle at_)) wt hkeys).trans
    (if_pos h)

/-- A partition that its release lets run. -/
def partReleased (at_ : Nat) (base : SMap Nat) (q : Partition) : Partition :=
  { q with st := .running, sw := none, suspended := false, released := at_, endSeen := none, gap := false, run := 0
           wrote := false, wave := none, spineBase := base }

/-- An entry under way names the section that has been loaded. -/
def sectionNamed (n : Nat) (c : Entry) : Entry := if c.started then { c with section_ := n } else c

/-- The entry that waited for the release completes. -/
def releaseDone (p at_ : Nat) (s : State) : State :=
  endStarted p 0 (getPart s p).epoch.toNat at_ (modCur p 0 (sectionNamed (getPart s p).section_.toNat) s)

/-- The streams of a band start so many cycles after its release. -/
def streamsTimed (p at_ : Nat) (s : State) : State :=
  (bandDies (getPart s p)).foldl (fun s n => modSpine s n fun sp =>
    { sp with streams := sp.streams.map fun (j, t) => (j, { t with start := t.start + at_ }) }) s

/-- The device when a release takes effect, but for the partition. -/
def bandReleased (p at_ : Nat) (s : State) : State := lifeBump lifeLoads 1 (streamsTimed p at_ (tilesReleased p at_ s))

theorem bandReleased_frame (p at_ : Nat) (s : State) : (bandReleased p at_ s).parts = s.parts ∧
    (bandReleased p at_ s).tiles = (tilesReleased p at_ s).tiles ∧ (bandReleased p at_ s).stk = s.stk ∧
    (bandReleased p at_ s).cycle = max s.cycle at_ := by
  obtain ⟨m, hm⟩ : ∃ m, streamsTimed p at_ (tilesReleased p at_ s) = { tilesReleased p at_ s with spines := m } :=
    foldl_spines (fun _ _ => ⟨_, rfl⟩) ..
  obtain ⟨ts, hts⟩ : ∃ ts, tilesReleased p at_ s = { advanceTo s (max s.cycle at_) with tiles := ts } := overTiles_eq ..
  rw [bandReleased, hm, hts]
  exact ⟨rfl, rfl, rfl, max_eq_right (le_max_left ..)⟩

theorem exec_release {at_ : Nat} (h : (getPart s i.val).sw = some ⟨.load o, .release at_⟩) :
    exec (.release i) s = .next (releaseDone i.val at_ (modPart (bandReleased i.val at_ s) i.val
      (partReleased at_ (spineCtrs (bandReleased i.val at_ s) i.val)))) := by
  show execRelease i s = _
  unfold execRelease
  rw [h]
  rfl

/-! ### The entry that waited for the release -/

theorem entryOf_started {op k : Nat} {x : CmdList × Unit512 × Entry} (h : entryOf s p k op true = some x) :
    (getEng (getPart s p) k).cur.started = true := by
  obtain ⟨hopen, hop⟩ := Option.filter_eq_some_iff.mp h
  unfold openEntry at hopen
  dsimp only at hopen
  split at hopen
  next =>
    obtain rfl := Option.some.inj hopen
    simp only [Bool.and_eq_true, beq_iff_eq] at hop
    exact hop.2
  next => exact absurd hopen (by simp)

theorem getPart_modCur_same {k : Nat} {f : Entry → Entry} (w : mwf {} s.parts = true) :
    getPart (modCur p k f s) p = modEng (getPart s p) k fun g => { g with cur := f g.cur } := getPart_modPart_same w

theorem sectionNamed_frame (n : Nat) (c : Entry) :
    (sectionNamed n c).started = c.started ∧ (sectionNamed n c).ended = c.ended := by
  unfold sectionNamed
  split <;> exact ⟨rfl, rfl⟩

/-- Nothing of the partition but its engines changes, and of the device nothing that is not a partition's or a read's. -/
theorem releaseDone_frame {at_ : Nat} (w : mwf {} s.parts = true) :
    (∃ g, getPart (releaseDone p at_ s) p = { getPart s p with eng := g }) ∧
      ∃ ps a, releaseDone p at_ s = { s with parts := ps, asked := a } := by
  unfold releaseDone endStarted
  split
  · obtain ⟨g, hg⟩ := (getPart_endEntry (p := p) (modPart_wf w) 0 0 (getPart s p).epoch.toNat at_).2 p
    obtain ⟨ps, a, heq⟩ := endEntry_eq (p := p) 0 0 (getPart s p).epoch.toNat at_
      (modCur p 0 (sectionNamed (getPart s p).section_.toNat) s)
    exact ⟨⟨g, by rw [modCur, modEngine, hg, ← modEngine, ← modCur, getPart_modCur_same w]; rfl⟩, ps, a, by rw [heq]; rfl⟩
  · exact ⟨⟨_, getPart_modCur_same w⟩, _, _, rfl⟩

/-- An entry under way completes with the epoch and the cycle of the release. -/
theorem releaseDone_ended {at_ : Nat} (w : mwf {} s.parts = true) (we : mwf {} (getPart s p).eng = true)
    (h : (openEntry s p 0).isSome = true) (hs : (getEng (getPart s p) 0).cur.started = true) :
    (getEng (getPart (releaseDone p at_ s) p) 0).cur.ended = some (0, (getPart s p).epoch.toNat, at_) := by
  have heng : ∀ f, getEng (getPart (modCur p 0 f s) p) 0 =
      { getEng (getPart s p) 0 with cur := f (getEng (getPart s p) 0).cur } := fun f => by
    rw [getPart_modCur_same w, getEng_modEng we]
  obtain ⟨hstarted, hended⟩ := sectionNamed_frame (getPart s p).section_.toNat (getEng (getPart s p) 0).cur
  rw [isSome_openEntry_iff] at h
  unfold releaseDone endStarted
  rw [if_pos (by rw [heng]; exact hstarted.trans hs),
    endEntry_array (isSome_openEntry_iff.mpr (by rw [heng]; exact ⟨h.1, hended.trans h.2⟩)),
    getPart_modPart_same (by exact modPart_wf w), getEng_entryEnded _ _ _ (by rw [getPart_modCur_same w]; exact modEng_wf we)]

/-! ### What a release does -/

/-- A band of die columns of the device is released: its LOADED tiles run, issue resumes, and the entry completes. -/
theorem release_onDevice {at_ : Nat} (w : mwf {} s.parts = true) (wt : mwf {} s.tiles = true)
    (hhi : (getPart s i.val).hi < 8) (hsw : (getPart s i.val).sw = some ⟨.load o, .release at_⟩) :
    ∃ s', exec (.release i) s = .next s' ∧ s'.cycle = max s.cycle at_ ∧ (getPart s' i.val).st = .running ∧
      (getPart s' i.val).sw = none ∧ (getPart s' i.val).suspended = false ∧ (getPart s' i.val).released = at_ ∧
      (∀ xy ∈ workTiles s i.val, getTile s' xy.1 xy.2 =
        releaseTile (spansOf s (tilePlace s xy.1 xy.2).1 (tilePlace s xy.1 xy.2).2) at_ (getTile s xy.1 xy.2)) ∧
      ((entryOf s i.val 0 0x01 true).isSome = true → mwf {} (getPart s i.val).eng = true →
        (getEng (getPart s' i.val) 0).cur.ended = some (0, (getPart s i.val).epoch.toNat, at_)) ∧ s'.stk = s.stk := by
  obtain ⟨hparts, htiles, hstk, hcycle⟩ := bandReleased_frame i.val at_ s
  have hexec := exec_release hsw
  generalize bandReleased i.val at_ s = v at hparts htiles hstk hcycle hexec
  have wv : mwf {} v.parts = true := hparts ▸ w
  have hv : getPart v i.val = getPart s i.val := by rw [getPart, hparts, getPart]
  generalize spineCtrs v i.val = base at hexec
  have wm : mwf {} (modPart v i.val (partReleased at_ base)).parts = true := modPart_wf wv
  have hpart : getPart (modPart v i.val (partReleased at_ base)) i.val = partReleased at_ base (getPart s i.val) := by
    rw [getPart_modPart_same wv, hv]
  obtain ⟨⟨g, hg⟩, ps, a, hs'⟩ := releaseDone_frame (p := i.val) (at_ := at_) wm
  have hended : (entryOf s i.val 0 0x01 true).isSome = true → mwf {} (getPart s i.val).eng = true →
      (getEng (getPart (releaseDone i.val at_ (modPart v i.val (partReleased at_ base))) i.val) 0).cur.ended =
        some (0, (getPart s i.val).epoch.toNat, at_) := by
    intro hentry we
    obtain ⟨x, hx⟩ := Option.isSome_iff_exists.mp hentry
    have hopen := isSome_openEntry_iff.mp (isSome_openEntry_of_entryOf hx)
    have h := releaseDone_ended (p := i.val) (at_ := at_) wm (by rw [hpart]; exact we)
      (isSome_openEntry_iff.mpr (by rw [hpart]; exact hopen)) (by rw [hpart]; exact entryOf_started hx)
    rw [h, hpart]
    rfl
  rw [hpart] at hg
  refine ⟨_, hexec, ?_⟩
  rw [hg] at hended ⊢
  rw [hs']
  refine ⟨hcycle, rfl, rfl, rfl, rfl, fun xy hxy => ?_, hended, hstk⟩
  rw [← getTile_tilesReleased wt hhi hxy, getTile, getTile, ← htiles]
  rfl

/-- A logged load waits for the end of the section that runs. -/
theorem exec_replayNextLoad {rest : List LoadOpts} (hrest : (getPart s i.val).replaying = o :: rest)
    (hst : (getPart s i.val).st = .running) (hsw : (getPart s i.val).sw = none) : exec (.replayNextLoad i) s = .next
      (modPart s i.val fun q => { q with replaying := rest, sw := some { kind := .replay o, phase := .ended } }) := by
  show execReplayNextLoad i s = _
  simp only [execReplayNextLoad, hrest]
  exact if_pos ⟨hst, hsw⟩

/-- What is asked of images and releases holds of every band of die columns that the device has. -/
theorem imagesAndRelease_onDevice (s : State) (p : Fin 4) (o : LoadOpts) (w : mwf {} s.parts = true)
    (hhi : (getPart s p.val).hi < 8) :
    let q := getPart s p.val
    let i := imgOf p.val o
    (q.sw = some ⟨.load o, .image⟩ → arrayBusy s p.val = false → bandRuns s p.val = true → imageOutside s p.val o = false →
      (∀ n ∈ bandDies q, dieFail s i n = none) →
      ∃ s' at_, exec (.imageLoadComplete p) s = .next s' ∧ (getPart s' p.val).sw = some ⟨.load o, .release at_⟩ ∧
        s.cycle + 512 ≤ at_ ∧ at_ < s.cycle + 512 + 7040 ∧
        at_ % 7040 = dhRphase (dieHeader s i (6 * q.lo)) % 7040 ∧ (getPart s' p.val).opts = some o ∧ s'.cycle = s.cycle ∧
        s'.stk = s.stk) ∧
    (q.sw = some ⟨.load o, .image⟩ → arrayBusy s p.val = false → bandRuns s p.val = true →
      imageOutside s p.val o = true ∨ (∃ n ∈ bandDies q, dieFail s i n ≠ none) →
      ∃ s', exec (.imageLoadComplete p) s = .next s' ∧ (getPart s' p.val).sw = none ∧ (getPart s' p.val).st = .faulted) ∧
    (∀ at_, q.sw = some ⟨.load o, .release at_⟩ → mwf {} s.tiles = true → ∃ s', exec (.release p) s = .next s' ∧
      s'.cycle = max s.cycle at_ ∧ (getPart s' p.val).st = .running ∧ (getPart s' p.val).sw = none ∧
      (getPart s' p.val).suspended = false ∧ (getPart s' p.val).released = at_ ∧
      (∀ xy ∈ workTiles s p.val, (getTile s xy.1 xy.2).tab.st = .loaded →
        (getTile s' xy.1 xy.2).tab.st = .running ∧ (getTile s' xy.1 xy.2).tab.tc = 0 ∧
        (getTile s' xy.1 xy.2).tab.nextCore =
          tileStart (spansOf s (tilePlace s xy.1 xy.2).1 (tilePlace s xy.1 xy.2).2) at_ ∧
        (getTile s' xy.1 xy.2).tab.mem = (getTile s xy.1 xy.2).tab.mem) ∧
      ((entryOf s p.val 0 0x01 true).isSome = true → mwf {} q.eng = true →
        (getEng (getPart s' p.val) 0).cur.ended = some (0, q.epoch.toNat, at_)) ∧ s'.stk = s.stk) ∧
    (∀ rest, q.replaying = o :: rest → q.st = .running → q.sw = none → exec (.replayNextLoad p) s = .next
      (modPart s p.val fun q => { q with replaying := rest, sw := some { kind := .replay o, phase := .ended } })) := by
  intro q i
  refine ⟨fun hsw hbusy hruns hin hnone => ?loads, fun hsw hbusy hruns hbad => ?refused, fun at_ hsw wt => ?release,
    fun rest hrest hst hsw => ?replay⟩
  case loads =>
    obtain ⟨s', hexec, hsw', hopts, hcycle, hstk⟩ :=
      imageLoad_releases w hsw hbusy hruns hin (loadFails_eq_nil_iff.mpr hnone)
    obtain ⟨hahead, hsoon, hphase⟩ := releaseCycle_spec s.cycle (dhRphase (dieHeader s i (6 * q.lo)))
    exact ⟨s', _, hexec, hsw', hahead, hsoon, hphase, hopts, hcycle, hstk⟩
  case refused =>
    by_cases hout : imageOutside s p.val o = true
    · exact ⟨_, exec_imageLoadComplete_outside hsw hbusy hruns hout, refuseRange_spec w⟩
    · obtain ⟨n, hn, hfail⟩ := hbad.resolve_left hout
      have hfails : loadFails s p.val o ≠ [] := fun hnil => hfail (loadFails_eq_nil_iff.mp hnil n hn)
      exact ⟨_, exec_imageLoadComplete_refused hsw hbusy hruns (Bool.eq_false_iff.mpr hout) hfails, refuseLoad_spec w hfails⟩
  case release =>
    obtain ⟨s', hexec, hcycle, hst, hsw', hsus, hrel, htiles, hended, hstk⟩ := release_onDevice w wt hhi hsw
    refine ⟨s', hexec, hcycle, hst, hsw', hsus, hrel, fun xy hxy hloaded => ?_, hended, hstk⟩
    rw [htiles xy hxy, releaseTile_loaded hloaded]
    exact ⟨rfl, rfl, rfl, rfl⟩
  case replay => exact exec_replayNextLoad hrest hst hsw

/-! ### A band that reaches past the device -/

/-- A load with no option set. -/
def wideLoad : LoadOpts := { imgofs := 0, seed := 0, ckpt := false, force := false, stats := false }

/-- A band of nine die columns that is released in cycle 1. -/
def wideBand : Partition := { set_ := true, lo := 0, hi := 8, st := .loading, sw := some ⟨.load wideLoad, .release 1⟩ }

/-- A device of grade A whose first partition is that band, with one LOADED tile, in a quadrant with a droop span. Tile
(1024, 64), of a ninth die column, has the key of tile (0, 65). -/
def wideState : State :=
  { parts := [(0, wideBand)], tiles := [(tileKey 0 65, { tab := { st := .loaded } })]
    power := { quads := { spans := [(4, [(0, 5)])] } } }

theorem mem_workTiles_wideState : (0, 65) ∈ workTiles wideState 0 ∧ (1024, 64) ∈ workTiles wideState 0 :=
  ⟨mem_workTiles (s := wideState) (c := 0) (j := 1) (k := 0) (l := 1) (by decide) (by decide) (by decide) (by decide)
      (by decide +kernel),
    mem_workTiles (s := wideState) (c := 8) (j := 1) (k := 0) (l := 0) (by decide) (by decide) (by decide) (by decide)
      (by decide +kernel)⟩

/-- The span stretches the quadrant of tile (0, 65) at the release; a tile off the device has the first quadrant's spans. -/
theorem tileStart_wideState :
    tileStart (spansOf wideState (tilePlace wideState 0 65).1 (tilePlace wideState 0 65).2) 1 = 2 ∧
      tileStart (spansOf wideState (tilePlace wideState 1024 64).1 (tilePlace wideState 1024 64).2) 1 = 1 := by
  decide +kernel

theorem loaded_wideState : (getTile wideState 0 65).tab.st = .loaded ∧ (getTile wideState 1024 64).tab.st = .loaded :=
  ⟨rfl, rfl⟩

end Sys2Proof.Machine

open Sys2Proof Sys2Proof.Machine

/-- Refutes O42: no premise keeps a band on the device. In a band of nine die columns, tile (1024, 64) of the ninth has the
key of tile (0, 65), and the release would have the one tile of that key run first in cycle 2 and in cycle 1. For bands on
the device the statement holds (imagesAndRelease_onDevice). -/
theorem not_imagesAndRelease : ¬ Obligations.ImagesAndRelease := by
  intro h
  obtain ⟨-, -, hrelease, -⟩ := h wideState 0 wideLoad (by decide +kernel)
  obtain ⟨s', -, -, -, -, -, -, htiles, -⟩ := hrelease 1 rfl (by decide +kernel)
  obtain ⟨hmem, hmem'⟩ := mem_workTiles_wideState
  obtain ⟨hloaded, hloaded'⟩ := loaded_wideState
  obtain ⟨hstart, hstart'⟩ := tileStart_wideState
  obtain ⟨-, -, hnext, -⟩ := htiles (0, 65) hmem hloaded
  obtain ⟨-, -, hnext', -⟩ := htiles (1024, 64) hmem' hloaded'
  have hsame : getTile s' 0 65 = getTile s' 1024 64 := rfl
  rw [hstart] at hnext
  rw [hstart', ← hsame, hnext] at hnext'
  exact absurd hnext' (by decide)
end
